-- ==== Sys2Proof/Word.lean ====
section
/-! DEFINITION.  The words of the block: a register word of 32 bits (R7), a byte, and the two
line ports and line dies. -/

namespace Sys2Proof

/-- A 32-bit register word (R7). -/
abbrev Word := BitVec 32

/-- A byte of a memory window. -/
abbrev Byte := BitVec 8

/-- A line port, and the line die that carries it: LP0 on LD0, LP1 on LD1 (R13). -/
abbrev Port := Fin 2

end Sys2Proof
end

