-- ==== Sys2Proof/Syntax.lean ====
section
/-! DEFINITION.  The commands of the block: one constructor per row of the opcode table, with the
operands of the row: the register word a host write carries, or what the environment presents. -/

namespace Sys2Proof

/-- A converter measurement or trim: gain, offset in 1/16 LSB, skew in 0.5 fs (R90, R102).  A measured gain is in
ppm, a residual gain in 1/4,096. -/
structure Meas where
  gain : Int
  offset : Int
  skew : Int
deriving DecidableEq, Repr, Inhabited

/-- The selections made for a slice or a sub-DAC: which of 4 redundant comparators serves each comparator decision, which subset of
the unit capacitors or current cells forms each bit (as a mask), and the multiplexer clock tap of a sub-DAC (R90, R97). -/
structure Sel where
  comps : List (Fin 4)
  cells : List Nat
  tap : Fin 32
deriving DecidableEq, Repr, Inhabited

/-- The fields of a subframe header whose CRC checks (R246). -/
structure LineHdr where
  frame : BitVec 12
  span : BitVec 16
  sc : BitVec 4
  mode : BitVec 4
deriving DecidableEq, Repr

/-- What a raw capture has recorded: the interleave position of sample 0; the ideal codes, signed, at 131,072 × lane + sample + 2, with
the two samples before the first and after the last that the skew filter sees (R90, R118); and, for each swap of slices while the
capture filled, in order, how many samples of a lane had been recorded before it (R115). -/
structure Capture where
  phase : Fin 160
  data : List (BitVec 19 × BitVec 16)
  swaps : List (BitVec 17)
deriving DecidableEq, Repr

/-- A matcher block's payload as received, after phase correction (R161, R195): its subcarrier, its polarisation (true Y), the noise
variance of a real dimension that the SNR monitor measures, in 2^-16 with 0 acting as 1 (R175), and the I and Q levels of each
symbol in 1/256 of the amplitude unit. -/
structure RxBlock where
  sc : Fin 8
  pol : Bool
  noise : BitVec 32
  syms : List (Int × Int)
deriving DecidableEq, Repr

/-- The signal of a carrier frame on its way to the lanes: the samples of X and Y after synthesis and pre-compensation, I and Q, from 32
before the frame's first to 32 after its last (R190, R201–R204); and how many samples of the frame had left a lane at each write of a
predistortion table during the frame, in order (R210). -/
structure TxFrame where
  x : List (Int × Int)
  y : List (Int × Int)
  writes : List (BitVec 18)
deriving DecidableEq, Repr

/-- What a monitor window measured on a subcarrier (R178, R179, R188): SNR in 0.01 dB, the subcarrier's own residual
offset in kHz, residual dispersion in 0.25 ps/nm, DGD in 0.1 ps, SOP rate in krad/s, pilot BER in 2^-32, phase error in
mrad, estimated PDL as EQ_STAT.PDL reads it, mean square error as EQ_STAT.MSE reads it, and the scale S the engine sets. -/
structure Mon where
  snr : BitVec 16
  fo : Int
  cd : Int
  dgd : BitVec 16
  sop : BitVec 24
  berPilot : BitVec 32
  phErr : BitVec 12
  pdl : BitVec 8
  mse : BitVec 12
  scale : BitVec 8
deriving DecidableEq, Repr


/-- What a client's ingress hands its transmit joint (R285, R291): 257B blocks of an Ethernet client, first bit most significant, or,
of a transparent client, the 40-bit units of each of its lanes. -/
structure Ingress where
  blocks : List (BitVec 257)
  lanes : List (List (BitVec 40))
deriving DecidableEq, Repr

/-- What the keystone reads in the regions of the flash map of R352, each from its first byte, none where it cannot be read: the patch
at 0x20000, the certificate chain at 0x38000, the image slots at 0x40000 and 0x840000. -/
structure Flash where
  patch : Option (List (BitVec 8))
  certs : Option (List (BitVec 8))
  slotA : Option (List (BitVec 8))
  slotB : Option (List (BitVec 8))
deriving DecidableEq, Repr

/-- A slow-protocol PDU as received on a reference's lane (R378): destination, Ethertype, slow-protocol subtype, ITU-OUI and
subtype, type, length and last byte of the first TLV, and type, length and first value byte of a TLV after it. -/
structure EsmcPdu where
  da : BitVec 48
  etype : BitVec 16
  slow : BitVec 8
  oui : BitVec 24
  itu : BitVec 16
  tlvType : BitVec 8
  tlvLen : BitVec 16
  last : BitVec 8
  ext : Option (BitVec 8 × BitVec 16 × BitVec 8)
deriving DecidableEq, Repr

/-- A frame at a client's host lanes (R300, R302): its bytes, whether it came with an error block, and how long before now its
timestamp point crossed the balls, in 2^-16 ns. -/
structure PtpMsg where
  frame : List (BitVec 8)
  err : Bool
  lag : BitVec 32
deriving DecidableEq, Repr

/-- How many symbols of the current frame have gone by on the transmit and receive counters of each port (R439). -/
structure FramePos where
  tx0 : BitVec 17
  tx1 : BitVec 17
  rx0 : BitVec 17
  rx1 : BitVec 17
deriving DecidableEq, Repr

/-- A request that a pier engine puts on a hanger port (R432): the engine, read or write, COUNT, the companion address and the words of a
write. -/
structure PierReq where
  engine : Fin 192
  read : Bool
  count : Fin 17
  addr : BitVec 32
  data : List (BitVec 32)
deriving DecidableEq, Repr

/-- One symbol period at a hanger port: the sample after the hybrid, signed, in 2^-15 of the level unit, the bits of the symbol the
device sends, none for silence, and whether a far-end reception is in progress (R421, R422). -/
structure EchoSample where
  sample : BitVec 24
  sent : Option (BitVec 2)
  far : Bool
deriving DecidableEq, Repr

/-- What reaches the decimation chain up to a result: the modulator samples since the result before, or since the flush, oldest first
and in 1/64 LSB, of the channel's source and of hub ground; an overrange (true above, false below); and whether the conversion window
overlapped a supply dip (R449, R462–R466). -/
structure TcvRaw where
  samples : List Int
  ground : List Int
  ovr : Option Bool
  stale : Bool
deriving DecidableEq, Repr

/-- What takes a running pier engine to FAULT (R493). -/
inductive EngineFault where
  | wdt | bus | illegal | memecc
deriving DecidableEq, Repr

/-- Which PCIe write of a notification draws an error: none, the entry, or the head block after it (R512). -/
inductive RingErr where
  | none | entry | head
deriving DecidableEq, Repr


/-- What a read of a stored word meets, as 72-bit patterns (check bits above the data): bits that have flipped in the memory
since it was last written, and on a QDR channel the bits in error on the link at the first read and at the re-read (R524,
R527). -/
structure Upset where
  store : BitVec 72
  link1 : BitVec 72
  link2 : BitVec 72
deriving DecidableEq, Repr

/-- Why a received flit is not delivered: its CRC failed, or its FIFO word failed parity (R520, R535). -/
inductive FlitFault where
  | crc | parity
deriving DecidableEq, Repr


/-- What a host write meets besides its word, for the registers whose effect depends on it: whether it lands within 64
datapath clocks of the next transmit or receive span boundary of its port (R61, R64), the code offsets at which the engines
of a cluster stand (R493), how far the frames have gone by (R439), the bits counted and the hub clocks passed in a
bandwidth window it ends (R569), and what a capture it aborts has recorded
(R119). -/
structure HostEnv where
  nearTx : Bool
  nearRx : Bool
  pcs : List (BitVec 14)
  pos : FramePos
  bits : List (BitVec 64 × BitVec 64)
  clocks : BitVec 32
  cap : Capture
deriving DecidableEq, Repr

/-- A command: a host access, or a happening inside the part or at its pins. -/
inductive Instr where
  /-- REGISTER_WRITE (R9): a write of BAR0 at an offset by the host, or by a management core: 32 bits, or 64 bits. -/
  | registerWrite (core : Bool) (off : BitVec 22) (wide : Bool) (data : BitVec 64) (x : HostEnv)
  /-- LO_READ (R8): a host read of BAR0 at an offset: 32 bits, or 64 bits as the LO and then the HI access. -/
  | loRead (off : BitVec 22) (wide : Bool)
  /-- BAR_PARTIAL (R36): a BAR0 write at an offset with byte enables other than all four bytes of a word. -/
  | barPartial (off : BitVec 22)
  /-- UNMAPPED (R37): a host write at an offset of a page that has no block. -/
  | unmapped (off : BitVec 22) (w : Word)
  /-- LD_OFFLINE (R38): a host write at an offset of a page of a line die that is gated or in reset. -/
  | ldOffline (off : BitVec 22) (w : Word)
  /-- BAR2_READ (R526): a host read of BAR2: the aligned 64-bit word, or the aligned 32-bit half, that holds the offset. -/
  | bar2Read (off : BitVec 26) (wide : Bool) (x : Upset)
  /-- BAR2_WRITE (R525): a host write of BAR2 to the aligned 64-bit word that holds the offset, with byte enables. -/
  | bar2Write (off : BitVec 26) (be : BitVec 8) (data : BitVec 64)
  /-- BAR4_READ (R568): a user read of BAR4: a 32-bit word, or the 64-bit pair of words from the offset. -/
  | bar4Read (off : BitVec 20) (wide : Bool)
  /-- EVT_MASK_WRITE (R47): a host write of EVT_MASKk of a page. -/
  | evtMaskWrite (pg : BitVec 10) (k : Fin 4) (w : Word)
  /-- FORCE (R52): a host write of EVT_FORCEk of a page. -/
  | force (pg : BitVec 10) (k : Fin 4) (w : Word)
  /-- MSIX_ENABLE (R49): the host writes MSI-X Enable and Function Mask in configuration space. -/
  | msixEnable (en fmask : Bool)
  /-- MSIX_VECTOR_UNMASK (R49): a host write of the Vector Control of an MSI-X vector with its mask bit 0. -/
  | msixVectorUnmask (v : Fin 64) (w : Word)
  /-- SOFT_RST (R626): a host write of CTL of a page with SOFT_RST. -/
  | softRst (pg : BitVec 10) (x : HostEnv)
  /-- TB_SOFT_RST (R399): a host write of CTL of the TB page with SOFT_RST. -/
  | tbSoftRst
  /-- TCV_SOFT_RST (R468): a host write of CTL of the TCV page with SOFT_RST. -/
  | tcvSoftRst
  /-- MBX_SOFT_RST (R511): a host write of CTL of the MBX page with SOFT_RST. -/
  | mbxSoftRst
  /-- PIER_SOFT_RST (R518): a host write of CTL of a PIER page with SOFT_RST; pcs are the code offsets of the cluster's engines. -/
  | pierSoftRst (cluster : Fin 12) (pcs : List (BitVec 14))
  /-- DMA_SOFT_RST (R556): a host write of CTL of the DMA page with SOFT_RST. -/
  | dmaSoftRst
  /-- PERFW_SOFT_RST (R569): a host write of CTL of the PERFW page with SOFT_RST. -/
  | perfwSoftRst
  /-- TX_FRAME_BOUNDARY (R53): a transmitted carrier frame ends and the next starts; tx: the signal of the frame that ends. -/
  | txFrameBoundary (p : Port) (tx : TxFrame)
  /-- TX_SPAN_BOUNDARY (R53): the transmit frame index passes 4,095; tx as for TX_FRAME_BOUNDARY. -/
  | txSpanBoundary (p : Port) (tx : TxFrame)
  /-- RX_FRAME_BOUNDARY (R53): a received carrier frame starts; the matcher blocks received since the last command that gave any. -/
  | rxFrameBoundary (p : Port) (blocks : List RxBlock)
  /-- RX_SPAN_BOUNDARY (R53): the receive frame index passes 4,095; blocks as for RX_FRAME_BOUNDARY. -/
  | rxSpanBoundary (p : Port) (blocks : List RxBlock)
  /-- TX_EN_SET (R54): a host write of LFR_CTL with TX_EN 1. -/
  | txEnSet (p : Port) (w : Word)
  /-- TX_EN_CLEAR (R277): a host write of LFR_CTL with TX_EN 0. -/
  | txEnClear (p : Port) (w : Word)
  /-- FRAMER_STOP (R54): the frame boundary at which framing ends; tx as for TX_FRAME_BOUNDARY. -/
  | framerStop (p : Port) (tx : TxFrame)
  /-- SET (R55): a host write of LFR_SPAN_CTL with SET. -/
  | set (p : Port) (w : Word)
  /-- ADOPT (R55): a host write of LFR_SPAN_CTL with ADOPT. -/
  | adopt (p : Port) (w : Word)
  /-- SPAN_ANNOUNCE_RX (R57): a SPAN_ANNOUNCE arrives; the SPAN and FRAME fields of the header of the same frame. -/
  | spanAnnounceRx (p : Port) (span : BitVec 48) (hdrSpan : BitVec 16) (hdrFrame : BitVec 12)
  /-- ANCHOR_HEADER (R248): an anchor header position: sync-word correlation, header fields when the CRC checks, section overhead. -/
  | anchorHeader (p : Port) (corr : BitVec 9) (hdr : Option LineHdr) (soh : BitVec 64)
  /-- SUBCARRIER_HEADER (R249): a header position of subcarrier x + 1: training-word correlation, header fields when the CRC checks, overhead copy. -/
  | subcarrierHeader (p : Port) (x : Fin 7) (corr : BitVec 9) (hdr : Option LineHdr) (soh : BitVec 64)
  /-- COMMIT_ARM (R60): a 64-bit write of COMMIT_LO and COMMIT_HI with ARM; near: within 64 datapath clocks of the next transmit or receive span boundary. -/
  | commitArm (pg : BitVec 10) (lo hi : Word) (nearTx nearRx : Bool)
  /-- RWS_WRITE (R64): a host write of a register with staged fields; near: it lands within 64 datapath clocks of the next transmit or receive span boundary. -/
  | rwsWrite (off : BitVec 22) (w : Word) (nearTx nearRx : Bool)
  /-- RXWAIT_EXPIRY (R636): the transmit span boundary that ends a wait; tx as for TX_FRAME_BOUNDARY. -/
  | rxwaitExpiry (p : Port) (tx : TxFrame)
  /-- PROPOSE (R74): a host write of SCC_CN_CTL with PROPOSE. -/
  | propose (p : Port) (w : Word)
  /-- ACCEPT (R84): a host write of SCC_CN_CTL with ACCEPT. -/
  | accept (p : Port) (w : Word)
  /-- REJECT (R84): a host write of SCC_CN_CTL with REJECT. -/
  | reject (p : Port) (w : Word)
  /-- CN_RESEND (R74): one span has passed since the last send. -/
  | cnResend (p : Port)
  /-- CN_TIMEOUT (R74): no reply to the outstanding proposal in its time. -/
  | cnTimeout (p : Port)
  /-- CN_PROPOSE (R75): a received CN_PROPOSE. -/
  | cnPropose (p : Port) (seq : BitVec 8) (target : BitVec 48) (cls : BitVec 3) (tag : Word)
  /-- CN_ACK (R74): a received CN_ACK. -/
  | cnAck (p : Port) (seq : BitVec 8) (target : BitVec 48)
  /-- CN_NACK (R74): a received CN_NACK. -/
  | cnNack (p : Port) (seq : BitVec 8) (target : BitVec 48) (reason : BitVec 8)
  /-- CN_LATE_REPLY (R76): the unanswered proposal has come to 8 spans ahead. -/
  | cnLateReply (p : Port)
  /-- CONVERTER_PLL_SETTLE (R87): the receive or transmit converter PLL of a port has settled. -/
  | converterPllSettle (p : Port) (rx : Bool)
  /-- ADC_OVERRANGE (R92): a sample of an interleave position lies beyond ±127.5 LSB. -/
  | adcOverrange (p : Port) (lane : Fin 4) (pos : Fin 160)
  /-- DAC_LANE_CTL_WRITE (R99): a host write of DAC_LANE_CTL; near as for RWS_WRITE. -/
  | dacLaneCtlWrite (p : Port) (w : Word) (nearTx nearRx : Bool)
  /-- LCAL_TEMP_TRIGGER (R109): a converter temperature reading, signed, 1/16 °C. -/
  | lcalTempTrigger (p : Port) (lane : Fin 4) (temp : BitVec 16)
  /-- LCAL_LOAD_TRIGGER (R109): a VDD_LD power reading, 0.01 W. -/
  | lcalLoadTrigger (p : Port) (power : BitVec 12)
  /-- LCAL_AGE_TRIGGER (R109): the age of the last pass is looked at. -/
  | lcalAgeTrigger (p : Port)
  /-- LCAL_START (R109): a host write of LCAL_CTL with START. -/
  | lcalStart (p : Port) (w : Word)
  /-- LCAL_HOLD (R115): a host write of LCAL_CTL with HOLD. -/
  | lcalHold (p : Port) (w : Word)
  /-- PASS_START (R112): the boundary at which a requested or held pass may go on; elig: positions with a header sample at both boundaries (R107). -/
  | passStart (p : Port) (elig : List (Fin 160))
  /-- LCAL_MEASUREMENT_END (R102): a measurement of a slice or sub-DAC, the selections that the two of its attempt give, and the residuals they leave. -/
  | lcalMeasurementEnd (p : Port) (dac : Bool) (lane : Fin 4) (unit : BitVec 8) (m res : Meas) (sel : Sel)
  /-- ROUND_END (R104): the closing boundary of a round. -/
  | roundEnd (p : Port) (elig : List (Fin 160))
  /-- PRIO_LATE (R113): 50 ms have passed since a priority trigger. -/
  | prioLate (p : Port)
  /-- ADC_CAP_ARM (R119): a host write of ADC_CAP_CTL with ARM; x: what a capture that ABORT ends has recorded. -/
  | adcCapArm (p : Port) (w : Word) (x : Capture)
  /-- ADC_CAP_ABORT (R119): a host write of ADC_CAP_CTL with ABORT; x: what has been recorded. -/
  | adcCapAbort (p : Port) (w : Word) (x : Capture)
  /-- CAP_DONE (R119): the capture buffer is full. -/
  | capDone (p : Port) (x : Capture)
  /-- CDC_COEF_READY (R127): the coefficient set being computed is complete. -/
  | cdcCoefReady (p : Port)
  /-- CDC_BLOCK_BOUNDARY (R164): an FFT block boundary, with the fine offset in kHz, the tracking estimate in 0.25 ps/nm, and the clock-tone magnitudes of the block just ended, each with whether a converter flip flags its samples, and its clock-tone phases at the interpolator output, subcarrier by subcarrier. -/
  | cdcBlockBoundary (p : Port) (fine cdEst : Int) (tones : List (Bool × Nat)) (clk : List Int)
  /-- START (R133): a host write of CDC_SRCH_STEP with START. -/
  | start (p : Port) (w : Word)
  /-- SRCH_DONE (R133): the search whose candidates are all evaluated is decided. -/
  | srchDone (p : Port)
  /-- SRCH_RETRY (R134): 100 ms have passed since the last search of a failed run. -/
  | srchRetry (p : Port)
  /-- MIMO_TAP_UPDATE (R138): the gradients of the 16 symbols of an update, by tap, in 2^-8, each with whether a converter flip flags the symbol. -/
  | mimoTapUpdate (p : Port) (sc : Fin 8) (grads : List (Bool × List (Fin 128 × Int × Int)))
  /-- MIMO_WINDOW (R139): a window of 4,096 symbols: CMA error variance and output cross-correlation magnitude, in 1/1,000. -/
  | mimoWindow (p : Port) (sc : Fin 8) (var xcorr : Nat)
  /-- MIMO_SEED_TIMEOUT (R139): 2 ms in BLIND without convergence. -/
  | mimoSeedTimeout (p : Port) (sc : Fin 8)
  /-- MIMO_PILOT_DONE (R139): 64 carrier frames in PILOT. -/
  | mimoPilotDone (p : Port) (sc : Fin 8)
  /-- MIMO_HOLD_TIMEOUT (R139): 64 carrier frames in HOLD without alignment. -/
  | mimoHoldTimeout (p : Port) (sc : Fin 8)
  /-- FREEZE (R139): a host write of MIMO_CTL. -/
  | freeze (p : Port) (w : Word)
  /-- REINIT (R139): a host write of MIMO_CMD. -/
  | reinit (p : Port) (w : Word)
  /-- SNAP (R159): a host write of SUBC_EQ_CTL.SNAP. -/
  | snap (p : Port) (sc : Fin 8)
  /-- TRIPLET_WRITE (R148): a host or DMA write of a 32-bit word of the triplet window. -/
  | tripletWrite (p : Port) (woff : Fin 245760) (w : Word)
  /-- TBL_OPEN (R149): the last symbol before the take of EN = 0 has left the NLC. -/
  | tblOpen (p : Port)
  /-- SUM_START (R150): a host write of NLC_CMD.SUM_START. -/
  | sumStart (p : Port)
  /-- SUM_DONE (R150): the table CRC is complete. -/
  | sumDone (p : Port)
  /-- TBL_ECC (R147): the NLC reads an entry with an uncorrectable error. -/
  | tblEcc (p : Port) (e : Fin 122880)
  /-- REACQ (R165): a host write of CRV_CMD.REACQ. -/
  | reacq (p : Port)
  /-- COARSE_FO_DONE (R164): the 64-block estimate of the carrier offset, kHz. -/
  | coarseFoDone (p : Port) (est : Int)
  /-- TIM_LOCK (R165): the timing loop error has stayed below 0.05 UI over 4,096 symbols. -/
  | timLock (p : Port)
  /-- TIM_LOST (R635): the timing loop condition fails. -/
  | timLost (p : Port)
  /-- ACQ_TIMEOUT (R165): 50 ms have passed since the start of acquisition or the loss of the anchor. -/
  | acqTimeout (p : Port)
  /-- ACQ_RETRY (R165): 100 ms have passed since the last failure. -/
  | acqRetry (p : Port)
  /-- PILOT (R169): pilot n of a subframe, from 0: its phase in 2π/65,536, whether the rms error stays below 0.2 rad, whether its decision is wrong, and how far the blind-search track has moved since the pilot before. -/
  | pilot (p : Port) (sc : Fin 8) (pol : Bool) (frame : BitVec 12) (n : BitVec 11) (phase : BitVec 16) (rmsOk wrong : Bool) (drift : BitVec 16)
  /-- MON_LATCH (R178): the monitor window ends: each subcarrier's measurements. -/
  | monLatch (p : Port) (m : List (Fin 8 × Mon))
  /-- TXS_PD_WRITE (R210): a host write of word i of the predistortion tables. -/
  | txsPdWrite (p : Port) (idx : Fin 256) (w : Word)
  /-- DECODER_START (R223): a receive frame with index 0 begins while the decoder stands. -/
  | decoderStart (p : Port)
  /-- CODEWORD_RELEASE (R26): the oldest Girder inner codeword is released, 3,300 ns after its last input; the matcher blocks received since the last command that gave any, the codeword-iterations the cores have completed since, and the groups of 16 of its LLRs whose parity fails. -/
  | codewordRelease (p : Port) (blocks : List RxBlock) (iters : BitVec 16) (parity : List (Fin 384))
  /-- TRESTLE_RELEASE (R230): the oldest Trestle codeword is decoded and, unless held, released; blocks and parity as for CODEWORD_RELEASE. -/
  | trestleRelease (p : Port) (blocks : List RxBlock) (parity : List (Fin 384))
  /-- PEAK_CLR (R242): a host write of FEC_CMD.PEAK_CLR. -/
  | peakClr (p : Port)
  /-- INJ_ON (R240): a host write of FEC_INJ with EN. -/
  | injOn (p : Port) (w : Word)
  /-- SECTION_BIP_COMPARE (R253): the decks of the oldest frame whose BIP16 is held are decoded. -/
  | sectionBipCompare (p : Port)
  /-- SCC_CELL_RX (R258): a received cell of 20 bytes; locked: all four frames were received in anchor LOCK. -/
  | sccCellRx (p : Port) (cell : List (BitVec 8)) (locked : Bool)
  /-- SEND (R282): a host write of SCC_TX_CTL with SEND. -/
  | send (p : Port) (w : Word)
  /-- TX_DONE (R283): the last cell of the host message has gone. -/
  | txDone (p : Port)
  /-- POP (R282): a host write of SCC_RX_CTL.POP. -/
  | pop (p : Port)
  /-- DECK_TX (R267): a deck is built; what each client's ingress has offered to its joint since the deck before. -/
  | deckTx (p : Port) (offers : List (Fin 32 × Ingress))
  /-- DECK_RX (R268): a deck of the decoded frame stream is received; the fill of each client's receive joint after it, ns; the bytes held in the joints, oldest 0, whose parity fails. -/
  | deckRx (p : Port) (fills : List (Fin 32 × BitVec 13)) (parity : List (Fin 32 × BitVec 16))
  /-- EJ_UNF (R273): a byte is due from an empty receive joint. -/
  | ejUnf (p : Port) (c : Fin 32)
  /-- RECENTRE (R274): a host write of MAP_CLI with RECENTRE; near as for RWS_WRITE. -/
  | recentre (p : Port) (c : Fin 32) (w : Word) (nearTx nearRx : Bool)
  /-- ADAPT_RESTART (R288): a host write of HLN_CTL with ADAPT_RESTART. -/
  | adaptRestart (l : Fin 32) (w : Word)
  /-- ADAPT_DONE (R288): adaptation of a host lane completes with this receiver SNR. -/
  | adaptDone (l : Fin 32) (snr : BitVec 12)
  /-- LANE_DOWN (R306): a host lane loses its signal, or only its CDR lock. -/
  | laneDown (l : Fin 32) (signal : Bool)
  /-- HLN_TXFFE_WRITE (R289): a host write of HLN_TXFFE0, or of HLN_TXFFE1 when one. -/
  | hlnTxffeWrite (l : Fin 32) (one : Bool) (w : Word)
  /-- CLI_CFG_WRITE (R287): a host write of CLI_CFG. -/
  | cliCfgWrite (c : Fin 32) (w : Word)
  /-- RS_CODEWORD (R292): an ingress codeword as received, and the Ethernet frames that ended in it. -/
  | rsCodeword (c : Fin 32) (cw : List (BitVec 10)) (frames : BitVec 8)
  /-- PTP_INGRESS (R302): a frame has come in: the timestamp of a PTP event message. -/
  | ptpIngress (c : Fin 32) (m : PtpMsg)
  /-- PTP_EGRESS (R302): a frame has left: the timestamp of a PTP event message. -/
  | ptpEgress (c : Fin 32) (m : PtpMsg)
  /-- ENC_TX_BLOCK (R315): a block header of a tributary is due; data: the payload bits that the tributary offers before it runs dry or the block is full; miss: the pipeline pair of each keystream or tag-mask disagreement; ghash: a GHASH disagreement at the block's end. -/
  | encTxBlock (c : Fin 32) (data : List Bool) (miss : List (Fin 48)) (ghash : Bool)
  /-- ENC_RX_BLOCK (R319): a received block: header, ciphertext and tag, the pair and the unit of each keystream disagreement, and a GHASH disagreement. -/
  | encRxBlock (c : Fin 32) (header : BitVec 16) (body : List (BitVec 8)) (miss : List (Fin 48 × Fin 1024)) (ghash : Bool)
  /-- ENC_FRAME_RELEASE (R330): the last byte of a held frame is due; last: how many blocks ago the block with its last byte came, none while that block is not complete; more: how many blocks before that one hold bytes of it. -/
  | encFrameRelease (c : Fin 32) (last : Option (Fin 4)) (more : Fin 8)
  /-- RESYNC (R319): a host write of ENC_CMD with RESYNC. -/
  | resync (w : Word)
  /-- LOG_POP (R343): a host write of ENC_CMD with LOG_POP. -/
  | logPop (w : Word)
  /-- INJECT (R343): a host write of ENC_TEST with INJECT. -/
  | inject (w : Word)
  /-- ENC_TRIB_WRITE (R342): a host write of ENC_TRIB; near as for RWS_WRITE. -/
  | encTribWrite (c : Fin 32) (w : Word) (nearTx nearRx : Bool)
  /-- ERASE (R338): a host write of KEYS_CMD with ERASE. -/
  | erase (w : Word)
  /-- ERASE_ALL (R338): a host write of KEYS_CMD with ERASE_ALL. -/
  | eraseAll (w : Word)
  /-- CONTROL_RECORD (R334): a received control-class record under the port's control key; agreed: the cipher's two computations agreed. -/
  | controlRecord (p : Port) (rec : List (BitVec 8)) (agreed : Bool)
  /-- PWRON_N (R575): PWRON_N is released; BOOT_SRC, KS_PROV, and the grade of the part. -/
  | pwronN (straps : BitVec 3)
  /-- RST_N (R575): RST_N is released. -/
  | rstN
  /-- PERST_N (R575): PERST_N is asserted and released. -/
  | perstN
  /-- BOOT_DONE (R350): the boot ends the state it is in: the known-answer tests, the flash, and the recipe directory of the image that runs. -/
  | bootDone (selftest : Bool) (flash : Flash) (dir : List (BitVec 16 × BitVec 16 × BitVec 256))
  /-- PUSH_DONE (R353): a host write of KSMB_CTL with PUSH_DONE. -/
  | pushDone (w : Word)
  /-- CLAIM (R356): a write of KSMB_MB_CTL with CLAIM by the host or a management core. -/
  | claim (core : Bool) (w : Word)
  /-- RELEASE (R357): a write of KSMB_MB_CTL with RELEASE by the host or a management core. -/
  | release (core : Bool) (w : Word)
  /-- CLAIM_EXPIRED (R357): 100 ms have passed without a mailbox access by the owner. -/
  | claimExpired
  /-- INFO (R630): the keystone runs the requested INFO. -/
  | info
  /-- GET_CERTS (R355): the keystone runs the requested GET_CERTS. -/
  | getCerts
  /-- QUOTE (R361): the keystone runs the requested QUOTE. -/
  | quote
  /-- SVN_COMMIT (R360): the keystone runs the requested SVN_COMMIT; took: the bits of RT_SVN that take when burned. -/
  | svnCommit (took : BitVec 384)
  /-- OWNER_BURN (R360): the keystone runs the requested OWNER_BURN; took: the bits of the step OWNED that take when burned. -/
  | ownerBurn (took : BitVec 3)
  /-- ANCHOR_SET (R364): the keystone runs the requested ANCHOR_SET. -/
  | anchorSet
  /-- KA_START (R366): the keystone runs the requested KA_START. -/
  | kaStart
  /-- KEY_INSTALL (R368): the keystone runs the requested KEY_INSTALL. -/
  | keyInstall
  /-- DEBUG_CHALLENGE (R369): the keystone runs the requested DEBUG_CHALLENGE. -/
  | debugChallenge
  /-- DEBUG_UNLOCK (R370): the keystone runs the requested DEBUG_UNLOCK. -/
  | debugUnlock
  /-- HG_KEY_AGREE (R442): the keystone runs the waiting HG_KEY_AGREE request. -/
  | hgKeyAgree
  /-- MB_DONE (R358): the running request completes. -/
  | mbDone
  /-- KA_INIT (R363): a received channel 1 message of type 0x40. -/
  | kaInit (p : Port) (msg : List (BitVec 8))
  /-- KA_RESP (R363): a received channel 1 message of type 0x41. -/
  | kaResp (p : Port) (msg : List (BitVec 8))
  /-- KA_FIN (R366): a received channel 1 message of type 0x42; agreed: the cipher's two computations agreed. -/
  | kaFin (p : Port) (msg : List (BitVec 8)) (agreed : Bool)
  /-- KA_ABORT (R366): a received KA_ABORT. -/
  | kaAbort (p : Port) (reason : BitVec 8) (session : BitVec 16)
  /-- KA_INIT_RESEND (R366): 100 ms have passed since the last cell of KA_INIT. -/
  | kaInitResend (p : Port)
  /-- KA_FIN_TIMEOUT (R632): the wait for the peer's KA_FIN ends. -/
  | kaFinTimeout (p : Port)
  /-- CHALLENGE_EXPIRY (R369): 60 s have passed since DEBUG_CHALLENGE. -/
  | challengeExpiry
  /-- TAMPER (R371): a monitor reaches its warning level: 0 voltage, 1 clock, 2 temperature; without lasts, its warning has ended. -/
  | tamper (monitor : Fin 3) (lasts : Bool)
  /-- ZEROISE (R371): a monitor reaches its zeroise condition. -/
  | zeroise (monitor : Fin 3)
  /-- TAMPER_ACK (R371): a host write of KSMB_CTL with TAMPER_ACK. -/
  | tamperAck (w : Word)
  /-- TAMPER_ABSENT (R371): the zeroise condition has been absent for 1 s. -/
  | tamperAbsent
  /-- FIREWALL (R348): a bus master addresses the keystone range: 0 a management core, 1 a pier engine, 2 a DMA channel, 3 a PCIe request. -/
  | firewall (agent : Fin 4)
  /-- REF_LOS (R376): the activity condition of a reference fails. -/
  | refLos (r : Fin 8)
  /-- MONITOR_WINDOW (R381): a measurement window ends: for each reference the periods counted between its edges and the OSC_IN time they took in fs, none while inactive (in 1PPS mode one period, the interval between two edges), the mean DPLL frequency and the phase error. -/
  | monitorWindow (freqs : List (Option (BitVec 64 × BitVec 64))) (dpll : BitVec 32) (phase : BitVec 16)
  /-- FREQ_SUBWINDOW (R382): a 1 ms sub-window of a reference ends or, in 1PPS mode, an edge comes: the periods counted and the OSC_IN time they took in fs. -/
  | freqSubwindow (r : Fin 8) (count : BitVec 64 × BitVec 64)
  /-- WTR_EXPIRY (R384): the wait-to-restore of a reference ends. -/
  | wtrExpiry (r : Fin 8)
  /-- WTR_CLR (R384): a host write of CLK_CMD naming references. -/
  | wtrClr (w : Word)
  /-- HIST_CLR (R393): a host write of CLK_CMD with HIST_CLR. -/
  | histClr (w : Word)
  /-- CLK_CTL_WRITE (R388): a host write of CLK_CTL, or of CLK_REF_CFG of a reference. -/
  | clkCtlWrite (r : Option (Fin 8)) (w : Word)
  /-- ESMC_PDU (R378): a slow-protocol PDU received on the lane of H0 or H1. -/
  | esmcPdu (h : Fin 2) (m : EsmcPdu)
  /-- ESMC_TIMEOUT (R378): the QL messages of a reference have failed to come. -/
  | esmcTimeout (r : Fin 8)
  /-- QL_ANNOUNCE (R379): a QL_ANNOUNCE received on a port. -/
  | qlAnnounce (p : Port) (ssm : BitVec 4) (essm : BitVec 8)
  /-- DPLL_STAGE_DONE (R390): the dwell of the current ACQ stage completes. -/
  | dpllStageDone (phase : BitVec 16)
  /-- DPLL_LOCK_LOSS (R391): the phase error stood beyond 100 ns for 10 ms. -/
  | dpllLockLoss (phase : BitVec 16)
  /-- TB_STEP (R402): a host write of TB_CMD naming time bases to step. -/
  | tbStep (w : Word)
  /-- TB_SNAP (R400): a host write of TB_CMD with SNAP. -/
  | tbSnap (w : Word)
  /-- TRIM_CLAMP (R401): a host write of TBn_TRIM. -/
  | trimClamp (n : Fin 4) (w : Word)
  /-- TIME_TX (R406): a TIME_TX received on a port. -/
  | timeTx (p : Port) (span : BitVec 8) (ns : BitVec 64) (frac : BitVec 16)
  /-- TIME_RX (R406): a TIME_RX received on a port. -/
  | timeRx (p : Port) (span : BitVec 8) (ns : BitVec 64) (frac : BitVec 16)
  /-- PPS_OUT (R407): the clock has carried the 1PPS time base over a second. -/
  | ppsOut
  /-- PPS_IN (R408): a rising edge on REFIN3. -/
  | ppsIn
  /-- ENQ (R409): a host write of TLQ_CMD with ENQ. -/
  | enq (w : Word)
  /-- TLQ_ENQ_DONE (R409): the frame copy of the enqueue completes. -/
  | tlqEnqDone
  /-- FLUSH_ALL (R415): a host write of TLQ_CMD with FLUSH_ALL. -/
  | flushAll (w : Word)
  /-- TLQ_DUE (R410): the time base of a queue entry has reached its target and its launch would start. -/
  | tlqDue (e : BitVec 7)
  /-- TLQ_LAUNCH_DONE (R414): the launch of an entry completes; how long ago the timestamp point of its frame crossed the balls, 2^-16 ns. -/
  | tlqLaunchDone (e : BitVec 7) (lag : BitVec 32)
  /-- HGL_EN (R433): a host write of HGL_CTL. -/
  | hglEn (n : Fin 4) (w : Word)
  /-- HG_PREAMBLE (R428): a preamble at this correlation, in 1/256, with this power of the correlation peak, and the symbol periods since the last one. -/
  | hgPreamble (n : Fin 4) (corr : BitVec 9) (peak : BitVec 32) (line : List EchoSample)
  /-- HG_HEADER (R428): the 32 header bits received. -/
  | hgHeader (n : Fin 4) (w : BitVec 32)
  /-- HG_PACKET (R426): the codewords of a packet as received: the soft values of their coded bits, positive for 0. -/
  | hgPacket (n : Fin 4) (words : List (List Int))
  /-- RSP (R427): the body of an accepted RSP. -/
  | rsp (n : Fin 4) (tag : BitVec 16) (status : BitVec 8) (words : List Word)
  /-- TEL (R437): the SEQ and body of an accepted TEL. -/
  | tel (n : Fin 4) (seq : BitVec 16) (body : List (BitVec 8))
  /-- EVENT (R437): the code and the two bytes after it of an accepted EVENT. -/
  | event (n : Fin 4) (code : BitVec 8) (b1 b2 : BitVec 8)
  /-- SRSP (R441): the record of an accepted SRSP; every AES block agreed. -/
  | srsp (n : Fin 4) (record : List (BitVec 8)) (agreed : Bool)
  /-- KEY (R442): the body of an accepted KEY packet. -/
  | key (n : Fin 4) (body : List (BitVec 8)) (agreed : Bool)
  /-- HG_RTO (R430): RTO µs have passed without an acknowledgement. -/
  | hgRto (n : Fin 4)
  /-- HG_ACK_TIMER (R431): 2 µs have passed with nothing else to send. -/
  | hgAckTimer (n : Fin 4)
  /-- HG_IDLE_TIMER (R433): 20 µs have passed in TRAIN. -/
  | hgIdleTimer (n : Fin 4)
  /-- HG_LINK_TIMEOUT (R433): no packet accepted for TMO. -/
  | hgLinkTimeout (n : Fin 4)
  /-- HGL_ACCEPT (R433): a host write of HGL_CMD with ACCEPT. -/
  | hglAccept (n : Fin 4) (w : Word)
  /-- RETRAIN (R433): a host write of HGL_CMD with RETRAIN. -/
  | retrain (n : Fin 4) (w : Word)
  /-- NOISE_CLR (R443): a host write of HGL_CMD with NOISE_CLR. -/
  | noiseClr (n : Fin 4) (w : Word)
  /-- EC_RESET (R422): a host write of HGL_EC_CTL with RESET. -/
  | ecReset (n : Fin 4) (w : Word)
  /-- REQ_GO (R436): a host write of HGL_REQ_CTL with GO; or, with one given, a pier engine's request, which has no register. -/
  | reqGo (n : Fin 4) (w : Word) (pier : Option PierReq)
  /-- TMD_GO (R438): a host write of HGL_TMD_CTL with GO. -/
  | tmdGo (n : Fin 4) (w : Word) (pos : FramePos)
  /-- TRIGGER_RESERVATION (R439): the link reservation before the next trigger starts. -/
  | triggerReservation (n : Fin 4) (pos : FramePos)
  /-- TRIGGER (R439): the next trigger instant has come. -/
  | trigger (n : Fin 4) (pos : FramePos)
  /-- EXEC_DONE_TIMEOUT (R440): 100 µs have passed since the trigger of a handle. -/
  | execDoneTimeout (n : Fin 4) (h : Fin 16)
  /-- KX_TIMEOUT (R442): 1 ms has passed without the next key-exchange message. -/
  | kxTimeout (n : Fin 4)
  /-- NOISE_GAP (R443): a qualifying gap with this mean power, in 2^-32 of full scale. -/
  | noiseGap (n : Fin 4) (power : BitVec 32)
  /-- REF_EN (R452): a host write of TCV_CTL that sets or clears REF_EN. -/
  | refEn (w : Word)
  /-- REF_READY (R452): 2 ms have passed since REF_EN. -/
  | refReady
  /-- CAL (R453): a host write of TCV_CTL with CAL. -/
  | cal (w : Word)
  /-- CAL_DONE (R453): the conversions of a self-calibration are complete: two offsets and two gains. -/
  | calDone (ofs1 ofs2 gain1 gain2 : BitVec 16)
  /-- SCAN_EN (R457): a host write of TCV_CTL that sets or clears SCAN_EN. -/
  | scanEn (w : Word)
  /-- MUX_SETTLED (R455): the multiplexer has settled. -/
  | muxSettled
  /-- TCV_RESULT (R462): modulator samples up to the next result of the chain. -/
  | tcvResult (raw : TcvRaw)
  /-- SCAN_DELAY_END (R455): the DELAY of the current entry ends. -/
  | scanDelayEnd
  /-- INJ_GO (R458): a host write of TCV_INJ with GO. -/
  | injGo (w : Word)
  /-- TCV_Q_HEAD_READ (R463): a host read of TCV_Q_HEAD. -/
  | tcvQHeadRead
  /-- Q_FLUSH (R463): a host write of TCV_CTL with Q_FLUSH. -/
  | qFlush (w : Word)
  /-- TCV_START (R475): a host write of CAL_CMD with TCV_START. -/
  | tcvStart (w : Word)
  /-- TCV_AGE (R475): TCV_AGE minutes have passed since the last agreeing calibration. -/
  | tcvAge
  /-- TCV_DEFER_EXP (R476): TCV_DEFER seconds have passed without an idle moment. -/
  | tcvDeferExp
  /-- CAL_CONVERSION (R477): a CAL conversion is taken: the uncorrected VREFX code, or the mean of TS6 and TS7 in 1/16 °C; on a busy converter it waits, and this command comes again when it is done. -/
  | calConversion (vref : Bool) (value : BitVec 16)
  /-- VREF_CHECK (R483): the check of VREFX against the bandgap, which puts it at this uncorrected code. -/
  | vrefCheck (band : BitVec 16)
  /-- HG_START (R479): a host write of CAL_CMD with HG_START of some port. -/
  | hgStart (w : Word)
  /-- HG_APPLY (R480): a host write of CAL_CMD with HG_APPLY of some port. -/
  | hgApply (w : Word)
  /-- HG_ECHO_TRIGGER (R479): the residual echo of a port has stood at this level or above for 1 s, 0.1 dBFS; or its AGE ends. -/
  | hgEchoTrigger (n : Fin 4) (echo : BitVec 12)
  /-- HG_CAL_MEASUREMENT (R478): a measurement of the echo through the replica hybrid, 0.1 dBFS. -/
  | hgCalMeasurement (n : Fin 4) (echo : BitVec 12)
  /-- CORE_FAULT (R489): a management core takes an unhandled bus error, executes an illegal instruction, or lets its watchdog expire. -/
  | coreFault (core : Fin 4)
  /-- MGMT_HEARTBEAT (R490): a write of MGMT_HEARTBEAT. -/
  | mgmtHeartbeat (w : Word)
  /-- RT_DOWN (R490): the heartbeat has not changed for HB_TMO ms. -/
  | rtDown
  /-- PIER_START (R493): a write of PIER_CMD with START; pc is the code offset an engine that stops running stands at, in 2-byte units. -/
  | pierStart (cluster : Fin 12) (w : Word) (pc : BitVec 14)
  /-- PIER_HALT (R493): a write of PIER_CMD with HALT. -/
  | pierHalt (cluster : Fin 12) (w : Word) (pc : BitVec 14)
  /-- PIER_RESET (R493): a write of PIER_CMD with RESET. -/
  | pierReset (cluster : Fin 12) (w : Word) (pc : BitVec 14)
  /-- RECIPE_CHECK_DONE (R498): the recipe checker has hashed the code half of the engine whose turn it is. -/
  | recipeCheckDone
  /-- PIER_FAULT (R494): a running pier engine faults. -/
  | pierFault (engine : Fin 192) (cause : EngineFault) (pc : BitVec 14)
  /-- MBX_CMD_DB (R502): a host write of MBX_CMD_DB. -/
  | mbxCmdDb (w : Word)
  /-- CMD_FETCH_DONE (R502): a command fetch ends with the 128 bytes of the entry, or with a PCIe error; headErr: the head block write that follows draws one. -/
  | cmdFetchDone (entry : Option (List Byte)) (headErr : Bool)
  /-- NOP (R504): the runtime executes the ring command NOP that is first in order. -/
  | nop
  /-- REG_WRITE (R504): the runtime executes the ring command REG_WRITE that is first in order. -/
  | regWrite (x : HostEnv)
  /-- REG_READ (R504): the runtime executes the ring command REG_READ that is first in order. -/
  | regRead
  /-- LOOP_START (R504): the runtime executes the ring command LOOP_START that is first in order. -/
  | loopStart
  /-- LOOP_STOP (R504): the runtime executes the ring command LOOP_STOP that is first in order; pc is the code offset of the engine that stops. -/
  | loopStop (pc : BitVec 14)
  /-- NTF_EVENTS (R504): the runtime executes the ring command NTF_EVENTS that is first in order. -/
  | ntfEvents
  /-- NTF (R506): the device writes the next notification and the head block. -/
  | ntf (err : RingErr)
  /-- MBX_NTF_ACK (R506): a host write of MBX_NTF_ACK. -/
  | mbxNtfAck (w : Word)
  /-- RESYNC_GO (R509): a host write of MBX_RESYNC_CMD with GO. -/
  | resyncGo (w : Word)
  /-- RESYNC_DONE (R509): the snapshot has been written to the buffer, or its address drew a PCIe error. -/
  | resyncDone (ok : Bool)
  /-- MBX_EN (R511): a host write of MBX_CTL with EN. -/
  | mbxEn (w : Word)
  /-- RING_RETRY (R512): the retry of a failed ring transfer, 10 µs after it; entry is what a retried fetch brings. -/
  | ringRetry (ok : Bool) (entry : List Byte) (headErr : Bool)
  /-- TRAIN_DONE (R521): training of QDR channel q ends. -/
  | trainDone (q : Fin 2) (ok : Bool)
  /-- FILL_DONE (R521): the zero fill of the hub memories and the QDR devices is complete. -/
  | fillDone
  /-- LD_FILL_DONE (R522): the fill of the memories of line die p is complete. -/
  | ldFillDone (p : Port)
  /-- MERGE_DRAIN (R525): 64 controller clocks have passed since the oldest merge entry of a controller was allocated (0 hub SRAM, 1 QMC0, 2 QMC1). -/
  | mergeDrain (ctrl : Fin 3)
  /-- SCRUB_READ (R532): the scrubber reads a word of memory b, by bucket number; on QDR the word is the one of SCRUB_POS, elsewhere last says that it ends the walk. -/
  | scrubRead (b : Fin 13) (word : BitVec 23) (x : Upset) (last : Bool)
  /-- LEAK (R530): LEAK ms have passed for bucket b. -/
  | leak (b : Fin 13)
  /-- QMC_LINK_WINDOW (R527): a second ends. -/
  | qmcLinkWindow (q : Fin 2)
  /-- WRITE_RAW (R533): a host write of ECC_TEST_CMD with WRITE_RAW. -/
  | writeRaw (w : Word)
  /-- READ_RAW (R533): a host write of ECC_TEST_CMD with READ_RAW. -/
  | readRaw (w : Word)
  /-- QMC_RETRAIN (R539): a host write of QMC_CTL with RETRAIN. -/
  | qmcRetrain (q : Fin 2) (w : Word)
  /-- TRUSS_FLIT (R535): a flit of module m of line die p arrives at the hub, or at the line die; none: it is delivered in sequence. -/
  | trussFlit (p : Port) (toLine : Bool) (m : Fin 3) (bad : Option FlitFault)
  /-- TRUSS_LANE_WINDOW (R536): a second ends on a direction of module m: the parity errors of its worst lane, and of all its lanes. -/
  | trussLaneWindow (p : Port) (toLine : Bool) (m : Fin 3) (worst total : BitVec 32)
  /-- MOD_UP (R536): a retrain of module m ends; lanes now replaced in the lower and the upper half of the line-to-hub and hub-to-line directions, two bits each. -/
  | modUp (p : Port) (m : Fin 3) (ok : Bool) (hub line : BitVec 4)
  /-- TRS_RETRAIN (R538): a host write of TRS_CTL with RETRAIN, on the TRS page or on the TRSL page. -/
  | trsRetrain (p : Port) (onDie : Bool) (w : Word)
  /-- DMA_START (R550): a host write of DMA_CTLc with START. -/
  | dmaStart (c : Fin 8) (w : Word)
  /-- START_SHD (R555): a host write of DMA_CTLc with START_SHD. -/
  | startShd (c : Fin 8) (w : Word)
  /-- ABORT (R554): a host write of DMA_CTLc with ABORT. -/
  | abort (c : Fin 8) (w : Word)
  /-- DISARM (R559): a host write of DMA_CTLc with DISARM. -/
  | disarm (c : Fin 8) (w : Word)
  /-- SHD_ARM (R555): a host write of DMA_CTLc with SHD_ARM. -/
  | shdArm (c : Fin 8) (w : Word)
  /-- DMA_SET_WRITE (R556): a host write of word r (offset 4 × r) of the active or shadow set of channel c. -/
  | dmaSetWrite (c : Fin 8) (shadow : Bool) (r : Fin 11) (w : Word)
  /-- DMA_READ_COMPLETION (R551): the request a channel has out completes: a HOST source brings its bytes, or a PCIe error; x is what the successive words of a DEV source meet, e what a write to a REG destination meets, keep how many of the bytes read the write engine has not reached. -/
  | dmaReadCompletion (c : Fin 8) (host : Option (List Byte)) (x : List Upset) (e : HostEnv) (keep : BitVec 16)
  /-- DMA_RETRY (R552): 1 µs has passed since a bus error. -/
  | dmaRetry (c : Fin 8)
  /-- DMA_DRAIN_DONE (R554): the writes issued before an abort have completed. -/
  | dmaDrainDone (c : Fin 8)
  /-- DMA_READBACK_DONE (R553): the read-back completes: a HOST one without or with an error, a DEV one meeting x. -/
  | dmaReadbackDone (c : Fin 8) (hostOk : Bool) (x : Upset)
  /-- PERF_SEL_WRITE (R563): a host write of PERF_SELi. -/
  | perfSelWrite (idx : Fin 32) (w : Word)
  /-- PERF_SNAP (R564): a host write of PERFW_CMD with SNAP. -/
  | perfSnap (w : Word)
  /-- SNAP_DONE (R564): the snapshot being taken is complete. -/
  | snapDone
  /-- BW_LATCH (R565): a bandwidth window ends; the bits counted in and out of the clients, ports 0 to 31, and of PCIe. -/
  | bwLatch (bits : List (BitVec 64 × BitVec 64))
  /-- BW_WIN_WRITE (R569): a host write of PERFW_BW_CTL; the bits counted as for BW_LATCH and the hub clocks passed in the window it ends. -/
  | bwWinWrite (w : Word) (bits : List (BitVec 64 × BitVec 64)) (clocks : BitVec 32)
  /-- WRAP (R562): PERF_CNTi wraps. -/
  | wrap (idx : Fin 32)
  /-- DIP (R578): a dip of a core rail has ended; duration in 10 ns, depth in 0.1 %. -/
  | dip (rail : Fin 5) (dur : BitVec 32) (depth : BitVec 8)
  /-- LD_BROWN (R580): a rail of the line dies (0, 1, 3 or 5) reaches its reset level. -/
  | ldBrown (rail : Fin 9)
  /-- HUB_BROWN (R572): VDD_HUB (0), VDD_QDR (1) or VDD_IO (2) reaches its reset level. -/
  | hubBrown (which : Fin 3)
  /-- AVS_CHG (R574): the target the die computes, mV. -/
  | avsChg (p : Port) (target : BitVec 10)
  /-- THERM_WARN (R581): the eight die sensors as they read, 1/16 °C. -/
  | thermWarn (temps : List (BitVec 16))
  /-- THERM_CLEAR (R581): the eight die sensors as they read, 1/16 °C. -/
  | thermClear (temps : List (BitVec 16))
  /-- THERM_CRIT (R581): the eight die sensors as they read, 1/16 °C. -/
  | thermCrit (temps : List (BitVec 16))
  /-- ENTER (R583): a host write of PWR_BASCULE with ENTER. -/
  | enter (w : Word)
  /-- BASCULE_IN (R583): entry to Bascule reaches the gating of the line dies. -/
  | basculeIn
  /-- WAKE (R585): a host write of PWR_BASCULE with WAKE. -/
  | wake (w : Word)
  /-- WAKE_DONE (R585): the converters have settled after a wake; their temperatures by port × 4 + lane. -/
  | wakeDone (temps : List (BitVec 16))
  /-- OSC_IN_LOSS (R619): OSC_IN has been out of limits for 1 µs. -/
  | oscInLoss
  /-- SIG_DET (R288): a host lane receiver detects signal. -/
  | sigDet (l : Fin 32)
  /-- PCS_ALIGNMENT_LOCK (R293): the ingress PCS gains or loses alignment lock; the largest lane skew measured, ns. -/
  | pcsAlignmentLock (c : Fin 32) (lock : Bool) (skew : BitVec 8)
  /-- EGRESS_BLOCK (R296): a block leaves the joint: 0 data, 1 start, 2 terminate, 3 idle or other control, 4 error; the fill left, ns; adj: the slew rate allows an idle to be inserted or deleted; par: a FIFO word of it fails its parity. -/
  | egressBlock (c : Fin 32) (kind : Fin 5) (marked : Bool) (fill : BitVec 13) (adj par : Bool)
  /-- COMPLETION_TIMEOUT (R552): 50 µs have passed without the completion of a channel's HOST read. -/
  | completionTimeout (c : Fin 8)
  /-- RAIL_RECOVERY (R580): a rail that reached its reset level is back within its warning level. -/
  | railRecovery (rail : Fin 9)
  /-- SDS_BROWN (R572): VDD_SDS, or with hv VDD_SDS_1V2, reaches its reset level. -/
  | sdsBrown (hv : Bool)
  /-- PLL_UNLOCK (R593): a line-die or converter PLL loses lock. -/
  | pllUnlock (p : Port)
  /-- PPS_PULSE_END (R407): the 1PPS pulse has lasted WIDTH × 10 µs. -/
  | ppsPulseEnd
deriving DecidableEq, Repr

end Sys2Proof
end

