-- ==== Sys2Proof/Decode.lean ====
section
/-! DEFINITION.  The command a word spells by the table's bits.  spec/opcode_table.json gives no row of this block any bits:
its commands come from outside as register accesses, pin changes and protocol happenings, with their operands.  So no word
spells a command. -/

namespace Sys2Proof

/-- The command a word spells: none, since no row of the table has bits. -/
def decodeTableWord (_nbits _w : Nat) : Option Instr := none

end Sys2Proof
end

