-- ==== Sys2Proof/Config.lean ====
section
/-! DEFINITION.  What an implementation or the world fixes and the model leaves open: opaque constants, so that no proof
can rest on a value of them. -/

namespace Sys2Proof.Config

/-- The n-th free value: a value the spec leaves open, drawn by a step that then advances its counter. (DEDUCED: log 4) -/
opaque freeValue : Nat → Nat

/-- The sense of the rotations of the equaliser's BLIND seeds 1 and 2 (R139). -/
opaque seedTurn : Bool

/-- The centre taps of the equaliser's BLIND seed 3, by place: the spec gives no phases (R139). -/
opaque seedTap : Nat → Nat

/-- Whether a tap update that falls between two codes goes to the upper one: tap, gradient, step exponent (R138). -/
opaque tapRound : Int → Int → Nat → Nat

/-- The code of a tap whose update leaves the 10-bit format (R138). -/
opaque tapOver : Int → Nat

/-- The 5-tap fractional-delay filter of the de-interleave stage: the code of a sample from the skew residual of its slice, in 0.5 fs,
and the sample with its two neighbours on each side, in LSB as numerators and denominators.  The spec gives neither its taps nor a
rounding (R90). -/
opaque skewFilter : Int → List (Int × Int) → Int

/-- The taps of the timing interpolator, by phase and place (R162). -/
opaque interpTap : Nat → Nat → Int

/-- The filter of the timing loop: bandwidth in kHz, error, and what the loop integrates; how far the interpolators' instant moves, in
1/64 sample, and the integral after it (R162). -/
opaque timLoop : Nat → Int → Int → Int × Int

/-- The level control before the equaliser: a sample of a subcarrier in the unit of the extraction as one in 1/256 of the amplitude
unit.  The spec has none, and gives the demapper's levels (R161, R175). -/
opaque rxLevel : Int → Int

/-- The 5-tap fractional-delay filter of a transmit lane: the delay's fraction as numerator and denominator, and the samples
(R206). -/
opaque fracFilter : Int → Int → List Int → Int

/-- The state from which the PRBS of test pattern 1 starts a span, by K, subcarrier and polarisation (R211). -/
opaque patSeed : Nat → Nat → Nat → Nat

/-- Which of the two neighbouring magnitude codes a sum between two bins takes (R224). -/
opaque bpskTie : Nat → Nat

/-- The bits of the frame stream that fill the end of a span, by place (R222, R260). -/
opaque fillBit : Nat → Bool

/-- The coded-stream bits of fill between the last whole unit of a span and its end, by place (R222). -/
opaque tailBit : Nat → Bool

/-- The bits of the 257-bit unit that transcodes four idle blocks (IEEE 802.3, R316). -/
opaque idleUnit : Nat → Bool

/-- The negation of a 10-bit tap part of −512, for which the spec states no result. -/
opaque tapNeg : Nat

/-- Taps 1 to 11 from the centre, odd ones, of the halfband filter of the telemetry converter, in 2^-24; the innermost follows from the
DC gain: the spec gives no taps (R464). -/
opaque halfTap : Nat → Int

/-- Taps 1 to 63 of the ROM FIR of the telemetry converter, of minimum phase or linear phase, in 2^-24; the first follows from the DC
gain (R464). -/
opaque romTap : Bool → Nat → Int

/-! The algorithms the spec names by their standards.  Byte strings are lists of numbers below 256; results are numbers,
read as big-endian strings of the length the spec gives. -/

/-- SHAKE256 of a byte string, with the number of output bytes (FIPS 202). (DESIGN CHOICE: log 96) -/
opaque shake256 : List Nat → Nat → Nat

/-- The ML-DSA-65 public key of a 32-byte seed (FIPS 204). -/
opaque mldsaPk : Nat → Nat

/-- An ML-DSA-65 signature by a seed, with context string, over a message. -/
opaque mldsaSign : Nat → List Nat → List Nat → Nat

/-- ML-DSA-65 verification: public key, context, message, signature. -/
opaque mldsaVerify : List Nat → List Nat → List Nat → List Nat → Bool

/-- The ML-KEM-768 encapsulation key of this end's randomness (FIPS 203). -/
opaque kemEk : Nat → Nat

/-- ML-KEM-768 Encaps with randomness: ciphertext. -/
opaque kemCt : List Nat → Nat → Nat

/-- ML-KEM-768 Encaps with randomness: shared secret. -/
opaque kemSs : List Nat → Nat → Nat

/-- ML-KEM-768 Decaps with this end's randomness: shared secret. -/
opaque kemDecaps : Nat → List Nat → Nat

/-- AES-256-GCM encryption (SP 800-38D): key, IV, additional data, plaintext; ciphertext and tag. -/
opaque gcmSeal : Nat → Nat → List Nat → List Nat → Nat

/-- The counter-mode part of AES-256-GCM: key, IV, ciphertext; the plaintext, no tag checked. -/
opaque gcmCounter : Nat → Nat → List Nat → List Nat

/-- AES-256-GCM decryption: key, IV, additional data, ciphertext and tag; the plaintext when the tag verifies. -/
opaque gcmOpen : Nat → Nat → List Nat → List Nat → Option (List Nat)

/-- ID_SEED, burned at test (R349). (DESIGN CHOICE: log 97) -/
opaque idSeed : Nat

/-- The Yograuf firmware key, whose digest stands in ROM (R347, R350). -/
opaque fwKey : List Nat

/-- The digest of the Yograuf RMA key in ROM (R347). -/
opaque rmaKeyDigest : Nat

/-- Where in hub SRAM a pushed image stands, in 8-byte words (R353). -/
opaque pushPlace : Nat

/-- The stage 0 version in ROM, which the spec does not give (R630). -/
opaque stage0Version : Nat

/-- The enhanced SSM code sent for a rank for which any code is accepted (R377, R380). -/
opaque anyEssm : Nat → Nat

/-- The alignment marker of a PCS lane of a client type, as 10-bit symbols (IEEE 802.3); the spec does not give them (R291). -/
opaque alignMarker : Nat → Nat → List Nat

end Sys2Proof.Config
end

