-- ==== Sys2Proof/Machine/State.lean ====
section
/-! DEFINITION.  The state of the block: plain data holding every register field, every
queue, buffer and table, the event machinery, and the commands waiting. -/

namespace Sys2Proof.Machine

/-- A sparse map: (key, value) pairs, keys strictly rising. -/
abbrev AMap (α : Type) := List (Nat × α)

/-- A sparse map of numbers in which an unlisted key reads 0. -/
abbrev FMap := AMap Nat

/-- A value per line port. -/
structure Two (α : Type) where
  a : α
  b : α
deriving DecidableEq, Repr, Inhabited

/-- The access types of R9; `rwst` and `rwsr` are RWS of the transmit and of the receive side,
`rwp` is RW reset only by PWRON_N, `cnt` a read-only 48-bit counter (R44). -/
inductive Acc where
  | ro | rw | rwst | rwsr | w1c | w1s | wo | cnt | ks | rwp
deriving DecidableEq, Repr, Inhabited

/-- A register field: offset, lowest bit, width, access, reset value, stride and length of its
array, and whether its reset value depends on the page or the element. -/
structure Fld where
  off : Nat
  lo : Nat
  width : Nat
  acc : Acc
  reset : Nat
  stride : Nat
  count : Nat
  special : Bool
deriving DecidableEq, Repr, Inhabited

/-- The register blocks of R41. -/
inductive Block where
  | sys | pwr | ksmb | mbx | evt | clk | tb | tlq | dma | qmc | ecc | trs | hgl | tcv | cal | map | scc
  | enc | keys | perfw | hln | cli | mgmt | pier
  | ldsys | adc | dac | cdc | mimo | nlc | crv | dmp | txs | fec | lfr | trsl | lcal | subc
deriving DecidableEq, Repr, Inhabited

/-- The event machinery of *Register pages, address map and events*.  Local sources are keyed
page × 64 + local number. -/
structure Evt where
  /-- sticky bits that are set (R45) -/
  sticky : FMap
  /-- sources unmasked; a source not listed is masked, the reset state (R42) -/
  unmasked : FMap
  /-- EVT_COUNT of each page, by page (R45) -/
  count : FMap
  /-- EVT_FIRST of each page, as its register word, by page (R45) -/
  first : FMap
  /-- route entry words by global source number (R47, R48) -/
  route : FMap
  /-- sources asserted at the end of the last cycle (R46) -/
  asserted : FMap
  /-- pending bits of the MSI-X vectors (R49) -/
  pba : FMap
  /-- MSI-X Enable of configuration space (R49) -/
  msixEn : Bool
  /-- the MSI-X Function Mask (R49) -/
  fmask : Bool
  /-- the event queue of each pier engine, oldest first, 16 deep (R495) -/
  evq : AMap (List Nat)
  /-- PIER_EVQ_OVF bits by engine (R496) -/
  evqOvf : FMap
  /-- PIER_EVQ_DROP by cluster (R496) -/
  evqDrop : FMap
deriving DecidableEq, Repr, Inhabited

/-- What leaves on a client: an error block, a block of the given kind as it came, idle, or one of the other replacement signals
(R294–R297). -/
inductive EgBlock where
  | error | idle | localFault | prbs31q | electricalIdle
  | block (kind : Nat)
deriving DecidableEq, Repr, Inhabited

/-- Something the device puts out during one command; the model's own record, cleared at each command. -/
inductive Output where
  /-- an MSI-X message: vector, address, data (R49) -/
  | msix (vec addr data : Nat)
  /-- the completion data of a host read; `none` is a PCIe completer abort (R34) -/
  | readData (value : Option Nat)
  /-- an SCC cell sent on a port (R255) -/
  | sccCell (p : Port) (bytes : List Nat)
  /-- an SCC message of channel 0 or 1 received whole (R257) -/
  | sccMessage (p : Port) (ch : Nat) (bytes : List Nat)
  /-- the 128 bits of each subcarrier's subframe header on X and on Y, first bit most significant (R245, R246, R251) -/
  | headers (p : Port) (words : List (Nat × Nat))
  /-- the codes with which the DAC of a lane converts the samples of a frame (R98, R207–R211) -/
  | lane (p : Port) (lane : Nat) (codes : List Int)
  /-- a FEC unit sent, its coded bits first bit most significant (R216) -/
  | unit (p : Port) (trestle : Bool) (bits : Nat)
  /-- fill sent from the end of a span's last whole unit to its end, so many coded bits (R222) -/
  | fill (p : Port) (n bits : Nat)
  /-- the overhead word and data count a deck carries for a client (R264) -/
  | deckOverhead (p : Port) (c : Nat) (word cn : Nat)
  /-- the data bytes of a received deck that the receive joint of a client takes, each with its mark (R266, R271, R273) -/
  | deckData (p : Port) (c : Nat) (bytes : List (Nat × Bool))
  /-- the bytes that have left the receive joint of a client, none for one of replacement signal (R272, R274) -/
  | jointData (p : Port) (c : Nat) (bytes : List (Option (Nat × Bool)))
  /-- a block or signal leaves on a client's lanes (R294–R297) -/
  | egress (c : Nat) (b : EgBlock)
  /-- what a host lane transmits, 0 nothing, 1 its client, 2 to 4 a pattern, 5 what it receives, inverted or not; and whether its
  receiver hears its own transmitter, inverted or not (R305) -/
  | laneSignal (l src : Nat) (txInv own rxInv : Bool)
  /-- the five transmit taps of a host lane in force, c(−3) to c(+1), 1/64 (R289) -/
  | laneTaps (l : Nat) (taps : List Int)
  /-- an encrypted block sent for a tributary: header, IV unless it is VOID without one, and the ciphertext and tag as a number, zero
  for VOID (R310, R312, R313) -/
  | encBlock (c : Nat) (header : Nat) (iv : Option Nat) (body : Nat)
  /-- the rest of a tributary's block in flight leaves as zero bytes with a zero tag (R338) -/
  | encZeros (c : Nat)
  /-- payload bytes of a received block leave toward the client side, cut through (R326, R328, R332) -/
  | encPlain (c : Nat) (bytes : List Nat)
  /-- the payload positions of a VOID block leave as error blocks within frames and as idle outside them (R332) -/
  | encVoid (c : Nat)
  /-- the control blocks of a failed block that lie outside frames leave as idle (R330) -/
  | encIdle (c : Nat)
  /-- the last byte of a held frame leaves, the FCS inverted and its terminate an error block, or unchanged (R330) -/
  | frameEnd (c : Nat) (inverted : Bool)
  /-- an access to the keystone range ends with a bus error: 0 a management core, 1 a pier engine, 2 a DMA channel, 3 a PCIe request
  (R348) -/
  | busError (agent : Nat)
  /-- the management cores start at an address of hub SRAM (R350) -/
  | coresStart (addr : Nat)
  /-- plaintext of a control-class record released to its consumer in the keystone (R334) -/
  | ctlPlain (p : Port) (cls : Nat) (bytes : List Nat)
  /-- what CLKOUT n drives from now on: so many Hz, one pulse a second (1), or low (0) (R394) -/
  | clkOut (n hz : Nat)
  /-- In FREE the output stands at OSC_IN nominal corrected by this known offset, 0.1 ppb (R391, R396). -/
  | freeTrim (trim : Int)
  /-- a launched frame leaves on a client, cut with an error block or whole (R303, R304, R410) -/
  | clientFrame (c : Nat) (bytes : List Nat) (cut : Bool)
  /-- the level of CLKOUT3 in 1PPS mode (R407) -/
  | pps (high : Bool)
  /-- a packet sent on a hanger port: header word and payload (R423–R426) -/
  | hangerTx (n : Nat) (header : Nat) (payload : List Nat)
  /-- the PAM-4 symbols of that packet (R421, R423, R425) -/
  | hangerSymbols (n : Nat) (symbols : List Int)
  /-- a pier engine's request ends: port, engine, result as in HGL_REQ_STAT, the companion's status, the words read (R432, R436) -/
  | pierReply (n engine result status : Nat) (words : List Nat)
  /-- the body of a packet accepted on a hanger port (R426) -/
  | hangerRx (n : Nat) (typ seq : Nat) (body : List Nat)
  /-- bytes written to host memory by bus mastering (R506–R509) -/
  | hostWrite (addr : Nat) (bytes : List Nat)
  /-- OSPI_RST_N is held low for so many µs more (R623) -/
  | ospiRst (us : Nat)
deriving DecidableEq, Repr, Inhabited

/-- An armed commit of a page: the target span and port captured at the arm, the sides taken, whether a side
was forced or is to be forced at the next frame boundary, and the transmit span boundaries counted since
the first side's take (R60–R70, R627, R636). -/
structure Commit where
  target : Nat
  port : Port
  tx : Bool
  rx : Bool
  forced : Bool
  force : Bool
  waits : Nat
deriving DecidableEq, Repr, Inhabited

/-- An ADC slice: its place in service, its counts, and its trim set, residuals and selections, with the load band and temperature
it was taken at (R89, R90, R103, R111).  `target` is the slice a stand-in serves for, 255 for none. -/
structure Slice where
  role : Nat
  pos : Nat
  target : Nat
  suspect : Bool
  stale : Bool
  retries : Nat
  ovr : Nat
  band : Nat
  temp : Int
  trim : Meas
  sel : Sel
deriving DecidableEq, Repr, Inhabited

/-- A sub-DAC: its trims and selections and flags, with the load band and temperature the trims were taken at (R97, R111, R116). -/
structure SubDac where
  trim : Meas
  sel : Sel
  suspect : Bool
  range : Bool
  stale : Bool
  retries : Nat
  band : Nat
  temp : Int
deriving DecidableEq, Repr, Inhabited

/-- A trim set found by an agreeing attempt: residuals, selections, the load band and temperature it was taken at, and whether a
trigger has marked it stale since (R102, R103, R111). -/
structure TrimSet where
  res : Meas
  sel : Sel
  band : Nat
  temp : Int
  stale : Bool
deriving DecidableEq, Repr, Inhabited

/-- The converters of a port: slices by lane × 256 + slice, the pass in progress, what waits, the sub-DACs by
lane × 16 + number, trims to apply at the next transmit frame boundary, and the raw capture (R86–R119). -/
structure ConvState where
  slices : AMap Slice
  /-- slices the pass has still to take, by key -/
  todo : List Nat
  /-- slices of the round without an outcome -/
  targets : List Nat
  /-- first measurements of attempts in progress -/
  meas : AMap Meas
  /-- trim sets found in this round, by slice, applied at its closing boundary (R103) -/
  news : AMap TrimSet
  /-- the pass requested: its cause and whether it is a priority pass -/
  wait : Option (Nat × Bool)
  /-- the cause of a priority pass that cuts the current one short, 0 for none -/
  prio : Nat
  subs : AMap SubDac
  /-- next sub-DAC of each lane in this pass, 16 when done -/
  dacNext : List Nat
  dacMeas : AMap Meas
  /-- sub-DACs whose new trims await a transmit frame boundary -/
  dacPend : AMap SubDac
  /-- raw capture buffer, byte by offset (R118) -/
  capBuf : FMap
  /-- the slices as they served before each swap since the capture started, oldest first (R115) -/
  capOld : List (AMap Slice)
  /-- predistortion words that writes have replaced during the transmit frame under way, with their old values, oldest first (R210) -/
  pdOld : List (List (Nat × Nat))
deriving DecidableEq, Repr, Inhabited

/-- Converters after PWRON_N. -/
def ConvState.reset : ConvState := ⟨[], [], [], [], [], none, 0, [], [16, 16, 16, 16], [], [], [], [], []⟩

/-- A dispersion search under way (R133): the candidates ahead in 1/16 ps/nm, the one under evaluation first; the coarse step in
ps/nm and the blocks per candidate it started with; blocks of the candidate gone by, its metric so far, and the candidates
evaluated in the coarse and in the fine phase with their metrics, in order. -/
structure Search where
  ahead : List Int
  step : Nat
  nblk : Nat
  blocks : Nat
  sum : Nat
  coarse : List (Int × Nat)
  fine : List (Int × Nat)
deriving DecidableEq, Repr, Inhabited

/-- The equaliser and carrier state of a port that is in no register (R137–R172). -/
structure EqState where
  /-- live taps: key s × 128 + 32 f + t, value RE + 65,536 × IM, 10-bit two's complement each (R137, R159) -/
  taps : FMap
  /-- delay trim of each subcarrier, T/2 (R163) -/
  trims : AMap Int
  /-- wrong pilot decisions of the last 256 pilots of each subcarrier, newest first (R171) -/
  pilotWin : AMap (List Bool)
  /-- the last 32 pilot phases by subcarrier × 2 + polarisation, newest first (R188) -/
  phases : AMap (List Nat)
  /-- entries of the triplet table that read with an uncorrectable error and count as zero until rewritten (R147) -/
  zeroed : FMap
  /-- the dispersion search under way (R133) -/
  srch : Option Search
  /-- the carried phase track at the last pilot, by subcarrier × 2 + polarisation, 2π/65,536 (R172) -/
  tracks : AMap Nat
  /-- slips whose 63 symbols are erased: frame, subcarrier × 2 + polarisation, and interval of the subframe (R172) -/
  slips : List (Nat × Nat × Nat)
  /-- the timing loop: how far its interpolator has moved, in 1/64 sample, and what the loop integrates (R162) -/
  tim : Int
  timInt : Int
deriving DecidableEq, Repr, Inhabited

/-- Equaliser and carrier state after reset. -/
def EqState.reset : EqState := ⟨[], [], [], [], [], none, [], [], 0, 0⟩

/-- A codeword buffer of the decoder (R226, R230): the inputs that have arrived, newest first while it fills and in order once
complete, each its 4-bit code plus 16 × (2 × subcarrier + polarisation) plus 256 for a sign bit; the profile, MAX_ITER and OFFSET
live when its first input arrived (R236, R241); its place in its group; the receive frame in which it began; on the first
codeword of a span, that it is the first and the K, E × 256 of the span; FLOOR when its first input arrived (R228, R229); its
place in the order of arrival; the iterations it has been given, and those after which it needs no more; and its place in the
order in which the cores serve (R228). -/
structure Codeword where
  cells : List Nat
  trestle : Bool
  maxIter : Nat
  offset : Nat
  word : Nat
  frame : Nat
  first : Bool
  k : Nat
  e : Nat
  floor : Nat
  arr : Nat
  iters : Nat
  need : Nat
  stamp : Nat
deriving DecidableEq, Repr, Inhabited

/-- The decoded frame stream of a span from which decks are still to be taken: its bits, first bit most significant; their number; the
marks of its pieces, each a length and whether it is marked (R232); the decks taken; the state of the descrambler (R260); and
profile, K and E × 256 of the span. -/
structure Seg where
  bits : Nat
  len : Nat
  marks : List (Nat × Bool)
  decks : Nat
  scr : Nat
  trestle : Bool
  k : Nat
  e : Nat
deriving DecidableEq, Repr, Inhabited

/-- The bit layer of a port.  Receive: the codeword that fills, the pool of complete ones, the coded bits of the span that have come,
the inner codewords of the group whose release is under way, Trestle words held back (R237), the decoded spans, and the LLR
counts of the monitor window by compressed value, in all and clamped (R187).  Transmit: the frame stream awaiting a unit, first
bit most significant, and its length, the units of the span sent, the state of the scrambler (R260), codewords since the last
one injected into (R240), and the parity of the decks of a frame, sent and received (R253). -/
structure FecState where
  fill : Option Codeword
  pool : List Codeword
  rxAt : Nat
  /-- arrivals and visits so far: the next place in the order of service (R228) -/
  turn : Nat
  words : List (Codeword × List Bool)
  held : List (Codeword × List Bool × Bool)
  segs : List Seg
  hist : FMap
  l6 : Nat
  clamped : Nat
  txBits : Nat
  txLen : Nat
  txUnits : Nat
  txScr : Nat
  injAt : Option Nat
  txBips : FMap
  rxBips : FMap
deriving DecidableEq, Repr, Inhabited

/-- The scrambler's state at the start of a span (R260). -/
def scrSeed : Nat := 2 ^ 23 - 1

/-- The bit layer after reset. -/
def FecState.reset : FecState := ⟨none, [], 0, 0, [], [], [], [], 0, 0, 0, 0, 0, scrSeed, none, [], []⟩

/-- The transmit mapper of a client: the count of the deck before, the count announced for position 66, parity of the
deck before, a restart awaiting position 66, the slots lost to the other port, the trail trace in transmission, the bytes in
the transmit expansion joint, oldest first, and the bits of the mapped stream short of a byte (R264–R269, R272, R276, R277, R285). -/
structure MapTx where
  cn : Nat
  ahead : Option Nat
  bip : Nat
  restart : Bool
  off : Bool
  tti : List Nat
  joint : List Nat
  part : List Bool
deriving DecidableEq, Repr, Inhabited

/-- The receive demapper of a client: tracked count, high byte of an announced count, parity of the deck before,
mismatches to return, consecutive invalid codes, trail trace under way, the last complete one and how often it came in
a row, the bytes in the receive expansion joint, oldest first, each with its mark, none for one of replacement signal, and what
recentred the joint since its fill last changed, 1 RECENTRE, 2 an underflow (R265–R274, R304). -/
structure MapRx where
  cn : Nat
  hi : Option Nat
  bip : Option Nat
  bei : Nat
  bad : Nat
  tti : List Nat
  prev : List Nat
  run : Nat
  joint : List (Option (Nat × Bool))
  centred : Nat
deriving DecidableEq, Repr, Inhabited

/-- The mapper of a port: clients, deck indices within the span, the span target of the last transmit slot-table take,
the received BIP-16 values held until their decks are decoded, each with the frame it covers, and the slots and clients of the
receive table by which decks are demapped (R253, R269, R277). -/
structure MapState where
  tx : AMap MapTx
  rx : AMap MapRx
  txDeck : Nat
  rxDeck : Nat
  takeAt : Option Nat
  bips : List (Nat × Nat)
  rxTab : List (Nat × Nat)
deriving DecidableEq, Repr, Inhabited

/-- A mapper after reset. -/
def MapState.reset : MapState := ⟨[], [], 0, 0, none, [], []⟩

/-- A message being sent on the SCC: the bytes still to go, whether its FIRST cell has gone (R255), and the timed launch
entry it belongs to, plus 1, 0 for none (R410). -/
structure TxMsg where
  bytes : List Nat
  opened : Bool
  entry : Nat
deriving DecidableEq, Repr, Inhabited

/-- Reassembly of one receive channel: an open message, its bytes and the CSEQ expected next (R258). -/
structure RxAsm where
  opened : Bool
  bytes : List Nat
  seq : Nat
deriving DecidableEq, Repr, Inhabited

/-- The reply given to a change notice: its target and tag, and the NACK reason, 0 for CN_ACK (R77). -/
structure CnReply where
  target : Nat
  tag : Nat
  reason : Nat
deriving DecidableEq, Repr, Inhabited

/-- The span control channel of a port: transmit queues of channels 0 to 2, reassembly of the receive
channels, the queue of host messages (at most 8), and the change-notice exchange (R74–R78, R255–R259). -/
structure SccState where
  /-- channel 0 messages waiting, oldest first -/
  tx0 : List (List Nat)
  /-- channel 1 messages waiting or in progress, oldest first -/
  tx1 : List TxMsg
  /-- channel 2 messages, the one in progress first: a host message and timed launches (R282, R410) -/
  tx2 : List TxMsg
  /-- the last of channels 1 and 2 to fill a cell (R256) -/
  last : Nat
  /-- the next CSEQ of channels 0, 1 and 2 -/
  cseq0 : Nat
  cseq1 : Nat
  cseq2 : Nat
  rx0 : RxAsm
  rx1 : RxAsm
  rx2 : RxAsm
  /-- consecutive cells passing and failing their CRC (R259) -/
  good : Nat
  bad : Nat
  /-- host messages received, oldest first -/
  rxq : List (List Nat)
  /-- the outstanding proposal: target, class, tag, and sends so far (R74) -/
  cnTarget : Nat
  cnClass : Nat
  cnTag : Nat
  cnSends : Nat
  /-- replies given, by sequence number (R77) -/
  answered : AMap CnReply
  /-- the cell being sent, of which each frame carries five bytes (R251, R255) -/
  cell : List Nat
deriving DecidableEq, Repr, Inhabited

/-- The SCC of a port after reset. -/
def SccState.reset : SccState :=
  ⟨[], [], [], 2, 0, 0, 0, ⟨false, [], 0⟩, ⟨false, [], 0⟩, ⟨false, [], 0⟩, 0, 0, [], 0, 0, 0, 0, [], []⟩

/-- The transmit sequence of a tributary: span index and counter of the next block, whether the sequence is fresh, the
HELD reasons IVG, CAP and SCC, the slot and generation latched by the block in flight, its block size in bytes (R311), the bits
of an idle unit that the next block still owes, slot, generation and size that the next block has latched, the slot of its span, and slot and generation under which blocks of this
span have been sent (R311, R315–R317, R323, R336, R341). -/
structure EncTx where
  span : Nat
  ctr : Nat
  fresh : Bool
  ivg : Bool
  cap : Bool
  scc : Bool
  latch : Option (Nat × Nat)
  size : Nat
  owed : Nat
  next : Option (Nat × Nat)
  nsize : Nat
  nslot : Nat
  run : Option (Nat × Nat)
deriving DecidableEq, Repr, Inhabited

/-- The receive side of a tributary: span index and counter of the last block, the header before (NS, SPAN, CTR), the
consistent headers of CHECK, consecutive bad headers, the HELD reasons CAP and SCC, replacement after an erase and
after FAIL_REPL failures, verified blocks in a row, the latched slot and generation, the last verified block of each key by slot ×
65,536 + generation as span and counter, slot, generation and size of the next block, with the size of this one, the slot of its
span, whether an erase has terminated the next block, and for each of the last blocks, newest first, whether it has verified (R311,
R319–R321, R329, R330, R338). -/
structure EncRx where
  span : Nat
  ctr : Nat
  ns : Bool
  sp : Nat
  ct : Nat
  seen : Nat
  bad : Nat
  cap : Bool
  scc : Bool
  erased : Bool
  frepl : Bool
  pass : Nat
  latch : Option (Nat × Nat)
  last : AMap (Nat × Nat)
  next : Option (Nat × Nat)
  size : Nat
  nsize : Nat
  nslot : Nat
  term : Bool
  oks : List Bool
deriving DecidableEq, Repr, Inhabited

/-- A failure log entry (R328, R343). -/
structure EncLog where
  trib : Nat
  kind : Nat
  span : Nat
  ctr : Nat
deriving DecidableEq, Repr, Inhabited

/-- Line encryption (R309–R346): tributaries, IV records by tributary, slot and generation, the failure log, the
disagreement times of pipelines by direction × 64 + pair, the key pairs the slots hold, and the clock of the last erase of a slot. -/
structure EncState where
  tx : AMap EncTx
  rx : AMap EncRx
  ivRec : AMap Nat
  log : List EncLog
  hits : AMap (List Nat)
  keys : AMap (Nat × Nat)
  erasedAt : AMap Nat
deriving DecidableEq, Repr, Inhabited

/-- A key-agreement session of a port: its 64-byte secret, the role here, the record counters of the control keys, and
the highest epoch installed for each tributary (R363–R368). -/
structure KsSession where
  secret : Nat
  initiator : Bool
  txCtr : Nat
  rxLast : Nat
  epochs : AMap Nat
deriving DecidableEq, Repr, Inhabited

/-- An exchange in progress: the role, the KSMB_KA state code, the session number, this end's ML-KEM randomness, the
messages, the secret once derived, and the KA_INIT sends so far (R363–R367). -/
structure KsExch where
  initiator : Bool
  phase : Nat
  session : Nat
  rand : Nat
  initMsg : List Nat
  respMsg : List Nat
  secret : Nat
  sends : Nat
deriving DecidableEq, Repr, Inhabited

/-- An anchor list: port, version, this device's identity digest and peer digests (R364). -/
structure KsAnchors where
  port : Nat
  version : Nat
  ident : Nat
  peers : List Nat
deriving DecidableEq, Repr, Inhabited

/-- A hanger session of the keystone: the two direction keys, and the secure command counters (R441, R442). -/
structure KsHanger where
  txKey : Nat
  rxKey : Nat
  txCtr : Nat
  rxLast : Nat
deriving DecidableEq, Repr, Inhabited

/-- A hanger key exchange in progress: 1 awaiting KX_EK, 2 awaiting KX_FIN; the KX_REQ message, the fragments held of the
message awaited, and the secret once derived (R442). -/
structure KsHgExch where
  phase : Nat
  req : List Nat
  frags : AMap (List Nat)
  secret : Nat
deriving DecidableEq, Repr, Inhabited

/-- An image as the keystone has read it: header, body and signature (R351). -/
structure KsImage where
  header : List Nat
  body : List Nat
  sig : List Nat
deriving DecidableEq, Repr, Inhabited

/-- The private state of the keystone (R347–R373): OTP fields, measurements, mailbox buffers and the result that waits
for completion, sessions, exchanges, anchor lists, the debug challenge and what opened it. -/
structure Keystone where
  /-- OWNER_HASH, 0 while unowned -/
  owner : Nat
  /-- the certificate chain accepted at boot (R355) -/
  certs : Option (List Nat)
  /-- SHAKE256-512 digests of the runtime image and of the patch, and the patch version (R350, R352) -/
  runtime : Nat
  patch : Option (Nat × Nat)
  /-- request buffer by byte; response -/
  req : FMap
  rsp : List Nat
  /-- the result and response that the running request completes with -/
  result : Option (Nat × List Nat)
  /-- PERST_N came while a host request ran (R357) -/
  perst : Bool
  sessions : AMap KsSession
  exch : AMap KsExch
  anchors : AMap KsAnchors
  hangers : AMap KsHanger
  hgExch : AMap KsHgExch
  /-- pinned companion key digests by hanger port (R442) -/
  pins : AMap Nat
  /-- quotes since PWRON_N -/
  quotes : Nat
  /-- challenge value and scope -/
  challenge : Option (Nat × Nat)
  /-- a debug unlock happened since PWRON_N -/
  opened : Bool
  /-- TAMPER_ACK written, and the zeroise condition absent for 1 s (R371) -/
  acked : Bool
  absent : Bool
  /-- monitors whose warning lasts (R371) -/
  warn : List Nat
  /-- the image loaded and not yet verified; where the management cores start (R350) -/
  image : Option KsImage
  entry : Nat
  /-- the patch area by byte, and where in it the running patch starts (R347, R352) -/
  patchMem : FMap
  patchEntry : Nat
deriving DecidableEq, Repr, Inhabited

/-- The keystone of a part whose OTP is as delivered. -/
def Keystone.reset : Keystone :=
  ⟨0, none, 0, none, [], [], none, false, [], [], [], [], [], [], 0, none, false, false, false, [], none, 0, [], 0⟩


/-- The span-boundary captures of a port, time base values in 2^-16 ns by full span index: t1 local transmit, t4 local
receive, t3 the far end's transmit, t2 the far end's receive; the latest receive boundary captured since the receive
counter became valid, and the spans whose set has been written (R404–R406). -/
structure TimeLink where
  t1 : AMap Nat
  t2 : AMap Nat
  t3 : AMap Nat
  t4 : AMap Nat
  rxCap : Option Nat
  sets : List Nat
deriving DecidableEq, Repr, Inhabited

/-- The snapshot of an enqueue (R409). -/
structure TlqReq where
  addr : Nat
  len : Nat
  scc : Bool
  num : Nat
  onestep : Bool
  tb : Nat
  target : Nat
  tag : Nat
deriving DecidableEq, Repr, Inhabited

/-- An entry of the timed launch queue: its index, what was asked for, its frame, the time base value at its launch
instant once the launch has started, whether its frame was cut with an error block, and whether one of its egress blocks was
marked (R304, R409–R414). -/
structure TlqEntry where
  idx : Nat
  req : TlqReq
  frame : List (BitVec 8)
  launched : Option Nat
  cut : Bool
  bad : Bool
deriving DecidableEq, Repr, Inhabited

/-- A reliable hanger packet that waits: type, body, place in the order of R432, and whose it is: 0 the keystone, 1 the host
request, 2 the identity read, 3 + h the timed command of handle h, 19 a pier engine's request; and the tag of the request it carries. -/
structure HgPkt where
  typ : Nat
  body : List Nat
  prio : Nat
  origin : Nat
  tag : Nat
deriving DecidableEq, Repr, Inhabited

/-- The reliable packet not yet acknowledged: its SEQ, the sends so far, and whether a resend waits (R430). -/
structure HgRel where
  pkt : HgPkt
  seq : Nat
  sends : Nat
  due : Bool
deriving DecidableEq, Repr, Inhabited

/-- A request outstanding: its tag, whether it went as an SREQ, whether it reads, how many words, and the pier engine that made it,
none for the host (R432, R436, R441). -/
structure HgReq where
  tag : Nat
  secure : Bool
  read : Bool
  count : Nat
  eng : Option Nat
deriving DecidableEq, Repr, Inhabited

/-- A timed command: its target, lead in 100 ns, and whether its trigger has been sent (R438, R439). -/
structure HgTimed where
  span : Nat
  frame : Nat
  port : Port
  rxCnt : Bool
  lead : Nat
  fired : Bool
deriving DecidableEq, Repr, Inhabited

/-- An echo canceller: its taps in 2^-30, none for all zero, the newest symbols sent, newest first, the updates not yet applied, oldest
first, each a residual and the symbols it rests on, and the residual power summed over the symbols sent so far (R422). -/
structure HgEcho where
  taps : List Int
  sent : List Int
  late : List (Int × List Int)
  count : Nat
  power : Nat
deriving DecidableEq, Repr, Inhabited

/-- A canceller of zero taps. -/
def HgEcho.reset : HgEcho := ⟨[], [], [], 0, 0⟩

/-- A hanger port: packets waiting, the unacknowledged one, the next SEQ, the acknowledgement owed, the last SEQ received
and the last reliable one, the reception (0 none, 1 header awaited, 2 packet), its header and the power of its correlation peak, the
requests outstanding, oldest first, the tag of the identity read, timed commands by handle, a trigger reservation, and the echo
canceller (R422, R428–R440). -/
structure HgState where
  queue : List HgPkt
  rel : Option HgRel
  seq : Nat
  ackDue : Option Nat
  rxRef : Option Nat
  lastRel : Option Nat
  rx : Nat
  rxHdr : Nat
  peak : Nat
  reqs : List HgReq
  idTag : Option Nat
  timed : AMap HgTimed
  resv : Bool
  echo : HgEcho
deriving DecidableEq, Repr, Inhabited

/-- A hanger port in OFF. -/
def HgState.reset : HgState := ⟨[], none, 0, none, none, none, 0, 0, 0, [], none, [], false, HgEcho.reset⟩

/-- The host's request outstanding (R436). -/
def HgState.host (h : HgState) : Option HgReq := h.reqs.find? (·.eng.isNone)

/-- A scan entry or injection with the profile and coefficients it sampled (R456). -/
structure TcvSample where
  ch : Nat
  prof : Nat
  rep : Nat
  delay : Nat
  dec : Nat
  hb : Nat
  fir : Nat
  dcb : Bool
  frz : Bool
  scs : Bool
  k : Nat
  shSinc : Nat
  shHb1 : Nat
  shHb2 : Nat
  shFir : Nat
  shDcb : Nat
  coef : List Int
deriving DecidableEq, Repr, Inhabited

/-- A stage of the decimation chain: the inputs it has taken since its flush, and the newest of them, newest first (R464). -/
structure TcvStage where
  n : Nat
  buf : List Int
deriving DecidableEq, Repr, Inhabited

/-- The stages of the decimation chain (R464). -/
structure TcvChain where
  sinc : TcvStage
  hb1 : TcvStage
  hb2 : TcvStage
  fir : TcvStage
deriving DecidableEq, Repr, Inhabited

/-- The chain flushed (R455, R465). -/
def TcvChain.reset : TcvChain := ⟨⟨0, []⟩, ⟨0, []⟩, ⟨0, []⟩, ⟨0, []⟩⟩

/-- The chain after some modulator samples: its state, the saturations of each stage, and the output in 1/64 LSB once one is out. -/
structure TcvFed where
  chain : TcvChain
  sinc : Nat
  hb1 : Nat
  hb2 : Nat
  fir : Nat
  out : Option Int
deriving DecidableEq, Repr, Inhabited

/-- The telemetry converter (R452–R466): the scan's phase (0 stopped, 1 settling, 2 converting, 3 in a delay, 4 entry
`next` is to start), the injection's (0 none, 1 settling, 2 converting), the calibration's (0 none, 1 waiting, 2 running)
and whether CAL asked for it; samples, results still to come, DC-block states in 2^-24 of 1/64 LSB, channel and profile last
sampled by entry, results since an overrange plus 1, the queue, oldest first, the decimation chain, and the overrange and the supply dip
that the result in progress has met, and whether a conversion of CAL's waits for an idle moment (R477). -/
structure TcvState where
  phase : Nat
  inj : Nat
  cal : Nat
  calOwn : Bool
  next : Nat
  cur : Option TcvSample
  injCur : Option TcvSample
  left : Nat
  dc : AMap Int
  seen : AMap Nat
  since : Nat
  queue : List Nat
  chain : TcvChain
  ovrRun : Option Bool
  dip : Bool
  calConv : Bool
deriving DecidableEq, Repr, Inhabited

/-- The telemetry converter after reset. -/
def TcvState.reset : TcvState := ⟨0, 0, 0, false, 0, none, none, 0, [], [], 0, [], TcvChain.reset, none, false, false⟩

/-- A hanger hybrid calibration under way: attempts failed, the first measurement of the current setting, and the sums of
the two measurements of the settings done, 0.1 dBFS (R478). -/
structure HgCal where
  fails : Nat
  first : Option Int
  sums : List Int
deriving DecidableEq, Repr, Inhabited

/-- The issue slots of a pier engine: cycles in RUN, and the four classes (R566). -/
structure TdCount where
  cycles : Nat
  retired : Nat
  wasted : Nat
  front : Nat
  back : Nat
deriving DecidableEq, Repr, Inhabited


/-- An entry of the recipe directory: ID, version, and the digest of its code half (R497). -/
structure Recipe where
  id : Nat
  version : Nat
  digest : Nat
deriving DecidableEq, Repr, Inhabited

/-- A notification to be written: TYPE, bytes 4–5, RESULT, and its data bytes (R505). -/
structure Ntf where
  typ : Nat
  ref : Nat
  result : Nat
  data : List Nat
deriving DecidableEq, Repr, Inhabited

/-- A consumed ring command: SEQ, OPCODE, payload, the result of one that is not executed, and whether a LOOP_START waits for
its check (R501–R504). -/
structure RingCmd where
  seq : Nat
  op : Nat
  payload : List Nat
  preset : Option Nat
  started : Bool
deriving DecidableEq, Repr, Inhabited

/-- The management complex: engines whose code half waits for the recipe checker, the one being hashed first; the recipe
directory; consumed commands, oldest first; notifications not yet written, oldest first; the groups that NTF_EVENTS
selected; notifications discarded since the last OVERFLOW; the transfer that waits for its retry (0 none, 1 command fetch,
2 notification entry, 3 head block); the buffer address of a RESYNC under way; whether an NTF event is held by COALESCE and
the hub clock from which the next may come (R497–R515). -/
structure MgmtState where
  checks : List Nat
  recipes : List Recipe
  cmds : List RingCmd
  ntf : List Ntf
  groups : Nat
  lost : Nat
  retry : Nat
  resync : Option Nat
  ntfHeld : Bool
  ntfNext : Nat
deriving DecidableEq, Repr, Inhabited

/-- The management complex after reset. -/
def MgmtState.reset : MgmtState := ⟨[], [], [], [], 0, 0, 0, none, false, 0⟩


/-- An entry of a merge buffer: controller (0 hub SRAM, 1 QMC0, 2 QMC1), word, valid bytes, data, and the requester of its
latest write (R525). -/
structure MergeEntry where
  ctrl : Nat
  word : Nat
  mask : Nat
  data : Nat
  req : Nat
deriving DecidableEq, Repr, Inhabited




/-- Everything the spec gives the block, but the queue of waiting commands. -/
structure Dev where
  /-- live register fields, each as its difference from its reset value (R9) -/
  regs : FMap
  /-- pending values of staged fields, likewise (R9, R10) -/
  pend : FMap
  /-- the event machinery -/
  evt : Evt
  /-- captured HI words, by page × 4096 + offset of the HI word (R8, R400) -/
  hiCap : AMap Nat
  /-- armed commits by page (R60) -/
  commits : AMap Commit
  /-- the converters of each port -/
  conv : Two ConvState
  /-- equaliser and carrier state of each port -/
  eq : Two EqState
  /-- device memories behind BAR2: bytes by internal address (`memBase`), unlisted bytes zero (R33, R521) -/
  mem : List Host.Cell
  /-- the bit layer of each port: codeword buffers, decoded and sent frame stream (R222–R242, R260) -/
  fec : Two FecState
  /-- the mapper of each port -/
  map : Two MapState
  /-- the SCC of each port -/
  scc : Two SccState
  /-- line encryption and the key slots -/
  enc : EncState
  /-- hub datapath clocks since the last power-on -/
  ticks : Nat
  /-- the keystone -/
  ks : Keystone
  /-- mean DPLL frequency of the kept LOCK windows, newest first, 0.1 ppb (R393) -/
  clkHist : List Int
  /-- the time bases by number, in units of 2^-16 ns / (45 × 10^12), so that a hub clock is exact (R399) -/
  tb : FMap
  /-- time across each line -/
  link : Two TimeLink
  /-- the timed launch queue, in order of enqueue, at most 128 (R409) -/
  tlq : List TlqEntry
  /-- the enqueue in progress (R409) -/
  tlqEnq : Option TlqReq
  /-- the hanger ports; one not listed is as after reset -/
  hg : AMap HgState
  /-- the telemetry converter -/
  tcv : TcvState
  /-- hanger calibrations under way, by port (R478) -/
  hgCal : AMap HgCal
  /-- top-down counters by engine (R566) -/
  td : AMap TdCount
  /-- their snapshot (R564) -/
  tdSnap : AMap TdCount
  /-- the management complex and the rings -/
  mgmt : MgmtState
  /-- syndromes of stored words, by internal byte address ÷ 8; a word not listed is clean (R524) -/
  syn : FMap
  /-- the merge buffers, oldest entry first, at most 8 of a controller (R525) -/
  merge : List MergeEntry
  /-- bytes of each DMA channel in the staging buffer, read and not yet written (R551) -/
  dmaBuf : AMap (List (BitVec 8))
  /-- OSC_IN has stopped since the last RST_N or PWRON_N: outside the keystone the state is unspecified (R619) -/
  lost : Bool
  /-- occurrences of the current cycle, empty between commands (R52) -/
  occ : List Nat
  /-- what the last command put out; the model's own record -/
  out : List Output
  /-- the counter of free values; the model's own -/
  freeCtr : Nat
deriving DecidableEq, Repr, Inhabited

/-- The state of the block: the device, and the commands that wait, first in, first out. -/
structure State where
  dev : Dev
  pending : List Instr
deriving DecidableEq, Repr, Inhabited

/-- Why the machine stops with a fault.  No meaning raises one: every command of the table has an effect in
every state (safe). -/
inductive Fault where
  /-- kept for the host's interface; raised by nothing (safe) -/
  | none
deriving DecidableEq, Repr, Inhabited

/-- Why a command is refused. -/
inductive Refusal where
  /-- the dispatch of a command that has no meaning yet raises it (safe); with the whole table modelled nothing does -/
  | notModelled (mnemonic : String)
deriving DecidableEq, Repr, Inhabited

/-- The device right after the release of PWRON_N (R575, R577): every register at its reset value, memories at
zero, every queue empty. -/
def Dev.reset : Dev where
  regs := []
  pend := []
  evt := ⟨[], [], [], [], [], [], [], false, false, [], [], []⟩
  hiCap := []
  commits := []
  conv := ⟨ConvState.reset, ConvState.reset⟩
  eq := ⟨EqState.reset, EqState.reset⟩
  mem := []
  fec := ⟨FecState.reset, FecState.reset⟩
  map := ⟨MapState.reset, MapState.reset⟩
  scc := ⟨SccState.reset, SccState.reset⟩
  enc := ⟨[], [], [], [], [], [], []⟩
  ticks := 0
  ks := Keystone.reset
  clkHist := []
  tb := []
  link := ⟨⟨[], [], [], [], none, []⟩, ⟨[], [], [], [], none, []⟩⟩
  tlq := []
  tlqEnq := none
  hg := []
  tcv := TcvState.reset
  hgCal := []
  td := []
  tdSnap := []
  mgmt := MgmtState.reset
  syn := []
  merge := []
  dmaBuf := []
  lost := false
  occ := []
  out := []
  freeCtr := 0

/-- The machine right after reset, with no command waiting. -/
def State.reset : State := ⟨Dev.reset, []⟩

end Sys2Proof.Machine
end

