-- ==== Sys2Proof/Machine/Regs.lean ====
section
/-! DEFINITION.  The register map: one constant per field of every register page, with its
offset, lowest bit, width, access type, reset value, array stride and array length, as the
register tables of the spec give them (the rule of each block's table is named at its section).
A field of an array register names element 0; `Fld.at` gives the others. -/

namespace Sys2Proof.Machine

/-- Element `i` of an array register. -/
def Fld.at (f : Fld) (i : Nat) : Fld := { f with off := f.off + f.stride * i, count := 1 }


/-! Block COMMON: R42, R71. -/
def COMMON.ID_LAYOUT : Fld := ⟨0x0, 0, 8, .ro, 1, 4, 1, false⟩
def COMMON.ID_INST : Fld := ⟨0x0, 8, 8, .ro, 0, 4, 1, false⟩
def COMMON.ID_TYPE : Fld := ⟨0x0, 16, 16, .ro, 0, 4, 1, false⟩
def COMMON.STEP : Fld := ⟨0x4, 0, 32, .ro, 16896, 4, 1, false⟩
def COMMON.CAP_FIRST_SRC : Fld := ⟨0x8, 0, 11, .ro, 0, 4, 1, false⟩
def COMMON.CAP_NSRC : Fld := ⟨0x8, 12, 7, .ro, 0, 4, 1, false⟩
def COMMON.CAP_STAGED : Fld := ⟨0x8, 20, 1, .ro, 0, 4, 1, false⟩
def COMMON.CAP_TABLES : Fld := ⟨0x8, 21, 1, .ro, 0, 4, 1, false⟩
def COMMON.CAP_COUNTERS : Fld := ⟨0x8, 22, 1, .ro, 0, 4, 1, false⟩
def COMMON.CAP_KSF : Fld := ⟨0x8, 23, 1, .ro, 0, 4, 1, false⟩
def COMMON.CTL_SOFT_RST : Fld := ⟨0x10, 31, 1, .wo, 0, 4, 1, false⟩
def COMMON.COMMIT_LO_TARGET_LO : Fld := ⟨0x18, 0, 32, .rw, 0, 4, 1, false⟩
def COMMON.COMMIT_HI_TARGET_HI : Fld := ⟨0x1C, 0, 16, .rw, 0, 4, 1, false⟩
def COMMON.COMMIT_HI_PORT : Fld := ⟨0x1C, 16, 1, .rw, 0, 4, 1, true⟩
def COMMON.COMMIT_HI_ARM : Fld := ⟨0x1C, 31, 1, .w1s, 0, 4, 1, false⟩
def COMMON.COMMIT_STAT_STATE : Fld := ⟨0x20, 0, 3, .ro, 0, 4, 1, false⟩
def COMMON.COMMIT_STAT_RESULT : Fld := ⟨0x20, 4, 4, .ro, 0, 4, 1, false⟩
def COMMON.COMMIT_STAT_TX_TAKEN : Fld := ⟨0x20, 8, 1, .ro, 0, 4, 1, false⟩
def COMMON.COMMIT_STAT_RX_TAKEN : Fld := ⟨0x20, 9, 1, .ro, 0, 4, 1, false⟩
def COMMON.COMMIT_STAT_RX_FORCED : Fld := ⟨0x20, 10, 1, .ro, 0, 4, 1, false⟩
def COMMON.COMMIT_STAT_REPLACED : Fld := ⟨0x20, 11, 1, .ro, 0, 4, 1, false⟩
def COMMON.COMMIT_STAT_WR_DROP : Fld := ⟨0x20, 12, 1, .ro, 0, 4, 1, false⟩
def COMMON.COMMIT_STAT_HAS_RX : Fld := ⟨0x20, 13, 1, .ro, 0, 4, 1, false⟩
def COMMON.COMMIT_STAT_HAS_TX : Fld := ⟨0x20, 14, 1, .ro, 0, 4, 1, false⟩
def COMMON.STATUS_EVT_ANY : Fld := ⟨0x30, 29, 1, .ro, 0, 4, 1, false⟩
def COMMON.STATUS_ARMED : Fld := ⟨0x30, 30, 1, .ro, 0, 4, 1, false⟩
def COMMON.STATUS_PEND_DIRTY : Fld := ⟨0x30, 31, 1, .ro, 0, 4, 1, false⟩
def COMMON.EVT_STICKY_STICKY : Fld := ⟨0x40, 0, 32, .w1c, 0, 4, 4, false⟩
def COMMON.EVT_MASK_MASK : Fld := ⟨0x50, 0, 32, .rw, 4294967295, 4, 4, false⟩
def COMMON.EVT_FORCE_FORCE : Fld := ⟨0x60, 0, 32, .wo, 0, 4, 4, false⟩
def COMMON.EVT_FIRST_LOCAL : Fld := ⟨0x70, 0, 6, .ro, 0, 4, 1, false⟩
def COMMON.EVT_FIRST_MULTI : Fld := ⟨0x70, 8, 1, .ro, 0, 4, 1, false⟩
def COMMON.EVT_FIRST_VALID : Fld := ⟨0x70, 31, 1, .w1c, 0, 4, 1, false⟩
def COMMON.EVT_COUNT_COUNT : Fld := ⟨0x74, 0, 32, .rw, 0, 4, 1, false⟩
def COMMON.table : List Fld := [COMMON.ID_LAYOUT, COMMON.ID_INST, COMMON.ID_TYPE, COMMON.STEP, COMMON.CAP_FIRST_SRC, COMMON.CAP_NSRC, COMMON.CAP_STAGED, COMMON.CAP_TABLES, COMMON.CAP_COUNTERS, COMMON.CAP_KSF, COMMON.CTL_SOFT_RST, COMMON.COMMIT_LO_TARGET_LO, COMMON.COMMIT_HI_TARGET_HI, COMMON.COMMIT_HI_PORT, COMMON.COMMIT_HI_ARM, COMMON.COMMIT_STAT_STATE, COMMON.COMMIT_STAT_RESULT, COMMON.COMMIT_STAT_TX_TAKEN, COMMON.COMMIT_STAT_RX_TAKEN, COMMON.COMMIT_STAT_RX_FORCED, COMMON.COMMIT_STAT_REPLACED, COMMON.COMMIT_STAT_WR_DROP, COMMON.COMMIT_STAT_HAS_RX, COMMON.COMMIT_STAT_HAS_TX, COMMON.STATUS_EVT_ANY, COMMON.STATUS_ARMED, COMMON.STATUS_PEND_DIRTY, COMMON.EVT_STICKY_STICKY, COMMON.EVT_MASK_MASK, COMMON.EVT_FORCE_FORCE, COMMON.EVT_FIRST_LOCAL, COMMON.EVT_FIRST_MULTI, COMMON.EVT_FIRST_VALID, COMMON.EVT_COUNT_COUNT]

/-! Block EVT0: R51. -/
def EVT0.TOP : Fld := ⟨0x80, 0, 1, .ro, 0, 4, 1, false⟩
def EVT0.TOP_INTN : Fld := ⟨0x80, 1, 1, .ro, 0, 4, 1, false⟩
def EVT0.GRP_SUM_LO_SUM : Fld := ⟨0x84, 0, 32, .ro, 0, 4, 1, false⟩
def EVT0.GRP_SUM_HI_SUM : Fld := ⟨0x88, 0, 4, .ro, 0, 4, 1, false⟩
def EVT0.GRP_MASK_LO_MASK : Fld := ⟨0x100, 0, 32, .rw, 0, 4, 1, false⟩
def EVT0.GRP_MASK_HI_MASK : Fld := ⟨0x104, 0, 4, .rw, 0, 4, 1, false⟩
def EVT0.INTN_CTL_EN : Fld := ⟨0x108, 0, 1, .rw, 0, 4, 1, false⟩
def EVT0.INTN_CTL_TEST : Fld := ⟨0x108, 1, 1, .rw, 0, 4, 1, false⟩
def EVT0.MSIX_ADDR_ADDR : Fld := ⟨0x700, 0, 32, .rw, 0, 16, 64, false⟩
def EVT0.MSIX_UADDR_ADDR : Fld := ⟨0x704, 0, 32, .rw, 0, 16, 64, false⟩
def EVT0.MSIX_DATA_DATA : Fld := ⟨0x708, 0, 32, .rw, 0, 16, 64, false⟩
def EVT0.MSIX_VCTL_MASK : Fld := ⟨0x70C, 0, 1, .rw, 1, 16, 64, false⟩
def EVT0.MSIX_PBA_PEND : Fld := ⟨0xB00, 0, 32, .ro, 0, 4, 2, false⟩
def EVT0.SRC_ASSERT_ASSERT : Fld := ⟨0xB40, 0, 32, .ro, 0, 4, 36, false⟩
def EVT0.table : List Fld := [EVT0.TOP, EVT0.TOP_INTN, EVT0.GRP_SUM_LO_SUM, EVT0.GRP_SUM_HI_SUM, EVT0.GRP_MASK_LO_MASK, EVT0.GRP_MASK_HI_MASK, EVT0.INTN_CTL_EN, EVT0.INTN_CTL_TEST, EVT0.MSIX_ADDR_ADDR, EVT0.MSIX_UADDR_ADDR, EVT0.MSIX_DATA_DATA, EVT0.MSIX_VCTL_MASK, EVT0.MSIX_PBA_PEND, EVT0.SRC_ASSERT_ASSERT]

/-! Block LFR: R82, R278. -/
def LFR.STATUS_ALIGNED : Fld := ⟨0x30, 0, 8, .ro, 0, 4, 1, false⟩
def LFR.STATUS_SDEF : Fld := ⟨0x30, 8, 1, .ro, 0, 4, 1, false⟩
def LFR.STATUS_FAR_BDI : Fld := ⟨0x30, 9, 1, .ro, 0, 4, 1, false⟩
def LFR.SPAN_TX_LO_SPAN : Fld := ⟨0x80, 0, 32, .ro, 0, 4, 1, false⟩
def LFR.SPAN_TX_HI_SPAN : Fld := ⟨0x84, 0, 16, .ro, 0, 4, 1, false⟩
def LFR.SPAN_TXPOS_FRAME : Fld := ⟨0x88, 0, 12, .ro, 0, 4, 1, false⟩
def LFR.SPAN_TXPOS_RUN : Fld := ⟨0x88, 31, 1, .ro, 0, 4, 1, false⟩
def LFR.SPAN_RX_LO_SPAN : Fld := ⟨0x8C, 0, 32, .ro, 0, 4, 1, false⟩
def LFR.SPAN_RX_HI_SPAN : Fld := ⟨0x90, 0, 16, .ro, 0, 4, 1, false⟩
def LFR.SPAN_RXPOS_FRAME : Fld := ⟨0x94, 0, 12, .ro, 0, 4, 1, false⟩
def LFR.SPAN_RXPOS_VALID : Fld := ⟨0x94, 16, 1, .ro, 0, 4, 1, false⟩
def LFR.SPAN_RXPOS_RXMODE : Fld := ⟨0x94, 20, 4, .ro, 0, 4, 1, false⟩
def LFR.CMT_LAST_PAGE : Fld := ⟨0x98, 0, 10, .ro, 0, 4, 1, false⟩
def LFR.CMT_LAST_RESULT : Fld := ⟨0x98, 12, 4, .ro, 0, 4, 1, false⟩
def LFR.CMT_LAST_MULTI : Fld := ⟨0x98, 16, 1, .ro, 0, 4, 1, false⟩
def LFR.SOH_RX_RX_BEI : Fld := ⟨0x9C, 0, 5, .ro, 0, 4, 1, false⟩
def LFR.SOH_RX_RX_BDI : Fld := ⟨0x9C, 8, 1, .ro, 0, 4, 1, false⟩
def LFR.SOH_RX_TX_BEI : Fld := ⟨0x9C, 16, 5, .ro, 0, 4, 1, false⟩
def LFR.SOH_RX_TX_BDI : Fld := ⟨0x9C, 24, 1, .ro, 0, 4, 1, false⟩
def LFR.ALIGN_STATE : Fld := ⟨0xA0, 0, 3, .ro, 0, 4, 8, false⟩
def LFR.ALIGN_MISSES : Fld := ⟨0xA0, 4, 3, .ro, 0, 4, 8, false⟩
def LFR.ALIGN_FRAME : Fld := ⟨0xA0, 8, 12, .ro, 0, 4, 8, false⟩
def LFR.ALIGN_MODE : Fld := ⟨0xA0, 20, 4, .ro, 0, 4, 8, false⟩
def LFR.ALIGN_SC : Fld := ⟨0xA0, 24, 4, .ro, 0, 4, 8, false⟩
def LFR.SPAN_SET_LO_VALUE : Fld := ⟨0x100, 0, 32, .rw, 0, 4, 1, false⟩
def LFR.SPAN_SET_HI_VALUE : Fld := ⟨0x104, 0, 16, .rw, 0, 4, 1, false⟩
def LFR.SPAN_CTL_SET : Fld := ⟨0x108, 0, 1, .wo, 0, 4, 1, false⟩
def LFR.SPAN_CTL_ADOPT : Fld := ⟨0x108, 1, 1, .wo, 0, 4, 1, false⟩
def LFR.SPAN_CTL_RXWAIT : Fld := ⟨0x108, 16, 9, .rw, 256, 4, 1, false⟩
def LFR.CTL_TX_EN : Fld := ⟨0x10C, 0, 1, .rw, 0, 4, 1, false⟩
def LFR.CTL_RX_EN : Fld := ⟨0x10C, 1, 1, .rw, 0, 4, 1, false⟩
def LFR.CTL_SOH_VOTE : Fld := ⟨0x10C, 2, 1, .rw, 1, 4, 1, false⟩
def LFR.CTL_BDI_FORCE : Fld := ⟨0x10C, 3, 1, .rw, 0, 4, 1, false⟩
def LFR.CTL_CORR_THR : Fld := ⟨0x10C, 8, 8, .rw, 160, 4, 1, false⟩
def LFR.CTL_SYNC_THR : Fld := ⟨0x10C, 16, 8, .rw, 176, 4, 1, false⟩
def LFR.SBIP_THR_THR : Fld := ⟨0x110, 0, 16, .rw, 0, 4, 1, false⟩
def LFR.HDR_CRC : Fld := ⟨0xC00, 0, 48, .cnt, 0, 4, 1, false⟩
def LFR.FALSE_CAND : Fld := ⟨0xC08, 0, 48, .cnt, 0, 4, 1, false⟩
def LFR.SBIP_BITS : Fld := ⟨0xC10, 0, 48, .cnt, 0, 4, 1, false⟩
def LFR.SBEI : Fld := ⟨0xC18, 0, 48, .cnt, 0, 4, 1, false⟩
def LFR.ANCHOR_MISS : Fld := ⟨0xC20, 0, 48, .cnt, 0, 4, 1, false⟩
def LFR.DECKS : Fld := ⟨0xC28, 0, 48, .cnt, 0, 4, 1, false⟩
def LFR.MARKED_DECKS : Fld := ⟨0xC30, 0, 48, .cnt, 0, 4, 1, false⟩
def LFR.table0 : List Fld := [LFR.STATUS_ALIGNED, LFR.STATUS_SDEF, LFR.STATUS_FAR_BDI, LFR.SPAN_TX_LO_SPAN, LFR.SPAN_TX_HI_SPAN, LFR.SPAN_TXPOS_FRAME, LFR.SPAN_TXPOS_RUN, LFR.SPAN_RX_LO_SPAN, LFR.SPAN_RX_HI_SPAN, LFR.SPAN_RXPOS_FRAME, LFR.SPAN_RXPOS_VALID, LFR.SPAN_RXPOS_RXMODE, LFR.CMT_LAST_PAGE, LFR.CMT_LAST_RESULT, LFR.CMT_LAST_MULTI, LFR.SOH_RX_RX_BEI, LFR.SOH_RX_RX_BDI, LFR.SOH_RX_TX_BEI, LFR.SOH_RX_TX_BDI, LFR.ALIGN_STATE, LFR.ALIGN_MISSES, LFR.ALIGN_FRAME, LFR.ALIGN_MODE, LFR.ALIGN_SC, LFR.SPAN_SET_LO_VALUE, LFR.SPAN_SET_HI_VALUE, LFR.SPAN_CTL_SET, LFR.SPAN_CTL_ADOPT, LFR.SPAN_CTL_RXWAIT, LFR.CTL_TX_EN, LFR.CTL_RX_EN, LFR.CTL_SOH_VOTE, LFR.CTL_BDI_FORCE, LFR.CTL_CORR_THR, LFR.CTL_SYNC_THR, LFR.SBIP_THR_THR, LFR.HDR_CRC, LFR.FALSE_CAND, LFR.SBIP_BITS, LFR.SBEI]
def LFR.table1 : List Fld := [LFR.ANCHOR_MISS, LFR.DECKS, LFR.MARKED_DECKS]
def LFR.table : List Fld := LFR.table0 ++ LFR.table1

/-! Block SCC: R84, R282. -/
def SCC.STAT_UP : Fld := ⟨0x80, 0, 1, .ro, 0, 4, 1, false⟩
def SCC.STAT_TX_BUSY : Fld := ⟨0x80, 1, 1, .ro, 0, 4, 1, false⟩
def SCC.STAT_RXQ : Fld := ⟨0x80, 8, 4, .ro, 0, 4, 1, false⟩
def SCC.RX_HEAD_LEN : Fld := ⟨0x84, 0, 10, .ro, 0, 4, 1, false⟩
def SCC.CN_STAT_STATE : Fld := ⟨0xC0, 0, 3, .ro, 0, 4, 1, false⟩
def SCC.CN_STAT_REASON : Fld := ⟨0xC0, 8, 8, .ro, 0, 4, 1, false⟩
def SCC.CN_STAT_SEQ : Fld := ⟨0xC0, 16, 8, .ro, 0, 4, 1, false⟩
def SCC.CN_RX_TARGET_LO_TARGET : Fld := ⟨0xC4, 0, 32, .ro, 0, 4, 1, false⟩
def SCC.CN_RX_TARGET_HI_TARGET : Fld := ⟨0xC8, 0, 16, .ro, 0, 4, 1, false⟩
def SCC.CN_RX_TAG_TAG : Fld := ⟨0xCC, 0, 32, .ro, 0, 4, 1, false⟩
def SCC.CN_RX_INFO_CLASS : Fld := ⟨0xD0, 0, 3, .ro, 0, 4, 1, false⟩
def SCC.CN_RX_INFO_SEQ : Fld := ⟨0xD0, 8, 8, .ro, 0, 4, 1, false⟩
def SCC.CN_RX_INFO_PENDING : Fld := ⟨0xD0, 16, 1, .ro, 0, 4, 1, false⟩
def SCC.CN_RX_INFO_AUTO_ACKED : Fld := ⟨0xD0, 17, 1, .ro, 0, 4, 1, false⟩
def SCC.CN_TARGET_LO_TARGET : Fld := ⟨0x180, 0, 32, .rw, 0, 4, 1, false⟩
def SCC.CN_TARGET_HI_TARGET : Fld := ⟨0x184, 0, 16, .rw, 0, 4, 1, false⟩
def SCC.CN_TAG_TAG : Fld := ⟨0x188, 0, 32, .rw, 0, 4, 1, false⟩
def SCC.CN_CTL_CLASS : Fld := ⟨0x18C, 0, 3, .rw, 0, 4, 1, false⟩
def SCC.CN_CTL_PROPOSE : Fld := ⟨0x18C, 8, 1, .wo, 0, 4, 1, false⟩
def SCC.CN_CTL_ACCEPT : Fld := ⟨0x18C, 9, 1, .wo, 0, 4, 1, false⟩
def SCC.CN_CTL_REJECT : Fld := ⟨0x18C, 10, 1, .wo, 0, 4, 1, false⟩
def SCC.CN_CTL_AUTO : Fld := ⟨0x18C, 16, 8, .rw, 0, 4, 1, false⟩
def SCC.TX_CTL_LEN : Fld := ⟨0x190, 0, 10, .rw, 0, 4, 1, false⟩
def SCC.TX_CTL_SEND : Fld := ⟨0x190, 16, 1, .wo, 0, 4, 1, false⟩
def SCC.RX_CTL_POP : Fld := ⟨0x194, 0, 1, .wo, 0, 4, 1, false⟩
def SCC.TX_BUF_DATA : Fld := ⟨0x700, 0, 32, .rw, 0, 4, 128, false⟩
def SCC.RX_BUF_DATA : Fld := ⟨0x900, 0, 32, .ro, 0, 4, 128, false⟩
def SCC.CELLS_TX : Fld := ⟨0xC00, 0, 48, .cnt, 0, 4, 1, false⟩
def SCC.CELLS_RX : Fld := ⟨0xC08, 0, 48, .cnt, 0, 4, 1, false⟩
def SCC.CRC_ERR : Fld := ⟨0xC10, 0, 48, .cnt, 0, 4, 1, false⟩
def SCC.SEG_ERR : Fld := ⟨0xC18, 0, 48, .cnt, 0, 4, 1, false⟩
def SCC.MSG_DROP : Fld := ⟨0xC20, 0, 48, .cnt, 0, 4, 1, false⟩
def SCC.table : List Fld := [SCC.STAT_UP, SCC.STAT_TX_BUSY, SCC.STAT_RXQ, SCC.RX_HEAD_LEN, SCC.CN_STAT_STATE, SCC.CN_STAT_REASON, SCC.CN_STAT_SEQ, SCC.CN_RX_TARGET_LO_TARGET, SCC.CN_RX_TARGET_HI_TARGET, SCC.CN_RX_TAG_TAG, SCC.CN_RX_INFO_CLASS, SCC.CN_RX_INFO_SEQ, SCC.CN_RX_INFO_PENDING, SCC.CN_RX_INFO_AUTO_ACKED, SCC.CN_TARGET_LO_TARGET, SCC.CN_TARGET_HI_TARGET, SCC.CN_TAG_TAG, SCC.CN_CTL_CLASS, SCC.CN_CTL_PROPOSE, SCC.CN_CTL_ACCEPT, SCC.CN_CTL_REJECT, SCC.CN_CTL_AUTO, SCC.TX_CTL_LEN, SCC.TX_CTL_SEND, SCC.RX_CTL_POP, SCC.TX_BUF_DATA, SCC.RX_BUF_DATA, SCC.CELLS_TX, SCC.CELLS_RX, SCC.CRC_ERR, SCC.SEG_ERR, SCC.MSG_DROP]

/-! Block ADC: R120. -/
def ADC.STATUS_RUN : Fld := ⟨0x30, 0, 4, .ro, 0, 4, 1, false⟩
def ADC.STATUS_OVR_NOW : Fld := ⟨0x30, 8, 4, .ro, 0, 4, 1, false⟩
def ADC.SR_MSPS : Fld := ⟨0x80, 0, 19, .ro, 360000, 4, 1, false⟩
def ADC.SPARES_FREE : Fld := ⟨0x84, 0, 16, .ro, 34952, 4, 1, false⟩
def ADC.SUSPECT_COUNT : Fld := ⟨0x88, 0, 32, .ro, 0, 4, 1, false⟩
def ADC.CAP_STAT_STATE : Fld := ⟨0x90, 0, 2, .ro, 0, 4, 1, false⟩
def ADC.CAP_STAT_FRAME : Fld := ⟨0x90, 16, 12, .ro, 0, 4, 1, false⟩
def ADC.LANE_CTL_EN : Fld := ⟨0x100, 0, 4, .rw, 0, 4, 1, false⟩
def ADC.LANE_CTL_INV : Fld := ⟨0x100, 4, 4, .rwsr, 0, 4, 1, false⟩
def ADC.LANE_CTL_RESID_EN : Fld := ⟨0x100, 8, 1, .rwsr, 1, 4, 1, false⟩
def ADC.OVR_CTL_THR : Fld := ⟨0x104, 0, 16, .rw, 16, 4, 1, false⟩
def ADC.TBL_SEL_LANE : Fld := ⟨0x108, 0, 2, .rw, 0, 4, 1, false⟩
def ADC.CAP_CTL_ARM : Fld := ⟨0x10C, 0, 1, .w1s, 0, 4, 1, false⟩
def ADC.CAP_CTL_ABORT : Fld := ⟨0x10C, 1, 1, .wo, 0, 4, 1, false⟩
def ADC.CAP_CTL_TRIG : Fld := ⟨0x10C, 2, 2, .rw, 0, 4, 1, false⟩
def ADC.CAP_CTL_POST : Fld := ⟨0x10C, 4, 1, .rw, 0, 4, 1, false⟩
def ADC.CAP_CTL_WINDOW : Fld := ⟨0x10C, 16, 9, .rw, 0, 4, 1, false⟩
def ADC.BAUD : Fld := ⟨0x110, 0, 19, .rwsr, 300000, 4, 1, false⟩
def ADC.SLICE_OVR : Fld := ⟨0x700, 0, 16, .rw, 0, 4, 168, false⟩
def ADC.SLICE_POS : Fld := ⟨0x700, 16, 8, .ro, 0, 4, 168, true⟩
def ADC.SLICE_ROLE : Fld := ⟨0x700, 24, 3, .ro, 0, 4, 168, true⟩
def ADC.SLICE_SUSPECT : Fld := ⟨0x700, 27, 1, .ro, 0, 4, 168, false⟩
def ADC.SLICE_STALE : Fld := ⟨0x700, 28, 1, .ro, 0, 4, 168, false⟩
def ADC.SLICE_RETRIES : Fld := ⟨0x700, 29, 3, .ro, 0, 4, 168, false⟩
def ADC.CAP_WIN_DATA : Fld := ⟨0xA00, 0, 32, .ro, 0, 4, 128, false⟩
def ADC.OVR_TOTAL : Fld := ⟨0xC00, 0, 48, .cnt, 0, 8, 4, false⟩
def ADC.table : List Fld := [ADC.STATUS_RUN, ADC.STATUS_OVR_NOW, ADC.SR_MSPS, ADC.SPARES_FREE, ADC.SUSPECT_COUNT, ADC.CAP_STAT_STATE, ADC.CAP_STAT_FRAME, ADC.LANE_CTL_EN, ADC.LANE_CTL_INV, ADC.LANE_CTL_RESID_EN, ADC.OVR_CTL_THR, ADC.TBL_SEL_LANE, ADC.CAP_CTL_ARM, ADC.CAP_CTL_ABORT, ADC.CAP_CTL_TRIG, ADC.CAP_CTL_POST, ADC.CAP_CTL_WINDOW, ADC.BAUD, ADC.SLICE_OVR, ADC.SLICE_POS, ADC.SLICE_ROLE, ADC.SLICE_SUSPECT, ADC.SLICE_STALE, ADC.SLICE_RETRIES, ADC.CAP_WIN_DATA, ADC.OVR_TOTAL]

/-! Block DAC: R122. -/
def DAC.STATUS_RUN : Fld := ⟨0x30, 0, 4, .ro, 0, 4, 1, false⟩
def DAC.STATUS_CAL_BUSY : Fld := ⟨0x30, 4, 4, .ro, 0, 4, 1, false⟩
def DAC.STATUS_STALE : Fld := ⟨0x30, 8, 4, .ro, 0, 4, 1, false⟩
def DAC.LANE_CTL_EN : Fld := ⟨0x100, 0, 4, .rw, 0, 4, 1, false⟩
def DAC.LANE_CTL_INV : Fld := ⟨0x100, 4, 4, .rwst, 0, 4, 1, false⟩
def DAC.LANE_CTL_MUTE : Fld := ⟨0x100, 8, 4, .rw, 15, 4, 1, false⟩
def DAC.BAUD : Fld := ⟨0x104, 0, 19, .rwst, 300000, 4, 1, false⟩
def DAC.SUB_GAIN : Fld := ⟨0x700, 0, 8, .ro, 0, 4, 64, false⟩
def DAC.SUB_OFFSET : Fld := ⟨0x700, 8, 8, .ro, 0, 4, 64, false⟩
def DAC.SUB_CLK_TAP : Fld := ⟨0x700, 16, 5, .ro, 16, 4, 64, false⟩
def DAC.SUB_SUSPECT : Fld := ⟨0x700, 24, 1, .ro, 0, 4, 64, false⟩
def DAC.SUB_RANGE : Fld := ⟨0x700, 25, 1, .ro, 0, 4, 64, false⟩
def DAC.SUB_STALE : Fld := ⟨0x700, 26, 1, .ro, 0, 4, 64, false⟩
def DAC.table : List Fld := [DAC.STATUS_RUN, DAC.STATUS_CAL_BUSY, DAC.STATUS_STALE, DAC.LANE_CTL_EN, DAC.LANE_CTL_INV, DAC.LANE_CTL_MUTE, DAC.BAUD, DAC.SUB_GAIN, DAC.SUB_OFFSET, DAC.SUB_CLK_TAP, DAC.SUB_SUSPECT, DAC.SUB_RANGE, DAC.SUB_STALE]

/-! Block LCAL: R124. -/
def LCAL.STATUS_STATE : Fld := ⟨0x30, 0, 2, .ro, 0, 4, 1, false⟩
def LCAL.STAT_STATE : Fld := ⟨0x80, 0, 2, .ro, 0, 4, 1, false⟩
def LCAL.STAT_ROUND : Fld := ⟨0x80, 4, 8, .ro, 0, 4, 1, false⟩
def LCAL.STAT_CAUSE : Fld := ⟨0x80, 12, 4, .ro, 0, 4, 1, false⟩
def LCAL.STAT_LOADBAND : Fld := ⟨0x80, 16, 2, .ro, 0, 4, 1, false⟩
def LCAL.STAT_QUEUED : Fld := ⟨0x80, 20, 1, .ro, 0, 4, 1, false⟩
def LCAL.STAT_STALE : Fld := ⟨0x80, 24, 1, .ro, 0, 4, 1, false⟩
def LCAL.TEMP_NOW : Fld := ⟨0x84, 0, 16, .ro, 0, 4, 4, false⟩
def LCAL.TEMP_LAST : Fld := ⟨0x84, 16, 16, .ro, 0, 4, 4, false⟩
def LCAL.AGE_MS : Fld := ⟨0x94, 0, 32, .ro, 0, 4, 1, false⟩
def LCAL.CTL_AUTO : Fld := ⟨0x100, 0, 1, .rw, 1, 4, 1, false⟩
def LCAL.CTL_START : Fld := ⟨0x100, 1, 1, .wo, 0, 4, 1, false⟩
def LCAL.CTL_HOLD : Fld := ⟨0x100, 2, 1, .rw, 0, 4, 1, false⟩
def LCAL.CTL_GATE : Fld := ⟨0x100, 3, 1, .rw, 0, 4, 1, false⟩
def LCAL.CTL_DT : Fld := ⟨0x100, 4, 8, .rw, 30, 4, 1, false⟩
def LCAL.CTL_AGE : Fld := ⟨0x100, 12, 6, .rw, 10, 4, 1, false⟩
def LCAL.CTL_TRIG_EN : Fld := ⟨0x100, 18, 4, .rw, 15, 4, 1, false⟩
def LCAL.PASSES : Fld := ⟨0xC00, 0, 48, .cnt, 0, 8, 1, false⟩
def LCAL.ATTEMPTS : Fld := ⟨0xC08, 0, 48, .cnt, 0, 8, 1, false⟩
def LCAL.DISAGREE : Fld := ⟨0xC10, 0, 48, .cnt, 0, 8, 1, false⟩
def LCAL.FLIPS : Fld := ⟨0xC18, 0, 48, .cnt, 0, 8, 1, false⟩
def LCAL.table : List Fld := [LCAL.STATUS_STATE, LCAL.STAT_STATE, LCAL.STAT_ROUND, LCAL.STAT_CAUSE, LCAL.STAT_LOADBAND, LCAL.STAT_QUEUED, LCAL.STAT_STALE, LCAL.TEMP_NOW, LCAL.TEMP_LAST, LCAL.AGE_MS, LCAL.CTL_AUTO, LCAL.CTL_START, LCAL.CTL_HOLD, LCAL.CTL_GATE, LCAL.CTL_DT, LCAL.CTL_AGE, LCAL.CTL_TRIG_EN, LCAL.PASSES, LCAL.ATTEMPTS, LCAL.DISAGREE, LCAL.FLIPS]

/-! Block CDC: R153. -/
def CDC.STATUS_LOCK : Fld := ⟨0x30, 0, 1, .ro, 0, 4, 1, false⟩
def CDC.STATUS_SEARCH : Fld := ⟨0x30, 1, 1, .ro, 0, 4, 1, false⟩
def CDC.STATUS_PROFILE : Fld := ⟨0x30, 2, 1, .ro, 0, 4, 1, false⟩
def CDC.STATUS_CLAMP : Fld := ⟨0x30, 3, 1, .ro, 0, 4, 1, false⟩
def CDC.EST : Fld := ⟨0x80, 0, 24, .ro, 0, 4, 1, false⟩
def CDC.APPLIED_D : Fld := ⟨0x84, 0, 24, .ro, 0, 4, 1, false⟩
def CDC.LIMIT_DMAX : Fld := ⟨0x88, 0, 16, .ro, 0, 4, 1, false⟩
def CDC.SRCH_STAT_STATE : Fld := ⟨0x8C, 0, 2, .ro, 0, 4, 1, false⟩
def CDC.SRCH_STAT_CAND : Fld := ⟨0x8C, 16, 16, .ro, 0, 4, 1, false⟩
def CDC.SRCH_METRIC_BEST : Fld := ⟨0x90, 0, 16, .ro, 0, 4, 1, false⟩
def CDC.CTL_MODE : Fld := ⟨0x100, 0, 2, .rwsr, 0, 4, 1, false⟩
def CDC.CD_SET_D : Fld := ⟨0x104, 0, 24, .rwsr, 0, 4, 1, false⟩
def CDC.LAMBDA : Fld := ⟨0x108, 0, 16, .rwsr, 15501, 4, 1, false⟩
def CDC.SC_CTL_NSC : Fld := ⟨0x10C, 0, 2, .rwsr, 0, 4, 1, false⟩
def CDC.SC_CTL_ROLLOFF : Fld := ⟨0x10C, 8, 4, .rwsr, 5, 4, 1, false⟩
def CDC.SRCH_CTR_CTR : Fld := ⟨0x110, 0, 24, .rw, 0, 4, 1, false⟩
def CDC.SRCH_WIN_WIN : Fld := ⟨0x114, 0, 16, .rw, 50000, 4, 1, false⟩
def CDC.SRCH_STEP_STEP : Fld := ⟨0x118, 0, 12, .rw, 500, 4, 1, false⟩
def CDC.SRCH_STEP_NBLK : Fld := ⟨0x118, 16, 6, .rw, 32, 4, 1, false⟩
def CDC.SRCH_STEP_START : Fld := ⟨0x118, 31, 1, .wo, 0, 4, 1, false⟩
def CDC.TRACK_EN : Fld := ⟨0x11C, 0, 1, .rw, 1, 4, 1, false⟩
def CDC.TRACK_MAXSTEP : Fld := ⟨0x11C, 8, 8, .rw, 8, 4, 1, false⟩
def CDC.SEARCHES : Fld := ⟨0xC00, 0, 48, .cnt, 0, 4, 1, false⟩
def CDC.TRACK_STEPS : Fld := ⟨0xC08, 0, 48, .cnt, 0, 4, 1, false⟩
def CDC.SRCH_FAILS : Fld := ⟨0xC10, 0, 48, .cnt, 0, 4, 1, false⟩
def CDC.table : List Fld := [CDC.STATUS_LOCK, CDC.STATUS_SEARCH, CDC.STATUS_PROFILE, CDC.STATUS_CLAMP, CDC.EST, CDC.APPLIED_D, CDC.LIMIT_DMAX, CDC.SRCH_STAT_STATE, CDC.SRCH_STAT_CAND, CDC.SRCH_METRIC_BEST, CDC.CTL_MODE, CDC.CD_SET_D, CDC.LAMBDA, CDC.SC_CTL_NSC, CDC.SC_CTL_ROLLOFF, CDC.SRCH_CTR_CTR, CDC.SRCH_WIN_WIN, CDC.SRCH_STEP_STEP, CDC.SRCH_STEP_NBLK, CDC.SRCH_STEP_START, CDC.TRACK_EN, CDC.TRACK_MAXSTEP, CDC.SEARCHES, CDC.TRACK_STEPS, CDC.SRCH_FAILS]

/-! Block MIMO: R155. -/
def MIMO.STATUS_CONV : Fld := ⟨0x30, 0, 8, .ro, 0, 4, 1, false⟩
def MIMO.STATUS_FROZEN : Fld := ⟨0x30, 8, 8, .ro, 0, 4, 1, false⟩
def MIMO.CFG_NTAP : Fld := ⟨0x80, 0, 5, .ro, 31, 4, 1, false⟩
def MIMO.CTL_MU_CMA : Fld := ⟨0x100, 0, 4, .rw, 9, 4, 1, false⟩
def MIMO.CTL_MU_DD : Fld := ⟨0x100, 4, 4, .rw, 9, 4, 1, false⟩
def MIMO.CTL_MU_TRK : Fld := ⟨0x100, 8, 4, .rw, 12, 4, 1, false⟩
def MIMO.CTL_SING_EN : Fld := ⟨0x100, 12, 1, .rw, 1, 4, 1, false⟩
def MIMO.CTL_FREEZE : Fld := ⟨0x100, 16, 8, .rw, 0, 4, 1, false⟩
def MIMO.CMD_REINIT : Fld := ⟨0x104, 0, 8, .wo, 0, 4, 1, false⟩
def MIMO.REINITS : Fld := ⟨0xC00, 0, 48, .cnt, 0, 4, 1, false⟩
def MIMO.SINGULAR : Fld := ⟨0xC08, 0, 48, .cnt, 0, 4, 1, false⟩
def MIMO.SEEDS : Fld := ⟨0xC10, 0, 48, .cnt, 0, 4, 1, false⟩
def MIMO.table : List Fld := [MIMO.STATUS_CONV, MIMO.STATUS_FROZEN, MIMO.CFG_NTAP, MIMO.CTL_MU_CMA, MIMO.CTL_MU_DD, MIMO.CTL_MU_TRK, MIMO.CTL_SING_EN, MIMO.CTL_FREEZE, MIMO.CMD_REINIT, MIMO.REINITS, MIMO.SINGULAR, MIMO.SEEDS]

/-! Block NLC: R157. -/
def NLC.STATUS_ACTIVE : Fld := ⟨0x30, 0, 1, .ro, 0, 4, 1, false⟩
def NLC.STATUS_TBL_OPEN : Fld := ⟨0x30, 1, 1, .ro, 1, 4, 1, false⟩
def NLC.STATUS_SUM_BUSY : Fld := ⟨0x30, 2, 1, .ro, 0, 4, 1, false⟩
def NLC.TBL_STAT_VALID : Fld := ⟨0x80, 0, 18, .ro, 0, 4, 1, false⟩
def NLC.TBL_CRC_CRC : Fld := ⟨0x84, 0, 32, .ro, 0, 4, 1, false⟩
def NLC.ECC_LAST_INDEX : Fld := ⟨0x88, 0, 17, .ro, 0, 4, 1, false⟩
def NLC.CTL_EN : Fld := ⟨0x100, 0, 1, .rwsr, 0, 4, 1, false⟩
def NLC.CTL_GAIN : Fld := ⟨0x100, 8, 8, .rwsr, 128, 4, 1, false⟩
def NLC.SCALE : Fld := ⟨0x104, 0, 4, .rwsr, 6, 4, 8, false⟩
def NLC.CMD_SUM_START : Fld := ⟨0x180, 0, 1, .wo, 0, 4, 1, false⟩
def NLC.WR_DROP : Fld := ⟨0xC00, 0, 48, .cnt, 0, 4, 1, false⟩
def NLC.ECC_ZERO : Fld := ⟨0xC08, 0, 48, .cnt, 0, 4, 1, false⟩
def NLC.table : List Fld := [NLC.STATUS_ACTIVE, NLC.STATUS_TBL_OPEN, NLC.STATUS_SUM_BUSY, NLC.TBL_STAT_VALID, NLC.TBL_CRC_CRC, NLC.ECC_LAST_INDEX, NLC.CTL_EN, NLC.CTL_GAIN, NLC.SCALE, NLC.CMD_SUM_START, NLC.WR_DROP, NLC.ECC_ZERO]

/-! Block SUBC: R159, R188. -/
def SUBC.STATUS_EQ_STATE : Fld := ⟨0x30, 0, 3, .ro, 0, 4, 1, false⟩
def SUBC.STATUS_CR_LOCK : Fld := ⟨0x30, 3, 1, .ro, 0, 4, 1, false⟩
def SUBC.STATUS_PILOT_OK : Fld := ⟨0x30, 4, 1, .ro, 0, 4, 1, false⟩
def SUBC.STATUS_MON_VALID : Fld := ⟨0x30, 5, 1, .ro, 0, 4, 1, false⟩
def SUBC.EQ_STAT_MSE : Fld := ⟨0x80, 0, 12, .ro, 0, 4, 1, false⟩
def SUBC.EQ_STAT_SEED : Fld := ⟨0x80, 12, 2, .ro, 0, 4, 1, false⟩
def SUBC.EQ_STAT_PDL : Fld := ⟨0x80, 16, 8, .ro, 0, 4, 1, false⟩
def SUBC.EQ_STAT_CENTROID : Fld := ⟨0x80, 24, 8, .ro, 0, 4, 1, false⟩
def SUBC.EQ_SNAP_STAT_READY : Fld := ⟨0x84, 0, 1, .ro, 0, 4, 1, false⟩
def SUBC.MON_SNR_SNR : Fld := ⟨0xC0, 0, 16, .ro, 0, 4, 1, false⟩
def SUBC.MON_OSNR_OSNR : Fld := ⟨0xC4, 0, 16, .ro, 0, 4, 1, false⟩
def SUBC.MON_FO_FO : Fld := ⟨0xC8, 0, 24, .ro, 0, 4, 1, false⟩
def SUBC.MON_CD_CD : Fld := ⟨0xCC, 0, 24, .ro, 0, 4, 1, false⟩
def SUBC.MON_DGD_DGD : Fld := ⟨0xD0, 0, 16, .ro, 0, 4, 1, false⟩
def SUBC.MON_SOP_RATE : Fld := ⟨0xD4, 0, 24, .ro, 0, 4, 1, false⟩
def SUBC.MON_BER_FEC_BER : Fld := ⟨0xD8, 0, 32, .ro, 0, 4, 1, false⟩
def SUBC.MON_BER_PILOT_BER : Fld := ⟨0xDC, 0, 32, .ro, 0, 4, 1, false⟩
def SUBC.MON_SEQ_SEQ : Fld := ⟨0xE0, 0, 16, .ro, 0, 4, 1, false⟩
def SUBC.CR_STAT_PH_ERR : Fld := ⟨0xE4, 0, 12, .ro, 0, 4, 1, false⟩
def SUBC.CR_STAT_SLIPS : Fld := ⟨0xE4, 16, 16, .ro, 0, 4, 1, false⟩
def SUBC.EQ_CTL_SNAP : Fld := ⟨0x100, 0, 1, .wo, 0, 4, 1, false⟩
def SUBC.CR_CTL_OVR_EN : Fld := ⟨0x180, 0, 1, .rwsr, 0, 4, 1, false⟩
def SUBC.CR_CTL_PILOT_AVG : Fld := ⟨0x180, 8, 4, .rwsr, 2, 4, 1, false⟩
def SUBC.CR_CTL_BPS_HALF : Fld := ⟨0x180, 16, 6, .rwsr, 12, 4, 1, false⟩
def SUBC.TAPS_RE : Fld := ⟨0x700, 0, 10, .ro, 0, 4, 128, false⟩
def SUBC.TAPS_IM : Fld := ⟨0x700, 16, 10, .ro, 0, 4, 128, false⟩
def SUBC.SLIP_TRACE_PHASE : Fld := ⟨0x900, 0, 16, .ro, 0, 4, 64, false⟩
def SUBC.SLIP_TRACE_POL : Fld := ⟨0x900, 16, 1, .ro, 0, 4, 64, false⟩
def SUBC.EQ_UPDATES : Fld := ⟨0xC00, 0, 48, .cnt, 0, 4, 1, false⟩
def SUBC.EQ_FALLBACKS : Fld := ⟨0xC08, 0, 48, .cnt, 0, 4, 1, false⟩
def SUBC.SLIPS : Fld := ⟨0xC40, 0, 48, .cnt, 0, 4, 1, false⟩
def SUBC.ERASED : Fld := ⟨0xC48, 0, 48, .cnt, 0, 4, 1, false⟩
def SUBC.PILOT_ERR : Fld := ⟨0xC50, 0, 48, .cnt, 0, 4, 1, false⟩
def SUBC.table : List Fld := [SUBC.STATUS_EQ_STATE, SUBC.STATUS_CR_LOCK, SUBC.STATUS_PILOT_OK, SUBC.STATUS_MON_VALID, SUBC.EQ_STAT_MSE, SUBC.EQ_STAT_SEED, SUBC.EQ_STAT_PDL, SUBC.EQ_STAT_CENTROID, SUBC.EQ_SNAP_STAT_READY, SUBC.MON_SNR_SNR, SUBC.MON_OSNR_OSNR, SUBC.MON_FO_FO, SUBC.MON_CD_CD, SUBC.MON_DGD_DGD, SUBC.MON_SOP_RATE, SUBC.MON_BER_FEC_BER, SUBC.MON_BER_PILOT_BER, SUBC.MON_SEQ_SEQ, SUBC.CR_STAT_PH_ERR, SUBC.CR_STAT_SLIPS, SUBC.EQ_CTL_SNAP, SUBC.CR_CTL_OVR_EN, SUBC.CR_CTL_PILOT_AVG, SUBC.CR_CTL_BPS_HALF, SUBC.TAPS_RE, SUBC.TAPS_IM, SUBC.SLIP_TRACE_PHASE, SUBC.SLIP_TRACE_POL, SUBC.EQ_UPDATES, SUBC.EQ_FALLBACKS, SUBC.SLIPS, SUBC.ERASED, SUBC.PILOT_ERR]

/-! Block CRV: R184. -/
def CRV.STATUS_FO_LOCK : Fld := ⟨0x30, 0, 1, .ro, 0, 4, 1, false⟩
def CRV.STATUS_TIM_LOCK : Fld := ⟨0x30, 1, 1, .ro, 0, 4, 1, false⟩
def CRV.STATUS_ACQ : Fld := ⟨0x30, 2, 1, .ro, 0, 4, 1, false⟩
def CRV.STATUS_ACQ_STEP : Fld := ⟨0x30, 4, 3, .ro, 0, 4, 1, false⟩
def CRV.FO_TOTAL_FO : Fld := ⟨0x80, 0, 24, .ro, 0, 4, 1, false⟩
def CRV.FO_COARSE_BINS : Fld := ⟨0x84, 0, 16, .ro, 0, 4, 1, false⟩
def CRV.FO_REF_FO : Fld := ⟨0x88, 0, 24, .ro, 0, 4, 1, false⟩
def CRV.TIM_OFS_PPM : Fld := ⟨0x8C, 0, 16, .ro, 0, 4, 1, false⟩
def CRV.CTL_FO_WIN : Fld := ⟨0x100, 0, 6, .rw, 50, 4, 1, false⟩
def CRV.CTL_TIM_BW : Fld := ⟨0x100, 8, 2, .rwsr, 2, 4, 1, false⟩
def CRV.CTL_PILOT_AVG : Fld := ⟨0x100, 12, 4, .rwsr, 2, 4, 1, false⟩
def CRV.CTL_BPS_HALF : Fld := ⟨0x100, 16, 6, .rwsr, 12, 4, 1, false⟩
def CRV.CTL_CS_ERASE : Fld := ⟨0x100, 24, 1, .rwsr, 1, 4, 1, false⟩
def CRV.CTL_SLIP_THR : Fld := ⟨0x100, 28, 4, .rw, 4, 4, 1, false⟩
def CRV.CMD_REACQ : Fld := ⟨0x104, 0, 1, .wo, 0, 4, 1, false⟩
def CRV.ACQ_FAILS : Fld := ⟨0xC00, 0, 48, .cnt, 0, 4, 1, false⟩
def CRV.REACQS : Fld := ⟨0xC08, 0, 48, .cnt, 0, 4, 1, false⟩
def CRV.SLIPS : Fld := ⟨0xC10, 0, 48, .cnt, 0, 4, 1, false⟩
def CRV.BIN_MOVES : Fld := ⟨0xC18, 0, 48, .cnt, 0, 4, 1, false⟩
def CRV.table : List Fld := [CRV.STATUS_FO_LOCK, CRV.STATUS_TIM_LOCK, CRV.STATUS_ACQ, CRV.STATUS_ACQ_STEP, CRV.FO_TOTAL_FO, CRV.FO_COARSE_BINS, CRV.FO_REF_FO, CRV.TIM_OFS_PPM, CRV.CTL_FO_WIN, CRV.CTL_TIM_BW, CRV.CTL_PILOT_AVG, CRV.CTL_BPS_HALF, CRV.CTL_CS_ERASE, CRV.CTL_SLIP_THR, CRV.CMD_REACQ, CRV.ACQ_FAILS, CRV.REACQS, CRV.SLIPS, CRV.BIN_MOVES]

/-! Block DMP: R186. -/
def DMP.STATUS_ACTIVE : Fld := ⟨0x30, 0, 1, .ro, 0, 4, 1, false⟩
def DMP.STATUS_AUTO : Fld := ⟨0x30, 1, 1, .ro, 1, 4, 1, false⟩
def DMP.STATUS_CONFLICT : Fld := ⟨0x30, 2, 1, .ro, 0, 4, 1, false⟩
def DMP.MON_SEQ_SEQ : Fld := ⟨0x80, 0, 16, .ro, 0, 4, 1, false⟩
def DMP.SCALE_LIVE_LO_S : Fld := ⟨0x90, 0, 32, .ro, 0, 4, 1, false⟩
def DMP.SCALE_LIVE_HI_S : Fld := ⟨0x94, 0, 32, .ro, 0, 4, 1, false⟩
def DMP.RATE_LIVE_ENT : Fld := ⟨0x98, 0, 11, .ro, 0, 4, 1, false⟩
def DMP.RATE_LIVE_MODE : Fld := ⟨0x98, 12, 4, .ro, 0, 4, 1, false⟩
def DMP.CTL_SCALE_AUTO : Fld := ⟨0x100, 0, 1, .rwsr, 1, 4, 1, false⟩
def DMP.CTL_SCALE : Fld := ⟨0x100, 8, 8, .rwsr, 48, 4, 1, false⟩
def DMP.MON_CTL_WIN : Fld := ⟨0x104, 0, 5, .rw, 14, 4, 1, false⟩
def DMP.SNR_TRX_SNR : Fld := ⟨0x108, 0, 12, .rw, 250, 4, 1, false⟩
def DMP.BER_THR_BER : Fld := ⟨0x10C, 0, 32, .rw, 68719477, 4, 1, false⟩
def DMP.SNR_THR_SNR : Fld := ⟨0x110, 0, 12, .rw, 0, 4, 1, false⟩
def DMP.RATE_MODE : Fld := ⟨0x114, 0, 4, .rwsr, 0, 4, 1, false⟩
def DMP.RATE_ENT_SRC : Fld := ⟨0x114, 8, 1, .rwsr, 0, 4, 1, false⟩
def DMP.RATE_ENT : Fld := ⟨0x114, 16, 11, .rwsr, 1650, 4, 1, false⟩
def DMP.NET : Fld := ⟨0x118, 0, 6, .rwsr, 32, 4, 1, false⟩
def DMP.LLR_HIST_COUNT : Fld := ⟨0x700, 0, 32, .ro, 0, 4, 16, false⟩
def DMP.table : List Fld := [DMP.STATUS_ACTIVE, DMP.STATUS_AUTO, DMP.STATUS_CONFLICT, DMP.MON_SEQ_SEQ, DMP.SCALE_LIVE_LO_S, DMP.SCALE_LIVE_HI_S, DMP.RATE_LIVE_ENT, DMP.RATE_LIVE_MODE, DMP.CTL_SCALE_AUTO, DMP.CTL_SCALE, DMP.MON_CTL_WIN, DMP.SNR_TRX_SNR, DMP.BER_THR_BER, DMP.SNR_THR_SNR, DMP.RATE_MODE, DMP.RATE_ENT_SRC, DMP.RATE_ENT, DMP.NET, DMP.LLR_HIST_COUNT]

/-! Block TXS: R214. -/
def TXS.STATUS_RUN : Fld := ⟨0x30, 0, 1, .ro, 0, 4, 1, false⟩
def TXS.STATUS_CONFLICT : Fld := ⟨0x30, 1, 1, .ro, 0, 4, 1, false⟩
def TXS.STATUS_TEST : Fld := ⟨0x30, 2, 1, .ro, 0, 4, 1, false⟩
def TXS.STATUS_FORMAT : Fld := ⟨0x30, 3, 3, .ro, 0, 4, 1, false⟩
def TXS.STATUS_PRE_CLAMP : Fld := ⟨0x30, 6, 1, .ro, 0, 4, 1, false⟩
def TXS.RATE_LIVE_ENT : Fld := ⟨0x80, 0, 11, .ro, 0, 4, 1, false⟩
def TXS.RATE_LIVE_MODE : Fld := ⟨0x80, 12, 4, .ro, 0, 4, 1, false⟩
def TXS.RATE_LIVE_K : Fld := ⟨0x80, 16, 12, .ro, 0, 4, 1, false⟩
def TXS.LOSS : Fld := ⟨0x84, 0, 16, .ro, 0, 4, 1, false⟩
def TXS.PRE_LIMIT_DMAX : Fld := ⟨0x88, 0, 16, .ro, 0, 4, 1, false⟩
def TXS.COMP_NLO : Fld := ⟨0xA0, 0, 11, .ro, 0, 4, 4, false⟩
def TXS.COMP_NHI : Fld := ⟨0xA0, 16, 11, .ro, 0, 4, 4, false⟩
def TXS.RATE_MODE : Fld := ⟨0x100, 0, 4, .rwst, 0, 4, 1, false⟩
def TXS.RATE_ENT_SRC : Fld := ⟨0x100, 8, 1, .rwst, 0, 4, 1, false⟩
def TXS.RATE_ENT : Fld := ⟨0x100, 16, 11, .rwst, 1650, 4, 1, false⟩
def TXS.NET : Fld := ⟨0x104, 0, 6, .rwst, 32, 4, 1, false⟩
def TXS.SC_CTL_NSC : Fld := ⟨0x108, 0, 2, .rwst, 0, 4, 1, false⟩
def TXS.SC_CTL_ROLLOFF : Fld := ⟨0x108, 8, 4, .rwst, 5, 4, 1, false⟩
def TXS.LEVEL_RMS : Fld := ⟨0x10C, 0, 7, .rwst, 36, 4, 1, false⟩
def TXS.LEVEL_PAPR : Fld := ⟨0x10C, 16, 8, .rwst, 100, 4, 1, false⟩
def TXS.CD_PRE_D : Fld := ⟨0x110, 0, 24, .rwst, 0, 4, 1, false⟩
def TXS.CD_PRE_EN : Fld := ⟨0x110, 31, 1, .rwst, 0, 4, 1, false⟩
def TXS.LAMBDA : Fld := ⟨0x114, 0, 16, .rwst, 15501, 4, 1, false⟩
def TXS.LANE_SKEW : Fld := ⟨0x118, 0, 10, .rwst, 0, 4, 4, false⟩
def TXS.LANE_DC : Fld := ⟨0x118, 16, 7, .rwst, 0, 4, 4, false⟩
def TXS.LANE_PD_EN : Fld := ⟨0x118, 28, 1, .rwst, 0, 4, 4, false⟩
def TXS.IQ_GAIN : Fld := ⟨0x128, 0, 11, .rwst, 0, 4, 2, false⟩
def TXS.IQ_PHASE : Fld := ⟨0x128, 16, 12, .rwst, 0, 4, 2, false⟩
def TXS.SC_GAIN_GAIN : Fld := ⟨0x140, 0, 8, .rwst, 128, 4, 8, false⟩
def TXS.SYN_CTL_LONG : Fld := ⟨0x180, 0, 1, .rw, 0, 4, 1, false⟩
def TXS.TEST_PAT : Fld := ⟨0x184, 0, 2, .rw, 0, 4, 1, false⟩
def TXS.TEST_TONE : Fld := ⟨0x184, 8, 8, .rw, 0, 4, 1, false⟩
def TXS.CLIP_CTL_THR : Fld := ⟨0x188, 0, 16, .rw, 64, 4, 1, false⟩
def TXS.PD_ENTRY : Fld := ⟨0x700, 0, 32, .rw, 0, 4, 256, true⟩
def TXS.CLIP : Fld := ⟨0xC00, 0, 48, .cnt, 0, 8, 4, false⟩
def TXS.BLOCKS : Fld := ⟨0xC20, 0, 48, .cnt, 0, 4, 1, false⟩
def TXS.CONFLICT_FRAMES : Fld := ⟨0xC28, 0, 48, .cnt, 0, 4, 1, false⟩
def TXS.table : List Fld := [TXS.STATUS_RUN, TXS.STATUS_CONFLICT, TXS.STATUS_TEST, TXS.STATUS_FORMAT, TXS.STATUS_PRE_CLAMP, TXS.RATE_LIVE_ENT, TXS.RATE_LIVE_MODE, TXS.RATE_LIVE_K, TXS.LOSS, TXS.PRE_LIMIT_DMAX, TXS.COMP_NLO, TXS.COMP_NHI, TXS.RATE_MODE, TXS.RATE_ENT_SRC, TXS.RATE_ENT, TXS.NET, TXS.SC_CTL_NSC, TXS.SC_CTL_ROLLOFF, TXS.LEVEL_RMS, TXS.LEVEL_PAPR, TXS.CD_PRE_D, TXS.CD_PRE_EN, TXS.LAMBDA, TXS.LANE_SKEW, TXS.LANE_DC, TXS.LANE_PD_EN, TXS.IQ_GAIN, TXS.IQ_PHASE, TXS.SC_GAIN_GAIN, TXS.SYN_CTL_LONG, TXS.TEST_PAT, TXS.TEST_TONE, TXS.CLIP_CTL_THR, TXS.PD_ENTRY, TXS.CLIP, TXS.BLOCKS, TXS.CONFLICT_FRAMES]

/-! Block FEC: R242. -/
def FEC.STATUS_RX_PROFILE : Fld := ⟨0x30, 0, 1, .ro, 0, 4, 1, false⟩
def FEC.STATUS_TX_PROFILE : Fld := ⟨0x30, 1, 1, .ro, 0, 4, 1, false⟩
def FEC.STATUS_DEC_ACTIVE : Fld := ⟨0x30, 2, 1, .ro, 0, 4, 1, false⟩
def FEC.STATUS_ENC_ACTIVE : Fld := ⟨0x30, 3, 1, .ro, 0, 4, 1, false⟩
def FEC.STATUS_HOLD : Fld := ⟨0x30, 4, 1, .ro, 0, 4, 1, false⟩
def FEC.STATUS_INJ : Fld := ⟨0x30, 5, 1, .ro, 0, 4, 1, false⟩
def FEC.POOL_OCC : Fld := ⟨0x80, 0, 12, .ro, 0, 4, 1, false⟩
def FEC.POOL_PEAK : Fld := ⟨0x80, 16, 12, .ro, 0, 4, 1, false⟩
def FEC.FLOOR : Fld := ⟨0x84, 0, 5, .ro, 13, 4, 1, false⟩
def FEC.MON_SEQ_SEQ : Fld := ⟨0x88, 0, 16, .ro, 0, 4, 1, false⟩
def FEC.BER_PRE_BER : Fld := ⟨0x8C, 0, 32, .ro, 0, 4, 1, false⟩
def FEC.MEAN_ITER_MEAN : Fld := ⟨0x90, 0, 12, .ro, 0, 4, 1, false⟩
def FEC.LAST_UNC_FRAME : Fld := ⟨0x94, 0, 12, .ro, 0, 4, 1, false⟩
def FEC.LAST_UNC_WORD : Fld := ⟨0x94, 16, 5, .ro, 0, 4, 1, false⟩
def FEC.COMP_NLO : Fld := ⟨0xA0, 0, 11, .ro, 0, 4, 4, false⟩
def FEC.COMP_NHI : Fld := ⟨0xA0, 16, 11, .ro, 0, 4, 4, false⟩
def FEC.CTL_TX_PROFILE : Fld := ⟨0x100, 0, 1, .rwst, 0, 4, 1, false⟩
def FEC.CTL_RX_PROFILE : Fld := ⟨0x100, 1, 1, .rwsr, 0, 4, 1, false⟩
def FEC.CTL_MAX_ITER : Fld := ⟨0x100, 4, 5, .rwsr, 16, 4, 1, false⟩
def FEC.CTL_OFFSET : Fld := ⟨0x100, 9, 3, .rwsr, 2, 4, 1, false⟩
def FEC.UREL_AGREE : Fld := ⟨0x104, 0, 3, .rwsr, 6, 4, 1, false⟩
def FEC.UREL_DISAGREE : Fld := ⟨0x104, 4, 3, .rwsr, 1, 4, 1, false⟩
def FEC.UNC_THR_THR : Fld := ⟨0x108, 0, 32, .rw, 0, 4, 1, false⟩
def FEC.INJ_NBIT : Fld := ⟨0x10C, 0, 8, .rw, 0, 4, 1, false⟩
def FEC.INJ_EVERY : Fld := ⟨0x10C, 16, 5, .rw, 10, 4, 1, false⟩
def FEC.INJ_EN : Fld := ⟨0x10C, 31, 1, .rw, 0, 4, 1, false⟩
def FEC.CMD_PEAK_CLR : Fld := ⟨0x180, 0, 1, .wo, 0, 4, 1, false⟩
def FEC.CORR : Fld := ⟨0xC00, 0, 48, .cnt, 0, 8, 16, false⟩
def FEC.ITER_HIST : Fld := ⟨0xC80, 0, 48, .cnt, 0, 8, 18, false⟩
def FEC.INNER_CW : Fld := ⟨0xD10, 0, 48, .cnt, 0, 4, 1, false⟩
def FEC.OUTER_CW : Fld := ⟨0xD18, 0, 48, .cnt, 0, 4, 1, false⟩
def FEC.OUTER_UNC : Fld := ⟨0xD20, 0, 48, .cnt, 0, 4, 1, false⟩
def FEC.OUTER_CORR : Fld := ⟨0xD28, 0, 48, .cnt, 0, 4, 1, false⟩
def FEC.BITS : Fld := ⟨0xD30, 0, 48, .cnt, 0, 4, 1, false⟩
def FEC.CAPPED : Fld := ⟨0xD38, 0, 48, .cnt, 0, 4, 1, false⟩
def FEC.INJECTED : Fld := ⟨0xD40, 0, 48, .cnt, 0, 4, 1, false⟩
def FEC.table : List Fld := [FEC.STATUS_RX_PROFILE, FEC.STATUS_TX_PROFILE, FEC.STATUS_DEC_ACTIVE, FEC.STATUS_ENC_ACTIVE, FEC.STATUS_HOLD, FEC.STATUS_INJ, FEC.POOL_OCC, FEC.POOL_PEAK, FEC.FLOOR, FEC.MON_SEQ_SEQ, FEC.BER_PRE_BER, FEC.MEAN_ITER_MEAN, FEC.LAST_UNC_FRAME, FEC.LAST_UNC_WORD, FEC.COMP_NLO, FEC.COMP_NHI, FEC.CTL_TX_PROFILE, FEC.CTL_RX_PROFILE, FEC.CTL_MAX_ITER, FEC.CTL_OFFSET, FEC.UREL_AGREE, FEC.UREL_DISAGREE, FEC.UNC_THR_THR, FEC.INJ_NBIT, FEC.INJ_EVERY, FEC.INJ_EN, FEC.CMD_PEAK_CLR, FEC.CORR, FEC.ITER_HIST, FEC.INNER_CW, FEC.OUTER_CW, FEC.OUTER_UNC, FEC.OUTER_CORR, FEC.BITS, FEC.CAPPED, FEC.INJECTED]

/-! Block MAP: R280. -/
def MAP.STATUS_TX_RUN : Fld := ⟨0x30, 0, 1, .ro, 0, 4, 1, false⟩
def MAP.STATUS_RX_RUN : Fld := ⟨0x30, 1, 1, .ro, 0, 4, 1, false⟩
def MAP.RX_SYNC_SYNC : Fld := ⟨0x80, 0, 32, .ro, 0, 4, 1, false⟩
def MAP.TX_USED_USED : Fld := ⟨0x84, 0, 32, .ro, 0, 4, 1, false⟩
def MAP.RX_USED_USED : Fld := ⟨0x88, 0, 32, .ro, 0, 4, 1, false⟩
def MAP.CLI_FLAG_FLAG : Fld := ⟨0x8C, 0, 32, .w1c, 0, 4, 1, false⟩
def MAP.TXSLOT_CLIENT : Fld := ⟨0x100, 0, 5, .rwst, 0, 4, 32, false⟩
def MAP.TXSLOT_EN : Fld := ⟨0x100, 8, 1, .rwst, 0, 4, 32, false⟩
def MAP.RXSLOT_CLIENT : Fld := ⟨0x180, 0, 5, .rwsr, 0, 4, 32, false⟩
def MAP.RXSLOT_EN : Fld := ⟨0x180, 8, 1, .rwsr, 0, 4, 32, false⟩
def MAP.CLI_EJ_TARGET : Fld := ⟨0x200, 0, 12, .rwsr, 0, 4, 32, false⟩
def MAP.CLI_WM : Fld := ⟨0x200, 16, 9, .rwsr, 0, 4, 32, false⟩
def MAP.CLI_TIM_EN : Fld := ⟨0x200, 26, 1, .rw, 0, 4, 32, false⟩
def MAP.CLI_RECENTRE : Fld := ⟨0x200, 27, 1, .wo, 0, 4, 32, false⟩
def MAP.CLI_BDI_FORCE : Fld := ⟨0x200, 28, 1, .rw, 0, 4, 32, false⟩
def MAP.CTL_SLEW : Fld := ⟨0x280, 0, 12, .rw, 2000, 4, 1, false⟩
def MAP.TTI_SEL_CLIENT : Fld := ⟨0x284, 0, 5, .rw, 0, 4, 1, false⟩
def MAP.EJ_FILL : Fld := ⟨0x700, 0, 12, .ro, 0, 4, 32, false⟩
def MAP.EJ_HIGH : Fld := ⟨0x700, 28, 1, .ro, 0, 4, 32, false⟩
def MAP.EJ_LOW : Fld := ⟨0x700, 29, 1, .ro, 0, 4, 32, false⟩
def MAP.EJ_SLEWING : Fld := ⟨0x700, 30, 1, .ro, 0, 4, 32, false⟩
def MAP.PATH_RX_BEI : Fld := ⟨0x780, 0, 4, .ro, 0, 4, 32, false⟩
def MAP.PATH_RX_BDI : Fld := ⟨0x780, 4, 1, .ro, 0, 4, 32, false⟩
def MAP.PATH_JC_SYNC : Fld := ⟨0x780, 5, 1, .ro, 0, 4, 32, false⟩
def MAP.PATH_TTI_MM : Fld := ⟨0x780, 6, 1, .ro, 0, 4, 32, false⟩
def MAP.PATH_STATUS : Fld := ⟨0x780, 8, 8, .ro, 0, 4, 32, false⟩
def MAP.PATH_CN : Fld := ⟨0x780, 16, 13, .ro, 0, 4, 32, false⟩
def MAP.EJSLIP_OVF : Fld := ⟨0x800, 0, 16, .rw, 0, 4, 32, false⟩
def MAP.EJSLIP_UNF : Fld := ⟨0x800, 16, 16, .rw, 0, 4, 32, false⟩
def MAP.TTI_TX_TTI : Fld := ⟨0xA00, 0, 32, .rw, 0, 4, 16, false⟩
def MAP.TTI_RX_TTI : Fld := ⟨0xA40, 0, 32, .ro, 0, 4, 16, false⟩
def MAP.TTI_EXP_TTI : Fld := ⟨0xA80, 0, 32, .rw, 0, 4, 16, false⟩
def MAP.PBIP : Fld := ⟨0xC00, 0, 48, .cnt, 0, 32, 32, false⟩
def MAP.PBEI : Fld := ⟨0xC08, 0, 48, .cnt, 0, 32, 32, false⟩
def MAP.JC_ERR : Fld := ⟨0xC10, 0, 48, .cnt, 0, 32, 32, false⟩
def MAP.MARKED : Fld := ⟨0xC18, 0, 48, .cnt, 0, 32, 32, false⟩
def MAP.table : List Fld := [MAP.STATUS_TX_RUN, MAP.STATUS_RX_RUN, MAP.RX_SYNC_SYNC, MAP.TX_USED_USED, MAP.RX_USED_USED, MAP.CLI_FLAG_FLAG, MAP.TXSLOT_CLIENT, MAP.TXSLOT_EN, MAP.RXSLOT_CLIENT, MAP.RXSLOT_EN, MAP.CLI_EJ_TARGET, MAP.CLI_WM, MAP.CLI_TIM_EN, MAP.CLI_RECENTRE, MAP.CLI_BDI_FORCE, MAP.CTL_SLEW, MAP.TTI_SEL_CLIENT, MAP.EJ_FILL, MAP.EJ_HIGH, MAP.EJ_LOW, MAP.EJ_SLEWING, MAP.PATH_RX_BEI, MAP.PATH_RX_BDI, MAP.PATH_JC_SYNC, MAP.PATH_TTI_MM, MAP.PATH_STATUS, MAP.PATH_CN, MAP.EJSLIP_OVF, MAP.EJSLIP_UNF, MAP.TTI_TX_TTI, MAP.TTI_RX_TTI, MAP.TTI_EXP_TTI, MAP.PBIP, MAP.PBEI, MAP.JC_ERR, MAP.MARKED]

/-! Block HLN: R305. -/
def HLN.STATUS_SIG_DET : Fld := ⟨0x30, 0, 1, .ro, 0, 4, 1, false⟩
def HLN.STATUS_CDR_LOCK : Fld := ⟨0x30, 1, 1, .ro, 0, 4, 1, false⟩
def HLN.STATUS_ADAPT_DONE : Fld := ⟨0x30, 2, 1, .ro, 0, 4, 1, false⟩
def HLN.STATUS_TX_ON : Fld := ⟨0x30, 3, 1, .ro, 0, 4, 1, false⟩
def HLN.STATUS_FFE_CLAMP : Fld := ⟨0x30, 4, 1, .ro, 0, 4, 1, false⟩
def HLN.STATUS_PRBS_LOCK : Fld := ⟨0x30, 5, 1, .ro, 0, 4, 1, false⟩
def HLN.RX_SNR_SNR : Fld := ⟨0x80, 0, 12, .ro, 0, 4, 1, false⟩
def HLN.CTL_TX_EN : Fld := ⟨0x100, 0, 1, .rw, 0, 4, 1, false⟩
def HLN.CTL_RX_EN : Fld := ⟨0x100, 1, 1, .rw, 0, 4, 1, false⟩
def HLN.CTL_TX_INV : Fld := ⟨0x100, 2, 1, .rw, 0, 4, 1, false⟩
def HLN.CTL_RX_INV : Fld := ⟨0x100, 3, 1, .rw, 0, 4, 1, false⟩
def HLN.CTL_LOOP : Fld := ⟨0x100, 4, 2, .rw, 0, 4, 1, false⟩
def HLN.CTL_ADAPT_RESTART : Fld := ⟨0x100, 8, 1, .wo, 0, 4, 1, false⟩
def HLN.TXFFE0_CM3 : Fld := ⟨0x104, 0, 6, .rw, 0, 4, 1, false⟩
def HLN.TXFFE0_CM2 : Fld := ⟨0x104, 8, 6, .rw, 0, 4, 1, false⟩
def HLN.TXFFE0_CM1 : Fld := ⟨0x104, 16, 6, .rw, 56, 4, 1, false⟩
def HLN.TXFFE1_C0 : Fld := ⟨0x108, 0, 7, .rw, 48, 4, 1, false⟩
def HLN.TXFFE1_CP1 : Fld := ⟨0x108, 8, 6, .rw, 0, 4, 1, false⟩
def HLN.PRBS_GEN : Fld := ⟨0x10C, 0, 2, .rw, 0, 4, 1, false⟩
def HLN.PRBS_CHK : Fld := ⟨0x10C, 4, 2, .rw, 0, 4, 1, false⟩
def HLN.PRBS_ERR : Fld := ⟨0xC00, 0, 48, .cnt, 0, 4, 1, false⟩
def HLN.PRBS_BITS : Fld := ⟨0xC08, 0, 48, .cnt, 0, 4, 1, false⟩
def HLN.LOS : Fld := ⟨0xC10, 0, 48, .cnt, 0, 4, 1, false⟩
def HLN.table : List Fld := [HLN.STATUS_SIG_DET, HLN.STATUS_CDR_LOCK, HLN.STATUS_ADAPT_DONE, HLN.STATUS_TX_ON, HLN.STATUS_FFE_CLAMP, HLN.STATUS_PRBS_LOCK, HLN.RX_SNR_SNR, HLN.CTL_TX_EN, HLN.CTL_RX_EN, HLN.CTL_TX_INV, HLN.CTL_RX_INV, HLN.CTL_LOOP, HLN.CTL_ADAPT_RESTART, HLN.TXFFE0_CM3, HLN.TXFFE0_CM2, HLN.TXFFE0_CM1, HLN.TXFFE1_C0, HLN.TXFFE1_CP1, HLN.PRBS_GEN, HLN.PRBS_CHK, HLN.PRBS_ERR, HLN.PRBS_BITS, HLN.LOS]

/-! Block CLI: R307. -/
def CLI.STATUS_IN_ALIGN : Fld := ⟨0x30, 0, 1, .ro, 0, 4, 1, false⟩
def CLI.STATUS_TX_LIVE : Fld := ⟨0x30, 1, 1, .ro, 0, 4, 1, false⟩
def CLI.STATUS_RX_LIVE : Fld := ⟨0x30, 2, 1, .ro, 0, 4, 1, false⟩
def CLI.STATUS_REPL : Fld := ⟨0x30, 3, 1, .ro, 0, 4, 1, false⟩
def CLI.STATUS_CSF_TX : Fld := ⟨0x30, 4, 1, .ro, 0, 4, 1, false⟩
def CLI.STATUS_CSF_RX : Fld := ⟨0x30, 5, 1, .ro, 0, 4, 1, false⟩
def CLI.STAT_ERR : Fld := ⟨0x80, 0, 3, .ro, 0, 4, 1, false⟩
def CLI.STAT_CFG_LOCK : Fld := ⟨0x80, 8, 1, .w1c, 0, 4, 1, false⟩
def CLI.STAT_SKEW : Fld := ⟨0x80, 16, 8, .ro, 0, 4, 1, false⟩
def CLI.TS_WR_IN : Fld := ⟨0x84, 0, 8, .ro, 0, 4, 1, false⟩
def CLI.TS_WR_EG : Fld := ⟨0x84, 16, 8, .ro, 0, 4, 1, false⟩
def CLI.CFG_TYPE : Fld := ⟨0x100, 0, 3, .rw, 0, 4, 1, false⟩
def CLI.CFG_NLANES : Fld := ⟨0x100, 8, 2, .rw, 0, 4, 1, false⟩
def CLI.CFG_FIRST_LANE : Fld := ⟨0x100, 16, 5, .rw, 0, 4, 1, true⟩
def CLI.CFG_PORT : Fld := ⟨0x100, 24, 1, .rw, 0, 4, 1, true⟩
def CLI.CTL_TX_EN : Fld := ⟨0x104, 0, 1, .rwst, 0, 4, 1, false⟩
def CLI.CTL_RX_EN : Fld := ⟨0x104, 1, 1, .rwsr, 0, 4, 1, false⟩
def CLI.CTL_REPL : Fld := ⟨0x104, 2, 1, .rw, 0, 4, 1, false⟩
def CLI.CTL_CSF_ACT : Fld := ⟨0x104, 3, 1, .rw, 1, 4, 1, false⟩
def CLI.CTL_CSF_FORCE : Fld := ⟨0x104, 4, 1, .rw, 0, 4, 1, false⟩
def CLI.CTL_MARK_E : Fld := ⟨0x104, 5, 1, .rw, 1, 4, 1, false⟩
def CLI.PTP_EN : Fld := ⟨0x108, 0, 1, .rw, 0, 4, 1, false⟩
def CLI.PTP_L2 : Fld := ⟨0x108, 1, 1, .rw, 1, 4, 1, false⟩
def CLI.PTP_IPV4 : Fld := ⟨0x108, 2, 1, .rw, 1, 4, 1, false⟩
def CLI.PTP_IPV6 : Fld := ⟨0x108, 3, 1, .rw, 1, 4, 1, false⟩
def CLI.PTP_TB : Fld := ⟨0x108, 4, 2, .rw, 0, 4, 1, false⟩
def CLI.TS_OFS_IN : Fld := ⟨0x10C, 0, 16, .rw, 0, 4, 1, false⟩
def CLI.TS_OFS_EG : Fld := ⟨0x10C, 16, 16, .rw, 0, 4, 1, false⟩
def CLI.TS_RD_IN : Fld := ⟨0x110, 0, 8, .rw, 0, 4, 1, false⟩
def CLI.TS_RD_EG : Fld := ⟨0x110, 16, 8, .rw, 0, 4, 1, false⟩
def CLI.TS_IN_WORD : Fld := ⟨0x700, 0, 32, .ro, 0, 4, 128, false⟩
def CLI.TS_EG_WORD : Fld := ⟨0x900, 0, 32, .ro, 0, 4, 128, false⟩
def CLI.RS_CORR : Fld := ⟨0xC00, 0, 48, .cnt, 0, 4, 1, false⟩
def CLI.RS_UNC : Fld := ⟨0xC08, 0, 48, .cnt, 0, 4, 1, false⟩
def CLI.FRAMES_IN : Fld := ⟨0xC10, 0, 48, .cnt, 0, 4, 1, false⟩
def CLI.FRAMES_EG : Fld := ⟨0xC18, 0, 48, .cnt, 0, 4, 1, false⟩
def CLI.ERR_BLK_EG : Fld := ⟨0xC20, 0, 48, .cnt, 0, 4, 1, false⟩
def CLI.IDLE_ADJ : Fld := ⟨0xC28, 0, 48, .cnt, 0, 4, 1, false⟩
def CLI.TS_DROP : Fld := ⟨0xC30, 0, 48, .cnt, 0, 4, 1, false⟩
def CLI.LAUNCH_DROP : Fld := ⟨0xC38, 0, 48, .cnt, 0, 4, 1, false⟩
def CLI.table : List Fld := [CLI.STATUS_IN_ALIGN, CLI.STATUS_TX_LIVE, CLI.STATUS_RX_LIVE, CLI.STATUS_REPL, CLI.STATUS_CSF_TX, CLI.STATUS_CSF_RX, CLI.STAT_ERR, CLI.STAT_CFG_LOCK, CLI.STAT_SKEW, CLI.TS_WR_IN, CLI.TS_WR_EG, CLI.CFG_TYPE, CLI.CFG_NLANES, CLI.CFG_FIRST_LANE, CLI.CFG_PORT, CLI.CTL_TX_EN, CLI.CTL_RX_EN, CLI.CTL_REPL, CLI.CTL_CSF_ACT, CLI.CTL_CSF_FORCE, CLI.CTL_MARK_E, CLI.PTP_EN, CLI.PTP_L2, CLI.PTP_IPV4, CLI.PTP_IPV6, CLI.PTP_TB, CLI.TS_OFS_IN, CLI.TS_OFS_EG, CLI.TS_RD_IN, CLI.TS_RD_EG, CLI.TS_IN_WORD, CLI.TS_EG_WORD, CLI.RS_CORR, CLI.RS_UNC, CLI.FRAMES_IN, CLI.FRAMES_EG, CLI.ERR_BLK_EG, CLI.IDLE_ADJ, CLI.TS_DROP, CLI.LAUNCH_DROP]

/-! Block ENC: R343. -/
def ENC.STATUS_TX_ACTIVE : Fld := ⟨0x30, 0, 6, .ro, 36, 4, 1, false⟩
def ENC.STATUS_RX_ACTIVE : Fld := ⟨0x30, 8, 6, .ro, 36, 4, 1, false⟩
def ENC.STANDBY_TX : Fld := ⟨0x80, 0, 4, .ro, 12, 4, 1, false⟩
def ENC.STANDBY_RX : Fld := ⟨0x80, 8, 4, .ro, 12, 4, 1, false⟩
def ENC.LOAD_TX : Fld := ⟨0x84, 0, 13, .ro, 0, 4, 1, false⟩
def ENC.LOAD_RX : Fld := ⟨0x84, 16, 13, .ro, 0, 4, 1, false⟩
def ENC.TX_RETIRED_LO_MAP : Fld := ⟨0x88, 0, 32, .ro, 0, 4, 1, false⟩
def ENC.TX_RETIRED_HI_MAP : Fld := ⟨0x8C, 0, 16, .ro, 0, 4, 1, false⟩
def ENC.RX_RETIRED_LO_MAP : Fld := ⟨0x90, 0, 32, .ro, 0, 4, 1, false⟩
def ENC.RX_RETIRED_HI_MAP : Fld := ⟨0x94, 0, 16, .ro, 0, 4, 1, false⟩
def ENC.AUTH_FAIL_TRIB : Fld := ⟨0x98, 0, 32, .w1c, 0, 4, 1, false⟩
def ENC.UNTRUSTED_TRIB : Fld := ⟨0x9C, 0, 32, .w1c, 0, 4, 1, false⟩
def ENC.HELD_TRIB : Fld := ⟨0xA0, 0, 32, .ro, 0, 4, 1, false⟩
def ENC.CFG_LOCK_TRIB : Fld := ⟨0xA4, 0, 32, .w1c, 0, 4, 1, false⟩
def ENC.LOG0_TRIB : Fld := ⟨0xB0, 0, 5, .ro, 0, 4, 1, false⟩
def ENC.LOG0_KIND : Fld := ⟨0xB0, 8, 2, .ro, 0, 4, 1, false⟩
def ENC.LOG0_VALID : Fld := ⟨0xB0, 31, 1, .ro, 0, 4, 1, false⟩
def ENC.LOG1_SPAN : Fld := ⟨0xB4, 0, 32, .ro, 0, 4, 1, false⟩
def ENC.LOG2_SPAN : Fld := ⟨0xB8, 0, 16, .ro, 0, 4, 1, false⟩
def ENC.LOG3_CTR : Fld := ⟨0xBC, 0, 24, .ro, 0, 4, 1, false⟩
def ENC.LOG_STAT_COUNT : Fld := ⟨0xC0, 0, 5, .ro, 0, 4, 1, false⟩
def ENC.LOG_STAT_OVF : Fld := ⟨0xC0, 8, 1, .ro, 0, 4, 1, false⟩
def ENC.TRIB_TX_EN : Fld := ⟨0x100, 0, 1, .rwst, 0, 4, 32, false⟩
def ENC.TRIB_RX_EN : Fld := ⟨0x100, 1, 1, .rwsr, 0, 4, 32, false⟩
def ENC.TRIB_TX_BSIZE : Fld := ⟨0x100, 2, 1, .rwst, 0, 4, 32, false⟩
def ENC.TRIB_RX_BSIZE : Fld := ⟨0x100, 3, 1, .rwsr, 0, 4, 32, false⟩
def ENC.TRIB_TX_SEL : Fld := ⟨0x100, 4, 1, .rwst, 0, 4, 32, false⟩
def ENC.TRIB_RX_SEL : Fld := ⟨0x100, 5, 1, .rwsr, 0, 4, 32, false⟩
def ENC.TRIB_HOLD_EN : Fld := ⟨0x100, 6, 1, .rw, 1, 4, 32, false⟩
def ENC.TRIB_SLOT_A : Fld := ⟨0x100, 8, 6, .rw, 0, 4, 32, false⟩
def ENC.TRIB_SLOT_B : Fld := ⟨0x100, 16, 6, .rw, 0, 4, 32, false⟩
def ENC.CTL_FAIL_REPL : Fld := ⟨0x180, 0, 4, .rw, 0, 4, 1, false⟩
def ENC.CTL_PASS_REL : Fld := ⟨0x180, 4, 4, .rw, 4, 4, 1, false⟩
def ENC.CMD_TRIB : Fld := ⟨0x184, 0, 5, .wo, 0, 4, 1, false⟩
def ENC.CMD_RESYNC : Fld := ⟨0x184, 8, 1, .wo, 0, 4, 1, false⟩
def ENC.CMD_LOG_POP : Fld := ⟨0x184, 9, 1, .wo, 0, 4, 1, false⟩
def ENC.TEST_PIPE : Fld := ⟨0x188, 0, 6, .rw, 0, 4, 1, false⟩
def ENC.TEST_DIR : Fld := ⟨0x188, 8, 1, .rw, 0, 4, 1, false⟩
def ENC.TEST_INJECT : Fld := ⟨0x188, 12, 1, .wo, 0, 4, 1, false⟩
def ENC.TRIB_STAT_TX_STATE : Fld := ⟨0x700, 0, 2, .ro, 0, 4, 32, false⟩
def ENC.TRIB_STAT_RX_STATE : Fld := ⟨0x700, 4, 2, .ro, 0, 4, 32, false⟩
def ENC.TRIB_STAT_WHY : Fld := ⟨0x700, 8, 5, .ro, 0, 4, 32, false⟩
def ENC.TRIB_STAT_SYNC : Fld := ⟨0x700, 16, 3, .ro, 0, 4, 32, false⟩
def ENC.TRIB_STAT_FAILRUN : Fld := ⟨0x700, 20, 8, .ro, 0, 4, 32, false⟩
def ENC.TX_BLOCKS : Fld := ⟨0xC00, 0, 48, .cnt, 0, 8, 1, false⟩
def ENC.RX_BLOCKS : Fld := ⟨0xC08, 0, 48, .cnt, 0, 8, 1, false⟩
def ENC.AUTH_FAILS : Fld := ⟨0xC10, 0, 48, .cnt, 0, 8, 1, false⟩
def ENC.TX_VOIDS : Fld := ⟨0xC18, 0, 48, .cnt, 0, 8, 1, false⟩
def ENC.RX_VOIDS : Fld := ⟨0xC20, 0, 48, .cnt, 0, 8, 1, false⟩
def ENC.RX_UNTRUSTED : Fld := ⟨0xC28, 0, 48, .cnt, 0, 8, 1, false⟩
def ENC.TX_MISMATCH : Fld := ⟨0xC30, 0, 48, .cnt, 0, 8, 1, false⟩
def ENC.RX_MISMATCH : Fld := ⟨0xC38, 0, 48, .cnt, 0, 8, 1, false⟩
def ENC.GHASH_MISMATCH : Fld := ⟨0xC40, 0, 48, .cnt, 0, 8, 1, false⟩
def ENC.FRAMES_INVERTED : Fld := ⟨0xC48, 0, 48, .cnt, 0, 8, 1, false⟩
def ENC.REPLAYS : Fld := ⟨0xC50, 0, 48, .cnt, 0, 8, 1, false⟩
def ENC.ERASE_TERM : Fld := ⟨0xC58, 0, 48, .cnt, 0, 8, 1, false⟩
def ENC.INJ : Fld := ⟨0xC60, 0, 48, .cnt, 0, 8, 1, false⟩
def ENC.CTL_FAILS : Fld := ⟨0xC68, 0, 48, .cnt, 0, 8, 1, false⟩
def ENC.table0 : List Fld := [ENC.STATUS_TX_ACTIVE, ENC.STATUS_RX_ACTIVE, ENC.STANDBY_TX, ENC.STANDBY_RX, ENC.LOAD_TX, ENC.LOAD_RX, ENC.TX_RETIRED_LO_MAP, ENC.TX_RETIRED_HI_MAP, ENC.RX_RETIRED_LO_MAP, ENC.RX_RETIRED_HI_MAP, ENC.AUTH_FAIL_TRIB, ENC.UNTRUSTED_TRIB, ENC.HELD_TRIB, ENC.CFG_LOCK_TRIB, ENC.LOG0_TRIB, ENC.LOG0_KIND, ENC.LOG0_VALID, ENC.LOG1_SPAN, ENC.LOG2_SPAN, ENC.LOG3_CTR, ENC.LOG_STAT_COUNT, ENC.LOG_STAT_OVF, ENC.TRIB_TX_EN, ENC.TRIB_RX_EN, ENC.TRIB_TX_BSIZE, ENC.TRIB_RX_BSIZE, ENC.TRIB_TX_SEL, ENC.TRIB_RX_SEL, ENC.TRIB_HOLD_EN, ENC.TRIB_SLOT_A, ENC.TRIB_SLOT_B, ENC.CTL_FAIL_REPL, ENC.CTL_PASS_REL, ENC.CMD_TRIB, ENC.CMD_RESYNC, ENC.CMD_LOG_POP, ENC.TEST_PIPE, ENC.TEST_DIR, ENC.TEST_INJECT, ENC.TRIB_STAT_TX_STATE]
def ENC.table1 : List Fld := [ENC.TRIB_STAT_RX_STATE, ENC.TRIB_STAT_WHY, ENC.TRIB_STAT_SYNC, ENC.TRIB_STAT_FAILRUN, ENC.TX_BLOCKS, ENC.RX_BLOCKS, ENC.AUTH_FAILS, ENC.TX_VOIDS, ENC.RX_VOIDS, ENC.RX_UNTRUSTED, ENC.TX_MISMATCH, ENC.RX_MISMATCH, ENC.GHASH_MISMATCH, ENC.FRAMES_INVERTED, ENC.REPLAYS, ENC.ERASE_TERM, ENC.INJ, ENC.CTL_FAILS]
def ENC.table : List Fld := ENC.table0 ++ ENC.table1

/-! Block KEYS: R345. -/
def KEYS.STATUS_EMPTY : Fld := ⟨0x30, 0, 7, .ro, 64, 4, 1, false⟩
def KEYS.LAST_SLOT : Fld := ⟨0x80, 0, 6, .ro, 0, 4, 1, false⟩
def KEYS.LAST_OP : Fld := ⟨0x80, 8, 2, .ro, 0, 4, 1, false⟩
def KEYS.LAST_RESULT : Fld := ⟨0x80, 12, 3, .ro, 0, 4, 1, false⟩
def KEYS.LAST_GEN : Fld := ⟨0x80, 16, 16, .ro, 0, 4, 1, false⟩
def KEYS.CMD_SLOT : Fld := ⟨0x100, 0, 6, .rw, 0, 4, 1, false⟩
def KEYS.CMD_ERASE : Fld := ⟨0x100, 8, 1, .wo, 0, 4, 1, false⟩
def KEYS.CMD_ERASE_ALL : Fld := ⟨0x100, 9, 1, .wo, 0, 4, 1, false⟩
def KEYS.SLOT_GEN : Fld := ⟨0x700, 0, 16, .ro, 0, 4, 64, false⟩
def KEYS.SLOT_STATE : Fld := ⟨0x700, 16, 2, .ro, 0, 4, 64, false⟩
def KEYS.SLOT_TX_LIVE : Fld := ⟨0x700, 20, 1, .ro, 0, 4, 64, false⟩
def KEYS.SLOT_RX_LIVE : Fld := ⟨0x700, 21, 1, .ro, 0, 4, 64, false⟩
def KEYS.SLOT_ARMED_REF : Fld := ⟨0x700, 22, 1, .ro, 0, 4, 64, false⟩
def KEYS.SLOT_LATCHED : Fld := ⟨0x700, 23, 1, .ro, 0, 4, 64, false⟩
def KEYS.SLOT_TRIB : Fld := ⟨0x700, 24, 5, .ro, 0, 4, 64, false⟩
def KEYS.MAT_M : Fld := ⟨0x800, 0, 32, .ks, 0, 4, 256, false⟩
def KEYS.INSTALLS : Fld := ⟨0xC00, 0, 48, .cnt, 0, 8, 1, false⟩
def KEYS.ERASES : Fld := ⟨0xC08, 0, 48, .cnt, 0, 8, 1, false⟩
def KEYS.REFUSED : Fld := ⟨0xC10, 0, 48, .cnt, 0, 8, 1, false⟩
def KEYS.ROT_TX : Fld := ⟨0xC18, 0, 48, .cnt, 0, 8, 1, false⟩
def KEYS.ROT_RX : Fld := ⟨0xC20, 0, 48, .cnt, 0, 8, 1, false⟩
def KEYS.table : List Fld := [KEYS.STATUS_EMPTY, KEYS.LAST_SLOT, KEYS.LAST_OP, KEYS.LAST_RESULT, KEYS.LAST_GEN, KEYS.CMD_SLOT, KEYS.CMD_ERASE, KEYS.CMD_ERASE_ALL, KEYS.SLOT_GEN, KEYS.SLOT_STATE, KEYS.SLOT_TX_LIVE, KEYS.SLOT_RX_LIVE, KEYS.SLOT_ARMED_REF, KEYS.SLOT_LATCHED, KEYS.SLOT_TRIB, KEYS.MAT_M, KEYS.INSTALLS, KEYS.ERASES, KEYS.REFUSED, KEYS.ROT_TX, KEYS.ROT_RX]

/-! Block KSMB: R374. -/
def KSMB.STATUS_OWNED : Fld := ⟨0x30, 0, 1, .ro, 0, 4, 1, false⟩
def KSMB.STATUS_DEBUG : Fld := ⟨0x30, 1, 1, .ro, 0, 4, 1, false⟩
def KSMB.STATUS_TAMPER : Fld := ⟨0x30, 2, 1, .ro, 0, 4, 1, false⟩
def KSMB.STATUS_PATCH_SKIP : Fld := ⟨0x30, 3, 1, .ro, 0, 4, 1, false⟩
def KSMB.BOOT_STATE : Fld := ⟨0x80, 0, 4, .ro, 0, 4, 1, false⟩
def KSMB.BOOT_REASON : Fld := ⟨0x80, 8, 4, .ro, 0, 4, 1, false⟩
def KSMB.BOOT_SRC : Fld := ⟨0x80, 12, 1, .ro, 0, 4, 1, false⟩
def KSMB.BOOT_SLOT : Fld := ⟨0x80, 13, 1, .ro, 0, 4, 1, false⟩
def KSMB.SVN_IMAGE : Fld := ⟨0x84, 0, 8, .ro, 0, 4, 1, false⟩
def KSMB.SVN_RT_SVN : Fld := ⟨0x84, 8, 8, .ro, 0, 4, 1, false⟩
def KSMB.SVN_PATCH : Fld := ⟨0x84, 16, 8, .ro, 0, 4, 1, false⟩
def KSMB.SVN_PATCH_SVN : Fld := ⟨0x84, 24, 8, .ro, 0, 4, 1, false⟩
def KSMB.LIFE : Fld := ⟨0x88, 0, 3, .ro, 0, 4, 1, false⟩
def KSMB.LIFE_PROV : Fld := ⟨0x88, 8, 1, .ro, 0, 4, 1, false⟩
def KSMB.MB_STAT_OWNER : Fld := ⟨0x8C, 0, 2, .ro, 0, 4, 1, false⟩
def KSMB.MB_STAT_BUSY : Fld := ⟨0x8C, 4, 1, .ro, 0, 4, 1, false⟩
def KSMB.MB_STAT_DONE : Fld := ⟨0x8C, 5, 1, .ro, 0, 4, 1, false⟩
def KSMB.MB_STAT_RESULT : Fld := ⟨0x8C, 8, 8, .ro, 0, 4, 1, false⟩
def KSMB.MB_STAT_RSP_LEN : Fld := ⟨0x8C, 16, 16, .ro, 0, 4, 1, false⟩
def KSMB.KA_STATE : Fld := ⟨0x90, 0, 3, .ro, 0, 4, 2, false⟩
def KSMB.KA_INITIATOR : Fld := ⟨0x90, 7, 1, .ro, 0, 4, 2, false⟩
def KSMB.KA_REASON : Fld := ⟨0x90, 8, 8, .ro, 0, 4, 2, false⟩
def KSMB.KA_SESSION : Fld := ⟨0x90, 16, 16, .ro, 0, 4, 2, false⟩
def KSMB.TAMPER_WARN : Fld := ⟨0x98, 0, 3, .w1c, 0, 4, 1, false⟩
def KSMB.TAMPER_ZERO : Fld := ⟨0x98, 4, 3, .ro, 0, 4, 1, false⟩
def KSMB.DEBUG_SCOPE : Fld := ⟨0x9C, 0, 2, .ro, 0, 4, 1, false⟩
def KSMB.DEBUG_CHAL_VALID : Fld := ⟨0x9C, 8, 1, .ro, 0, 4, 1, false⟩
def KSMB.MB_CTL_CLAIM : Fld := ⟨0x100, 0, 1, .wo, 0, 4, 1, false⟩
def KSMB.MB_CTL_RELEASE : Fld := ⟨0x100, 1, 1, .wo, 0, 4, 1, false⟩
def KSMB.MB_CTL_GO : Fld := ⟨0x100, 2, 1, .wo, 0, 4, 1, false⟩
def KSMB.REQ_OPCODE : Fld := ⟨0x104, 0, 8, .rw, 0, 4, 1, false⟩
def KSMB.REQ_LEN : Fld := ⟨0x104, 16, 14, .rw, 0, 4, 1, false⟩
def KSMB.WIN_REQ_WIN : Fld := ⟨0x108, 0, 4, .rw, 0, 4, 1, false⟩
def KSMB.WIN_RSP_WIN : Fld := ⟨0x108, 8, 6, .rw, 0, 4, 1, false⟩
def KSMB.CTL_TAMPER_ACK : Fld := ⟨0x10C, 0, 1, .wo, 0, 4, 1, false⟩
def KSMB.CTL_PUSH_DONE : Fld := ⟨0x10C, 1, 1, .wo, 0, 4, 1, false⟩
def KSMB.PUSH_LEN_LEN : Fld := ⟨0x110, 0, 24, .rw, 0, 4, 1, false⟩
def KSMB.REQ_BUF_DATA : Fld := ⟨0x700, 0, 32, .rw, 0, 4, 128, false⟩
def KSMB.RSP_BUF_DATA : Fld := ⟨0x900, 0, 32, .ro, 0, 4, 128, false⟩
def KSMB.PRIV_K : Fld := ⟨0xB00, 0, 32, .ks, 0, 4, 64, false⟩
def KSMB.REQUESTS : Fld := ⟨0xC00, 0, 48, .cnt, 0, 8, 1, false⟩
def KSMB.REFUSED : Fld := ⟨0xC08, 0, 48, .cnt, 0, 8, 1, false⟩
def KSMB.FIREWALL : Fld := ⟨0xC10, 0, 48, .cnt, 0, 8, 1, false⟩
def KSMB.KA_DONE : Fld := ⟨0xC18, 0, 48, .cnt, 0, 8, 1, false⟩
def KSMB.KA_FAIL : Fld := ⟨0xC20, 0, 48, .cnt, 0, 8, 1, false⟩
def KSMB.QUOTES : Fld := ⟨0xC28, 0, 48, .cnt, 0, 8, 1, false⟩
def KSMB.TAMPER_EVTS : Fld := ⟨0xC30, 0, 48, .cnt, 0, 8, 1, false⟩
def KSMB.table0 : List Fld := [KSMB.STATUS_OWNED, KSMB.STATUS_DEBUG, KSMB.STATUS_TAMPER, KSMB.STATUS_PATCH_SKIP, KSMB.BOOT_STATE, KSMB.BOOT_REASON, KSMB.BOOT_SRC, KSMB.BOOT_SLOT, KSMB.SVN_IMAGE, KSMB.SVN_RT_SVN, KSMB.SVN_PATCH, KSMB.SVN_PATCH_SVN, KSMB.LIFE, KSMB.LIFE_PROV, KSMB.MB_STAT_OWNER, KSMB.MB_STAT_BUSY, KSMB.MB_STAT_DONE, KSMB.MB_STAT_RESULT, KSMB.MB_STAT_RSP_LEN, KSMB.KA_STATE, KSMB.KA_INITIATOR, KSMB.KA_REASON, KSMB.KA_SESSION, KSMB.TAMPER_WARN, KSMB.TAMPER_ZERO, KSMB.DEBUG_SCOPE, KSMB.DEBUG_CHAL_VALID, KSMB.MB_CTL_CLAIM, KSMB.MB_CTL_RELEASE, KSMB.MB_CTL_GO, KSMB.REQ_OPCODE, KSMB.REQ_LEN, KSMB.WIN_REQ_WIN, KSMB.WIN_RSP_WIN, KSMB.CTL_TAMPER_ACK, KSMB.CTL_PUSH_DONE, KSMB.PUSH_LEN_LEN, KSMB.REQ_BUF_DATA, KSMB.RSP_BUF_DATA, KSMB.PRIV_K]
def KSMB.table1 : List Fld := [KSMB.REQUESTS, KSMB.REFUSED, KSMB.FIREWALL, KSMB.KA_DONE, KSMB.KA_FAIL, KSMB.QUOTES, KSMB.TAMPER_EVTS]
def KSMB.table : List Fld := KSMB.table0 ++ KSMB.table1

/-! Block CLK: R397. -/
def CLK.STATUS_STATE : Fld := ⟨0x30, 0, 2, .ro, 0, 4, 1, false⟩
def CLK.STATUS_SEL : Fld := ⟨0x30, 4, 3, .ro, 0, 4, 1, false⟩
def CLK.STATUS_SEL_VALID : Fld := ⟨0x30, 7, 1, .ro, 0, 4, 1, false⟩
def CLK.DPLL_STAT_STATE : Fld := ⟨0x80, 0, 2, .ro, 0, 4, 1, false⟩
def CLK.DPLL_STAT_STAGE : Fld := ⟨0x80, 2, 4, .ro, 0, 4, 1, false⟩
def CLK.DPLL_STAT_HOLD_SHORT : Fld := ⟨0x80, 8, 1, .ro, 0, 4, 1, false⟩
def CLK.DPLL_STAT_FORCED : Fld := ⟨0x80, 9, 1, .ro, 0, 4, 1, false⟩
def CLK.DPLL_HIST_SEEN : Fld := ⟨0x84, 0, 4, .w1c, 0, 4, 1, false⟩
def CLK.DPLL_FREQ_FREQ : Fld := ⟨0x88, 0, 32, .ro, 0, 4, 1, false⟩
def CLK.HOLD_FREQ_FREQ : Fld := ⟨0x8C, 0, 32, .ro, 0, 4, 1, false⟩
def CLK.HOLD_WIN_WIN : Fld := ⟨0x90, 0, 7, .ro, 0, 4, 1, false⟩
def CLK.PHASE_ERR_ERR : Fld := ⟨0x94, 0, 16, .ro, 0, 4, 1, false⟩
def CLK.QL_OUT_LP0 : Fld := ⟨0x98, 0, 4, .ro, 0, 4, 1, false⟩
def CLK.QL_OUT_LP1 : Fld := ⟨0x98, 4, 4, .ro, 0, 4, 1, false⟩
def CLK.QL_OUT_HOST : Fld := ⟨0x98, 8, 4, .ro, 0, 4, 1, false⟩
def CLK.QL_OUT_SSM : Fld := ⟨0x98, 12, 4, .ro, 15, 4, 1, false⟩
def CLK.QL_OUT_ESSM : Fld := ⟨0x98, 16, 8, .ro, 255, 4, 1, false⟩
def CLK.REF_STAT_STATE : Fld := ⟨0xA0, 0, 3, .ro, 0, 4, 8, false⟩
def CLK.REF_STAT_DISPUTED : Fld := ⟨0xA0, 3, 1, .ro, 0, 4, 8, false⟩
def CLK.REF_STAT_REASON : Fld := ⟨0xA0, 4, 2, .ro, 0, 4, 8, false⟩
def CLK.REF_STAT_QL_FAIL : Fld := ⟨0xA0, 6, 1, .ro, 0, 4, 8, false⟩
def CLK.REF_STAT_QL : Fld := ⟨0xA0, 8, 4, .ro, 0, 4, 8, false⟩
def CLK.REF_STAT_SSM : Fld := ⟨0xA0, 12, 4, .ro, 0, 4, 8, false⟩
def CLK.REF_STAT_ESSM : Fld := ⟨0xA0, 16, 8, .ro, 0, 4, 8, false⟩
def CLK.REF_STAT_TIMER : Fld := ⟨0xA0, 24, 8, .ro, 0, 4, 8, false⟩
def CLK.REF_FREQ_FREQ : Fld := ⟨0xC0, 0, 32, .ro, 0, 4, 8, false⟩
def CLK.CTL_QLMODE : Fld := ⟨0x100, 0, 1, .rw, 0, 4, 1, false⟩
def CLK.CTL_REVERT : Fld := ⟨0x100, 1, 1, .rw, 1, 4, 1, false⟩
def CLK.CTL_FORCE_EN : Fld := ⟨0x100, 2, 1, .rw, 0, 4, 1, false⟩
def CLK.CTL_FORCE_REF : Fld := ⟨0x100, 4, 3, .rw, 0, 4, 1, false⟩
def CLK.CTL_BW_FINAL : Fld := ⟨0x100, 8, 3, .rw, 1, 4, 1, false⟩
def CLK.CTL_OWN_QL : Fld := ⟨0x100, 12, 4, .rw, 1, 4, 1, false⟩
def CLK.WTR_MIN : Fld := ⟨0x104, 0, 4, .rw, 5, 4, 1, false⟩
def CLK.MON_LIM_SOFT : Fld := ⟨0x108, 0, 10, .rw, 92, 4, 1, false⟩
def CLK.MON_LIM_HARD : Fld := ⟨0x108, 16, 10, .rw, 500, 4, 1, false⟩
def CLK.DISPUTE_LIM : Fld := ⟨0x10C, 0, 10, .rw, 20, 4, 1, false⟩
def CLK.OSC_TRIM_TRIM : Fld := ⟨0x110, 0, 24, .rw, 0, 4, 1, false⟩
def CLK.REF_CFG_PRIO : Fld := ⟨0x120, 0, 4, .rw, 0, 4, 8, false⟩
def CLK.REF_CFG_QL_SRC : Fld := ⟨0x120, 4, 2, .rw, 0, 4, 8, false⟩
def CLK.REF_CFG_QL_FIX : Fld := ⟨0x120, 8, 4, .rw, 1, 4, 8, false⟩
def CLK.REF_CFG_LANE : Fld := ⟨0x120, 16, 5, .rw, 0, 4, 8, true⟩
def CLK.REFIN_FREQ_HZ : Fld := ⟨0x140, 0, 28, .rw, 10000000, 4, 4, false⟩
def CLK.REFIN_FREQ_PPS : Fld := ⟨0x140, 31, 1, .rw, 0, 4, 4, false⟩
def CLK.OUT_HZ : Fld := ⟨0x160, 0, 28, .rw, 10000000, 4, 4, false⟩
def CLK.OUT_EN : Fld := ⟨0x160, 28, 1, .rw, 0, 4, 4, false⟩
def CLK.OUT_SQUELCH : Fld := ⟨0x160, 29, 2, .rw, 0, 4, 4, false⟩
def CLK.OUT_PPS : Fld := ⟨0x160, 31, 1, .rw, 0, 4, 4, false⟩
def CLK.CMD_WTR_CLR : Fld := ⟨0x180, 0, 8, .wo, 0, 4, 1, false⟩
def CLK.CMD_HIST_CLR : Fld := ⟨0x180, 8, 1, .wo, 0, 4, 1, false⟩
def CLK.SWITCHES : Fld := ⟨0xC00, 0, 48, .cnt, 0, 8, 1, false⟩
def CLK.DISQ : Fld := ⟨0xC08, 0, 48, .cnt, 0, 8, 1, false⟩
def CLK.HOLD_ENTRIES : Fld := ⟨0xC10, 0, 48, .cnt, 0, 8, 1, false⟩
def CLK.ESMC_RX : Fld := ⟨0xC18, 0, 48, .cnt, 0, 8, 1, false⟩
def CLK.ESMC_BAD : Fld := ⟨0xC20, 0, 48, .cnt, 0, 8, 1, false⟩
def CLK.QLANN_RX : Fld := ⟨0xC28, 0, 48, .cnt, 0, 8, 1, false⟩
def CLK.table0 : List Fld := [CLK.STATUS_STATE, CLK.STATUS_SEL, CLK.STATUS_SEL_VALID, CLK.DPLL_STAT_STATE, CLK.DPLL_STAT_STAGE, CLK.DPLL_STAT_HOLD_SHORT, CLK.DPLL_STAT_FORCED, CLK.DPLL_HIST_SEEN, CLK.DPLL_FREQ_FREQ, CLK.HOLD_FREQ_FREQ, CLK.HOLD_WIN_WIN, CLK.PHASE_ERR_ERR, CLK.QL_OUT_LP0, CLK.QL_OUT_LP1, CLK.QL_OUT_HOST, CLK.QL_OUT_SSM, CLK.QL_OUT_ESSM, CLK.REF_STAT_STATE, CLK.REF_STAT_DISPUTED, CLK.REF_STAT_REASON, CLK.REF_STAT_QL_FAIL, CLK.REF_STAT_QL, CLK.REF_STAT_SSM, CLK.REF_STAT_ESSM, CLK.REF_STAT_TIMER, CLK.REF_FREQ_FREQ, CLK.CTL_QLMODE, CLK.CTL_REVERT, CLK.CTL_FORCE_EN, CLK.CTL_FORCE_REF, CLK.CTL_BW_FINAL, CLK.CTL_OWN_QL, CLK.WTR_MIN, CLK.MON_LIM_SOFT, CLK.MON_LIM_HARD, CLK.DISPUTE_LIM, CLK.OSC_TRIM_TRIM, CLK.REF_CFG_PRIO, CLK.REF_CFG_QL_SRC, CLK.REF_CFG_QL_FIX]
def CLK.table1 : List Fld := [CLK.REF_CFG_LANE, CLK.REFIN_FREQ_HZ, CLK.REFIN_FREQ_PPS, CLK.OUT_HZ, CLK.OUT_EN, CLK.OUT_SQUELCH, CLK.OUT_PPS, CLK.CMD_WTR_CLR, CLK.CMD_HIST_CLR, CLK.SWITCHES, CLK.DISQ, CLK.HOLD_ENTRIES, CLK.ESMC_RX, CLK.ESMC_BAD, CLK.QLANN_RX]
def CLK.table : List Fld := CLK.table0 ++ CLK.table1

/-! Block TB: R416. -/
def TB.STATUS_TRIM_SAT : Fld := ⟨0x30, 0, 4, .ro, 0, 4, 1, false⟩
def TB.BASE_NS_LO : Fld := ⟨0x80, 0, 32, .ro, 0, 16, 4, false⟩
def TB.BASE_NS_HI : Fld := ⟨0x84, 0, 32, .ro, 0, 16, 4, false⟩
def TB.BASE_FRAC : Fld := ⟨0x88, 0, 16, .ro, 0, 16, 4, false⟩
def TB.SNAP_NS_LO : Fld := ⟨0xC0, 0, 32, .ro, 0, 16, 4, false⟩
def TB.SNAP_NS_HI : Fld := ⟨0xC4, 0, 32, .ro, 0, 16, 4, false⟩
def TB.SNAP_FRAC : Fld := ⟨0xC8, 0, 16, .ro, 0, 16, 4, false⟩
def TB.TRIM : Fld := ⟨0x100, 0, 32, .rw, 0, 4, 4, false⟩
def TB.STEP_NS_LO : Fld := ⟨0x110, 0, 32, .rw, 0, 16, 4, false⟩
def TB.STEP_NS_HI : Fld := ⟨0x114, 0, 32, .rw, 0, 16, 4, false⟩
def TB.STEP_FRAC : Fld := ⟨0x118, 0, 16, .rw, 0, 16, 4, false⟩
def TB.CMD_STEP : Fld := ⟨0x180, 0, 4, .wo, 0, 4, 1, false⟩
def TB.CMD_SNAP : Fld := ⟨0x180, 4, 1, .wo, 0, 4, 1, false⟩
def TB.SCC_CTL_SEL0 : Fld := ⟨0x184, 0, 2, .rw, 0, 4, 1, false⟩
def TB.SCC_CTL_SEL1 : Fld := ⟨0x184, 4, 2, .rw, 0, 4, 1, false⟩
def TB.SCC_CTL_EN : Fld := ⟨0x184, 8, 2, .rw, 0, 4, 1, false⟩
def TB.LINK_ASYM_ASYM : Fld := ⟨0x188, 0, 32, .rw, 0, 4, 2, false⟩
def TB.PPS_CTL_SEL : Fld := ⟨0x190, 0, 2, .rw, 0, 4, 1, false⟩
def TB.PPS_CTL_IN_SEL : Fld := ⟨0x190, 4, 2, .rw, 0, 4, 1, false⟩
def TB.PPS_CTL_WIDTH : Fld := ⟨0x190, 8, 8, .rw, 10, 4, 1, false⟩
def TB.PPS_OFS_OFS : Fld := ⟨0x194, 0, 32, .rw, 0, 4, 1, false⟩
def TB.SCC_SET_SPAN : Fld := ⟨0x700, 0, 8, .ro, 0, 128, 2, false⟩
def TB.SCC_SET_VALID : Fld := ⟨0x700, 8, 1, .ro, 0, 128, 2, false⟩
def TB.SCC_SET_SEQ : Fld := ⟨0x700, 16, 16, .ro, 0, 128, 2, false⟩
def TB.SCC_T1_LO : Fld := ⟨0x704, 0, 32, .ro, 0, 128, 2, false⟩
def TB.SCC_T1_HI : Fld := ⟨0x708, 0, 32, .ro, 0, 128, 2, false⟩
def TB.SCC_T1_FRAC : Fld := ⟨0x70C, 0, 16, .ro, 0, 128, 2, false⟩
def TB.SCC_T2_LO : Fld := ⟨0x710, 0, 32, .ro, 0, 128, 2, false⟩
def TB.SCC_T2_HI : Fld := ⟨0x714, 0, 32, .ro, 0, 128, 2, false⟩
def TB.SCC_T2_FRAC : Fld := ⟨0x718, 0, 16, .ro, 0, 128, 2, false⟩
def TB.SCC_T3_LO : Fld := ⟨0x71C, 0, 32, .ro, 0, 128, 2, false⟩
def TB.SCC_T3_HI : Fld := ⟨0x720, 0, 32, .ro, 0, 128, 2, false⟩
def TB.SCC_T3_FRAC : Fld := ⟨0x724, 0, 16, .ro, 0, 128, 2, false⟩
def TB.SCC_T4_LO : Fld := ⟨0x728, 0, 32, .ro, 0, 128, 2, false⟩
def TB.SCC_T4_HI : Fld := ⟨0x72C, 0, 32, .ro, 0, 128, 2, false⟩
def TB.SCC_T4_FRAC : Fld := ⟨0x730, 0, 16, .ro, 0, 128, 2, false⟩
def TB.SCC_OFS_NS_V : Fld := ⟨0x734, 0, 32, .ro, 0, 128, 2, false⟩
def TB.SCC_OFS_FRAC_V : Fld := ⟨0x738, 0, 16, .ro, 0, 128, 2, false⟩
def TB.SCC_DELAY_NS_V : Fld := ⟨0x73C, 0, 32, .ro, 0, 128, 2, false⟩
def TB.SCC_DELAY_FRAC_V : Fld := ⟨0x740, 0, 16, .ro, 0, 128, 2, false⟩
def TB.PPS_IN_NS_LO : Fld := ⟨0x800, 0, 32, .ro, 0, 4, 1, false⟩
def TB.PPS_IN_NS_HI : Fld := ⟨0x804, 0, 32, .ro, 0, 4, 1, false⟩
def TB.PPS_IN_FRAC : Fld := ⟨0x808, 0, 16, .ro, 0, 4, 1, false⟩
def TB.PPS_IN_SEQ : Fld := ⟨0x808, 16, 16, .ro, 0, 4, 1, false⟩
def TB.STEPS : Fld := ⟨0xC00, 0, 48, .cnt, 0, 8, 4, false⟩
def TB.PPS_IN_CNT : Fld := ⟨0xC20, 0, 48, .cnt, 0, 4, 1, false⟩
def TB.table0 : List Fld := [TB.STATUS_TRIM_SAT, TB.BASE_NS_LO, TB.BASE_NS_HI, TB.BASE_FRAC, TB.SNAP_NS_LO, TB.SNAP_NS_HI, TB.SNAP_FRAC, TB.TRIM, TB.STEP_NS_LO, TB.STEP_NS_HI, TB.STEP_FRAC, TB.CMD_STEP, TB.CMD_SNAP, TB.SCC_CTL_SEL0, TB.SCC_CTL_SEL1, TB.SCC_CTL_EN, TB.LINK_ASYM_ASYM, TB.PPS_CTL_SEL, TB.PPS_CTL_IN_SEL, TB.PPS_CTL_WIDTH, TB.PPS_OFS_OFS, TB.SCC_SET_SPAN, TB.SCC_SET_VALID, TB.SCC_SET_SEQ, TB.SCC_T1_LO, TB.SCC_T1_HI, TB.SCC_T1_FRAC, TB.SCC_T2_LO, TB.SCC_T2_HI, TB.SCC_T2_FRAC, TB.SCC_T3_LO, TB.SCC_T3_HI, TB.SCC_T3_FRAC, TB.SCC_T4_LO, TB.SCC_T4_HI, TB.SCC_T4_FRAC, TB.SCC_OFS_NS_V, TB.SCC_OFS_FRAC_V, TB.SCC_DELAY_NS_V, TB.SCC_DELAY_FRAC_V]
def TB.table1 : List Fld := [TB.PPS_IN_NS_LO, TB.PPS_IN_NS_HI, TB.PPS_IN_FRAC, TB.PPS_IN_SEQ, TB.STEPS, TB.PPS_IN_CNT]
def TB.table : List Fld := TB.table0 ++ TB.table1

/-! Block TLQ: R418. -/
def TLQ.STATUS_COUNT : Fld := ⟨0x30, 0, 8, .ro, 0, 4, 1, false⟩
def TLQ.STATUS_ENQ_BUSY : Fld := ⟨0x30, 8, 1, .ro, 0, 4, 1, false⟩
def TLQ.ENQ_STAT_RESULT : Fld := ⟨0x80, 0, 3, .ro, 0, 4, 1, false⟩
def TLQ.ENQ_STAT_ENTRY : Fld := ⟨0x80, 8, 7, .ro, 0, 4, 1, false⟩
def TLQ.ENQ_STAT_TAG : Fld := ⟨0x80, 16, 16, .ro, 0, 4, 1, false⟩
def TLQ.DONE_WR_WR : Fld := ⟨0x84, 0, 8, .ro, 0, 4, 1, false⟩
def TLQ.CTL_LATE : Fld := ⟨0x100, 0, 16, .rw, 1000, 4, 1, false⟩
def TLQ.CTL_STEP_FLUSH : Fld := ⟨0x100, 16, 1, .rw, 0, 4, 1, false⟩
def TLQ.ENQ_ADDR_ADDR : Fld := ⟨0x104, 0, 26, .rw, 0, 4, 1, false⟩
def TLQ.ENQ_LEN_LEN : Fld := ⟨0x108, 0, 12, .rw, 0, 4, 1, false⟩
def TLQ.ENQ_DEST_NUM : Fld := ⟨0x10C, 0, 5, .rw, 0, 4, 1, false⟩
def TLQ.ENQ_DEST_KIND : Fld := ⟨0x10C, 8, 1, .rw, 0, 4, 1, false⟩
def TLQ.ENQ_DEST_ONESTEP : Fld := ⟨0x10C, 12, 1, .rw, 0, 4, 1, false⟩
def TLQ.ENQ_DEST_TB : Fld := ⟨0x10C, 16, 2, .rw, 0, 4, 1, false⟩
def TLQ.ENQ_TGT_LO_TGT : Fld := ⟨0x110, 0, 32, .rw, 0, 4, 1, false⟩
def TLQ.ENQ_TGT_HI_TGT : Fld := ⟨0x114, 0, 32, .rw, 0, 4, 1, false⟩
def TLQ.ENQ_TAG_TAG : Fld := ⟨0x118, 0, 16, .rw, 0, 4, 1, false⟩
def TLQ.CMD_ENQ : Fld := ⟨0x11C, 0, 1, .wo, 0, 4, 1, false⟩
def TLQ.CMD_FLUSH_ALL : Fld := ⟨0x11C, 1, 1, .wo, 0, 4, 1, false⟩
def TLQ.DONE_RD_RD : Fld := ⟨0x120, 0, 8, .rw, 0, 4, 1, false⟩
def TLQ.DONE_WORD : Fld := ⟨0x700, 0, 32, .ro, 0, 4, 128, false⟩
def TLQ.ENQUEUED : Fld := ⟨0xC00, 0, 48, .cnt, 0, 8, 1, false⟩
def TLQ.LAUNCHED : Fld := ⟨0xC08, 0, 48, .cnt, 0, 8, 1, false⟩
def TLQ.LATE_DROP : Fld := ⟨0xC10, 0, 48, .cnt, 0, 8, 1, false⟩
def TLQ.FLUSHED : Fld := ⟨0xC18, 0, 48, .cnt, 0, 8, 1, false⟩
def TLQ.REFUSED : Fld := ⟨0xC20, 0, 48, .cnt, 0, 8, 1, false⟩
def TLQ.DONE_DROP : Fld := ⟨0xC28, 0, 48, .cnt, 0, 8, 1, false⟩
def TLQ.table : List Fld := [TLQ.STATUS_COUNT, TLQ.STATUS_ENQ_BUSY, TLQ.ENQ_STAT_RESULT, TLQ.ENQ_STAT_ENTRY, TLQ.ENQ_STAT_TAG, TLQ.DONE_WR_WR, TLQ.CTL_LATE, TLQ.CTL_STEP_FLUSH, TLQ.ENQ_ADDR_ADDR, TLQ.ENQ_LEN_LEN, TLQ.ENQ_DEST_NUM, TLQ.ENQ_DEST_KIND, TLQ.ENQ_DEST_ONESTEP, TLQ.ENQ_DEST_TB, TLQ.ENQ_TGT_LO_TGT, TLQ.ENQ_TGT_HI_TGT, TLQ.ENQ_TAG_TAG, TLQ.CMD_ENQ, TLQ.CMD_FLUSH_ALL, TLQ.DONE_RD_RD, TLQ.DONE_WORD, TLQ.ENQUEUED, TLQ.LAUNCHED, TLQ.LATE_DROP, TLQ.FLUSHED, TLQ.REFUSED, TLQ.DONE_DROP]

/-! Block HGL: R446. -/
def HGL.STATUS_LINK : Fld := ⟨0x30, 0, 3, .ro, 0, 4, 1, false⟩
def HGL.STATUS_EC_CONV : Fld := ⟨0x30, 3, 1, .ro, 0, 4, 1, false⟩
def HGL.STATUS_SEC : Fld := ⟨0x30, 4, 1, .ro, 0, 4, 1, false⟩
def HGL.STATUS_REQ_BUSY : Fld := ⟨0x30, 5, 1, .ro, 0, 4, 1, false⟩
def HGL.ID_SEEN_LO_SERIAL : Fld := ⟨0x80, 0, 32, .ro, 0, 4, 1, false⟩
def HGL.ID_SEEN_HI_SERIAL : Fld := ⟨0x84, 0, 32, .ro, 0, 4, 1, false⟩
def HGL.NOISE_FLOOR : Fld := ⟨0x88, 0, 12, .ro, 0, 4, 1, false⟩
def HGL.NOISE_VALID : Fld := ⟨0x88, 16, 1, .ro, 0, 4, 1, false⟩
def HGL.REQ_STAT_RESULT : Fld := ⟨0x8C, 0, 3, .ro, 0, 4, 1, false⟩
def HGL.REQ_STAT_STATUS : Fld := ⟨0x8C, 8, 8, .ro, 0, 4, 1, false⟩
def HGL.CEVT_CODE : Fld := ⟨0x90, 0, 8, .ro, 0, 4, 1, false⟩
def HGL.CEVT_DATA : Fld := ⟨0x90, 16, 16, .ro, 0, 4, 1, false⟩
def HGL.SEC_STAT_STATE : Fld := ⟨0x94, 0, 2, .ro, 0, 4, 1, false⟩
def HGL.SEC_STAT_REASON : Fld := ⟨0x94, 8, 8, .ro, 0, 4, 1, false⟩
def HGL.SEC_STAT_PINNED : Fld := ⟨0x94, 16, 1, .ro, 0, 4, 1, false⟩
def HGL.STAT_HOLD_WHY : Fld := ⟨0x98, 0, 1, .ro, 0, 4, 1, false⟩
def HGL.STAT_TEL_WR : Fld := ⟨0x98, 16, 8, .ro, 0, 4, 1, false⟩
def HGL.CTL_EN : Fld := ⟨0x100, 0, 1, .rw, 0, 4, 1, false⟩
def HGL.CTL_SEC_REQ : Fld := ⟨0x100, 1, 1, .rw, 0, 4, 1, false⟩
def HGL.CTL_ID_AUTO : Fld := ⟨0x100, 2, 1, .rw, 0, 4, 1, false⟩
def HGL.CTL_ROLE : Fld := ⟨0x100, 4, 2, .rw, 0, 4, 1, true⟩
def HGL.CTL_RTO : Fld := ⟨0x100, 8, 8, .rw, 10, 4, 1, false⟩
def HGL.CTL_TMO : Fld := ⟨0x100, 16, 8, .rw, 10, 4, 1, false⟩
def HGL.ID_EXP_LO_SERIAL : Fld := ⟨0x104, 0, 32, .rwp, 0, 4, 1, false⟩
def HGL.ID_EXP_HI_SERIAL : Fld := ⟨0x108, 0, 32, .rwp, 0, 4, 1, false⟩
def HGL.DET_CTL_THR : Fld := ⟨0x10C, 0, 8, .rw, 144, 4, 1, false⟩
def HGL.EC_CTL_MU : Fld := ⟨0x110, 0, 4, .rw, 10, 4, 1, false⟩
def HGL.EC_CTL_FREEZE : Fld := ⟨0x110, 4, 1, .rw, 0, 4, 1, false⟩
def HGL.EC_CTL_RESET : Fld := ⟨0x110, 5, 1, .wo, 0, 4, 1, false⟩
def HGL.REQ_ADDR_ADDR : Fld := ⟨0x114, 0, 32, .rw, 0, 4, 1, false⟩
def HGL.REQ_CTL_OP : Fld := ⟨0x118, 0, 2, .rw, 1, 4, 1, false⟩
def HGL.REQ_CTL_COUNT : Fld := ⟨0x118, 8, 5, .rw, 1, 4, 1, false⟩
def HGL.REQ_CTL_GO : Fld := ⟨0x118, 16, 1, .wo, 0, 4, 1, false⟩
def HGL.CMD_ACCEPT : Fld := ⟨0x11C, 0, 1, .wo, 0, 4, 1, false⟩
def HGL.CMD_RETRAIN : Fld := ⟨0x11C, 1, 1, .wo, 0, 4, 1, false⟩
def HGL.CMD_NOISE_CLR : Fld := ⟨0x11C, 2, 1, .wo, 0, 4, 1, false⟩
def HGL.TEL_BASE_ADDR : Fld := ⟨0x120, 0, 26, .rw, 0, 4, 1, false⟩
def HGL.TEL_RD_RD : Fld := ⟨0x124, 0, 8, .rw, 0, 4, 1, false⟩
def HGL.TMD_SPAN_LO_SPAN : Fld := ⟨0x180, 0, 32, .rw, 0, 4, 1, false⟩
def HGL.TMD_SPAN_HI_SPAN : Fld := ⟨0x184, 0, 16, .rw, 0, 4, 1, false⟩
def HGL.TMD_SPAN_HI_FRAME : Fld := ⟨0x184, 16, 12, .rw, 0, 4, 1, false⟩
def HGL.TMD_SPAN_HI_PORT : Fld := ⟨0x184, 28, 1, .rw, 0, 4, 1, false⟩
def HGL.TMD_SPAN_HI_CNT : Fld := ⟨0x184, 29, 1, .rw, 0, 4, 1, false⟩
def HGL.TMD_CTL_HANDLE : Fld := ⟨0x188, 0, 4, .rw, 0, 4, 1, false⟩
def HGL.TMD_CTL_LEAD : Fld := ⟨0x188, 8, 8, .rw, 20, 4, 1, false⟩
def HGL.TMD_CTL_NWRITE : Fld := ⟨0x188, 16, 4, .rw, 1, 4, 1, false⟩
def HGL.TMD_CTL_GO : Fld := ⟨0x188, 31, 1, .wo, 0, 4, 1, false⟩
def HGL.REQ_DATA_DATA : Fld := ⟨0x700, 0, 32, .rw, 0, 4, 16, false⟩
def HGL.TMD_BODY_WORD : Fld := ⟨0x740, 0, 32, .rw, 0, 4, 16, false⟩
def HGL.TMD_STAT_STATE : Fld := ⟨0x800, 0, 3, .ro, 0, 4, 16, false⟩
def HGL.TMD_STAT_OUTCOME : Fld := ⟨0x800, 4, 4, .ro, 0, 4, 16, false⟩
def HGL.TMD_STAT_STATUS : Fld := ⟨0x800, 8, 8, .ro, 0, 4, 16, false⟩
def HGL.PKT_TX : Fld := ⟨0xC00, 0, 48, .cnt, 0, 8, 1, false⟩
def HGL.PKT_RX : Fld := ⟨0xC08, 0, 48, .cnt, 0, 8, 1, false⟩
def HGL.FALSE_PREAMBLE : Fld := ⟨0xC10, 0, 48, .cnt, 0, 8, 1, false⟩
def HGL.PREEMPT : Fld := ⟨0xC18, 0, 48, .cnt, 0, 8, 1, false⟩
def HGL.HDR_ERR : Fld := ⟨0xC20, 0, 48, .cnt, 0, 8, 1, false⟩
def HGL.CW_FAIL : Fld := ⟨0xC28, 0, 48, .cnt, 0, 8, 1, false⟩
def HGL.BAD_PKT : Fld := ⟨0xC30, 0, 48, .cnt, 0, 8, 1, false⟩
def HGL.RETX : Fld := ⟨0xC38, 0, 48, .cnt, 0, 8, 1, false⟩
def HGL.SEQ_GAP : Fld := ⟨0xC40, 0, 48, .cnt, 0, 8, 1, false⟩
def HGL.TEL_DROP : Fld := ⟨0xC48, 0, 48, .cnt, 0, 8, 1, false⟩
def HGL.SEC_FAIL : Fld := ⟨0xC50, 0, 48, .cnt, 0, 8, 1, false⟩
def HGL.table0 : List Fld := [HGL.STATUS_LINK, HGL.STATUS_EC_CONV, HGL.STATUS_SEC, HGL.STATUS_REQ_BUSY, HGL.ID_SEEN_LO_SERIAL, HGL.ID_SEEN_HI_SERIAL, HGL.NOISE_FLOOR, HGL.NOISE_VALID, HGL.REQ_STAT_RESULT, HGL.REQ_STAT_STATUS, HGL.CEVT_CODE, HGL.CEVT_DATA, HGL.SEC_STAT_STATE, HGL.SEC_STAT_REASON, HGL.SEC_STAT_PINNED, HGL.STAT_HOLD_WHY, HGL.STAT_TEL_WR, HGL.CTL_EN, HGL.CTL_SEC_REQ, HGL.CTL_ID_AUTO, HGL.CTL_ROLE, HGL.CTL_RTO, HGL.CTL_TMO, HGL.ID_EXP_LO_SERIAL, HGL.ID_EXP_HI_SERIAL, HGL.DET_CTL_THR, HGL.EC_CTL_MU, HGL.EC_CTL_FREEZE, HGL.EC_CTL_RESET, HGL.REQ_ADDR_ADDR, HGL.REQ_CTL_OP, HGL.REQ_CTL_COUNT, HGL.REQ_CTL_GO, HGL.CMD_ACCEPT, HGL.CMD_RETRAIN, HGL.CMD_NOISE_CLR, HGL.TEL_BASE_ADDR, HGL.TEL_RD_RD, HGL.TMD_SPAN_LO_SPAN, HGL.TMD_SPAN_HI_SPAN]
def HGL.table1 : List Fld := [HGL.TMD_SPAN_HI_FRAME, HGL.TMD_SPAN_HI_PORT, HGL.TMD_SPAN_HI_CNT, HGL.TMD_CTL_HANDLE, HGL.TMD_CTL_LEAD, HGL.TMD_CTL_NWRITE, HGL.TMD_CTL_GO, HGL.REQ_DATA_DATA, HGL.TMD_BODY_WORD, HGL.TMD_STAT_STATE, HGL.TMD_STAT_OUTCOME, HGL.TMD_STAT_STATUS, HGL.PKT_TX, HGL.PKT_RX, HGL.FALSE_PREAMBLE, HGL.PREEMPT, HGL.HDR_ERR, HGL.CW_FAIL, HGL.BAD_PKT, HGL.RETX, HGL.SEQ_GAP, HGL.TEL_DROP, HGL.SEC_FAIL]
def HGL.table : List Fld := HGL.table0 ++ HGL.table1

/-! Block TCV: R469. -/
def TCV.STATUS_RUN : Fld := ⟨0x30, 0, 1, .ro, 0, 4, 1, false⟩
def TCV.STATUS_REF_READY : Fld := ⟨0x30, 1, 1, .ro, 0, 4, 1, false⟩
def TCV.STATUS_CAL_BUSY : Fld := ⟨0x30, 2, 1, .ro, 0, 4, 1, false⟩
def TCV.STATUS_INJ_PEND : Fld := ⟨0x30, 3, 1, .ro, 0, 4, 1, false⟩
def TCV.STATUS_ENTRY : Fld := ⟨0x30, 4, 5, .ro, 0, 4, 1, false⟩
def TCV.STATUS_IN_DELAY : Fld := ⟨0x30, 9, 1, .ro, 0, 4, 1, false⟩
def TCV.Q_STAT_LEVEL : Fld := ⟨0x80, 0, 10, .ro, 0, 4, 1, false⟩
def TCV.Q_HEAD_ENTRY : Fld := ⟨0x84, 0, 32, .ro, 262144, 4, 1, false⟩
def TCV.CAL_STAT_RESULT : Fld := ⟨0x88, 0, 2, .ro, 0, 4, 1, false⟩
def TCV.CTL_REF_EN : Fld := ⟨0x100, 0, 1, .rw, 0, 4, 1, false⟩
def TCV.CTL_SCAN_EN : Fld := ⟨0x100, 1, 1, .rw, 0, 4, 1, false⟩
def TCV.CTL_LAST : Fld := ⟨0x100, 4, 5, .rw, 0, 4, 1, false⟩
def TCV.CTL_CAL : Fld := ⟨0x100, 16, 1, .wo, 0, 4, 1, false⟩
def TCV.CTL_Q_FLUSH : Fld := ⟨0x100, 17, 1, .wo, 0, 4, 1, false⟩
def TCV.INJ_CH : Fld := ⟨0x104, 0, 6, .rw, 0, 4, 1, false⟩
def TCV.INJ_PROFILE : Fld := ⟨0x104, 8, 2, .rw, 0, 4, 1, false⟩
def TCV.INJ_GO : Fld := ⟨0x104, 16, 1, .wo, 0, 4, 1, false⟩
def TCV.Q_THR_THR : Fld := ⟨0x108, 0, 10, .rw, 256, 4, 1, false⟩
def TCV.CAL_OFS_OFS : Fld := ⟨0x10C, 0, 16, .rw, 0, 4, 1, false⟩
def TCV.CAL_GAIN_GAIN : Fld := ⟨0x110, 0, 16, .rw, 32768, 4, 1, false⟩
def TCV.PROF_A_DEC : Fld := ⟨0x120, 0, 9, .rw, 16, 8, 4, false⟩
def TCV.PROF_A_HB : Fld := ⟨0x120, 9, 2, .rw, 2, 8, 4, false⟩
def TCV.PROF_A_FIR : Fld := ⟨0x120, 12, 2, .rw, 1, 8, 4, false⟩
def TCV.PROF_A_DCB_EN : Fld := ⟨0x120, 16, 1, .rw, 0, 8, 4, false⟩
def TCV.PROF_A_DCB_FRZ : Fld := ⟨0x120, 17, 1, .rw, 0, 8, 4, false⟩
def TCV.PROF_A_SCS : Fld := ⟨0x120, 18, 1, .rw, 0, 8, 4, false⟩
def TCV.PROF_A_DCB_K : Fld := ⟨0x120, 20, 4, .rw, 8, 8, 4, false⟩
def TCV.PROF_B_SH_SINC : Fld := ⟨0x124, 0, 4, .rw, 0, 8, 4, false⟩
def TCV.PROF_B_SH_HB1 : Fld := ⟨0x124, 4, 4, .rw, 0, 8, 4, false⟩
def TCV.PROF_B_SH_HB2 : Fld := ⟨0x124, 8, 4, .rw, 0, 8, 4, false⟩
def TCV.PROF_B_SH_FIR : Fld := ⟨0x124, 12, 4, .rw, 0, 8, 4, false⟩
def TCV.PROF_B_SH_DCB : Fld := ⟨0x124, 16, 4, .rw, 0, 8, 4, false⟩
def TCV.SCAN_CH : Fld := ⟨0x700, 0, 6, .rw, 0, 8, 32, false⟩
def TCV.SCAN_PROFILE : Fld := ⟨0x700, 8, 2, .rw, 0, 8, 32, false⟩
def TCV.SCAN_REPEAT : Fld := ⟨0x700, 16, 8, .rw, 0, 8, 32, false⟩
def TCV.SCAN1_DELAY : Fld := ⟨0x704, 0, 16, .rw, 0, 8, 32, false⟩
def TCV.FIR_C0 : Fld := ⟨0x800, 0, 16, .rw, 0, 4, 128, false⟩
def TCV.FIR_C1 : Fld := ⟨0x800, 16, 16, .rw, 0, 4, 128, false⟩
def TCV.RESULTS : Fld := ⟨0xC00, 0, 48, .cnt, 0, 8, 1, false⟩
def TCV.INJ_DROP : Fld := ⟨0xC08, 0, 48, .cnt, 0, 8, 1, false⟩
def TCV.Q_DROP : Fld := ⟨0xC10, 0, 48, .cnt, 0, 8, 1, false⟩
def TCV.OVR : Fld := ⟨0xC18, 0, 48, .cnt, 0, 8, 1, false⟩
def TCV.SAT_SINC : Fld := ⟨0xC20, 0, 48, .cnt, 0, 8, 1, false⟩
def TCV.SAT_HB1 : Fld := ⟨0xC28, 0, 48, .cnt, 0, 8, 1, false⟩
def TCV.SAT_HB2 : Fld := ⟨0xC30, 0, 48, .cnt, 0, 8, 1, false⟩
def TCV.SAT_FIR : Fld := ⟨0xC38, 0, 48, .cnt, 0, 8, 1, false⟩
def TCV.SAT_DCB : Fld := ⟨0xC40, 0, 48, .cnt, 0, 8, 1, false⟩
def TCV.STALE : Fld := ⟨0xC48, 0, 48, .cnt, 0, 8, 1, false⟩
def TCV.LOOPS : Fld := ⟨0xC50, 0, 48, .cnt, 0, 8, 1, false⟩
def TCV.table0 : List Fld := [TCV.STATUS_RUN, TCV.STATUS_REF_READY, TCV.STATUS_CAL_BUSY, TCV.STATUS_INJ_PEND, TCV.STATUS_ENTRY, TCV.STATUS_IN_DELAY, TCV.Q_STAT_LEVEL, TCV.Q_HEAD_ENTRY, TCV.CAL_STAT_RESULT, TCV.CTL_REF_EN, TCV.CTL_SCAN_EN, TCV.CTL_LAST, TCV.CTL_CAL, TCV.CTL_Q_FLUSH, TCV.INJ_CH, TCV.INJ_PROFILE, TCV.INJ_GO, TCV.Q_THR_THR, TCV.CAL_OFS_OFS, TCV.CAL_GAIN_GAIN, TCV.PROF_A_DEC, TCV.PROF_A_HB, TCV.PROF_A_FIR, TCV.PROF_A_DCB_EN, TCV.PROF_A_DCB_FRZ, TCV.PROF_A_SCS, TCV.PROF_A_DCB_K, TCV.PROF_B_SH_SINC, TCV.PROF_B_SH_HB1, TCV.PROF_B_SH_HB2, TCV.PROF_B_SH_FIR, TCV.PROF_B_SH_DCB, TCV.SCAN_CH, TCV.SCAN_PROFILE, TCV.SCAN_REPEAT, TCV.SCAN1_DELAY, TCV.FIR_C0, TCV.FIR_C1, TCV.RESULTS, TCV.INJ_DROP]
def TCV.table1 : List Fld := [TCV.Q_DROP, TCV.OVR, TCV.SAT_SINC, TCV.SAT_HB1, TCV.SAT_HB2, TCV.SAT_FIR, TCV.SAT_DCB, TCV.STALE, TCV.LOOPS]
def TCV.table : List Fld := TCV.table0 ++ TCV.table1

/-! Block CAL: R486. -/
def CAL.STATUS_WIN_OPEN : Fld := ⟨0x30, 0, 2, .ro, 0, 4, 1, false⟩
def CAL.STATUS_VREF_OK : Fld := ⟨0x30, 2, 1, .ro, 1, 4, 1, false⟩
def CAL.STATUS_TCV_STALE : Fld := ⟨0x30, 3, 1, .ro, 0, 4, 1, false⟩
def CAL.STATUS_HG_PEND : Fld := ⟨0x30, 4, 4, .ro, 0, 4, 1, false⟩
def CAL.STATUS_TCV_BUSY : Fld := ⟨0x30, 8, 1, .ro, 0, 4, 1, false⟩
def CAL.VREF_CODE : Fld := ⟨0x80, 0, 16, .ro, 0, 4, 1, false⟩
def CAL.VREF_DEV : Fld := ⟨0x80, 16, 16, .ro, 0, 4, 1, false⟩
def CAL.TCV_LAST_TEMP : Fld := ⟨0x84, 0, 16, .ro, 0, 4, 1, false⟩
def CAL.TCV_LAST_TRIES : Fld := ⟨0x84, 16, 3, .ro, 0, 4, 1, false⟩
def CAL.TCV_LAST_SUSPECT : Fld := ⟨0x84, 24, 1, .ro, 0, 4, 1, false⟩
def CAL.TCV_AGE_MS : Fld := ⟨0x88, 0, 32, .ro, 0, 4, 1, false⟩
def CAL.HG_SEL : Fld := ⟨0x90, 0, 3, .ro, 0, 4, 4, false⟩
def CAL.HG_NEXT : Fld := ⟨0x90, 4, 3, .ro, 0, 4, 4, false⟩
def CAL.HG_PEND : Fld := ⟨0x90, 7, 1, .ro, 0, 4, 4, false⟩
def CAL.HG_SUSPECT : Fld := ⟨0x90, 8, 1, .ro, 0, 4, 4, false⟩
def CAL.HG_ECHO : Fld := ⟨0x90, 16, 12, .ro, 0, 4, 4, false⟩
def CAL.TRACE_DPLL0 : Fld := ⟨0xA0, 0, 2, .ro, 0, 4, 1, false⟩
def CAL.TRACE_DPLL1 : Fld := ⟨0xA0, 2, 2, .ro, 0, 4, 1, false⟩
def CAL.TRACE_REF0 : Fld := ⟨0xA0, 4, 3, .ro, 0, 4, 1, false⟩
def CAL.TRACE_REF1 : Fld := ⟨0xA0, 8, 3, .ro, 0, 4, 1, false⟩
def CAL.TRACE_VREF0 : Fld := ⟨0xA0, 12, 1, .ro, 0, 4, 1, false⟩
def CAL.TRACE_VREF1 : Fld := ⟨0xA0, 13, 1, .ro, 0, 4, 1, false⟩
def CAL.CTL_TCV_AUTO : Fld := ⟨0x100, 0, 1, .rw, 1, 4, 1, false⟩
def CAL.CTL_HG_AUTO : Fld := ⟨0x100, 1, 1, .rw, 1, 4, 1, false⟩
def CAL.CTL_VREF_CHK : Fld := ⟨0x100, 2, 1, .rw, 1, 4, 1, false⟩
def CAL.CTL_TCV_IDLE_ONLY : Fld := ⟨0x100, 3, 1, .rw, 1, 4, 1, false⟩
def CAL.CTL_TCV_DT : Fld := ⟨0x100, 4, 8, .rw, 50, 4, 1, false⟩
def CAL.CTL_TCV_AGE : Fld := ⟨0x100, 12, 6, .rw, 30, 4, 1, false⟩
def CAL.CTL_TCV_DEFER : Fld := ⟨0x100, 20, 8, .rw, 10, 4, 1, false⟩
def CAL.CMD_TCV_START : Fld := ⟨0x104, 0, 1, .wo, 0, 4, 1, false⟩
def CAL.CMD_HG_START : Fld := ⟨0x104, 1, 4, .wo, 0, 4, 1, false⟩
def CAL.CMD_HG_APPLY : Fld := ⟨0x104, 5, 4, .wo, 0, 4, 1, false⟩
def CAL.HG_CTL_THR : Fld := ⟨0x108, 0, 12, .rw, 3646, 4, 1, false⟩
def CAL.HG_CTL_AGE : Fld := ⟨0x108, 16, 6, .rw, 60, 4, 1, false⟩
def CAL.WIN_START_LO_START : Fld := ⟨0x110, 0, 32, .rw, 0, 16, 2, false⟩
def CAL.WIN_START_HI_START : Fld := ⟨0x114, 0, 16, .rw, 0, 16, 2, false⟩
def CAL.WIN_CTL_PERIOD : Fld := ⟨0x118, 0, 16, .rw, 0, 16, 2, false⟩
def CAL.WIN_CTL_LEN : Fld := ⟨0x118, 16, 8, .rw, 1, 16, 2, false⟩
def CAL.WIN_CTL_EN : Fld := ⟨0x118, 31, 1, .rw, 0, 16, 2, false⟩
def CAL.WIN_GRANTS0 : Fld := ⟨0xC00, 0, 48, .cnt, 0, 8, 1, false⟩
def CAL.WIN_GRANTS1 : Fld := ⟨0xC08, 0, 48, .cnt, 0, 8, 1, false⟩
def CAL.TCV_RUNS : Fld := ⟨0xC10, 0, 48, .cnt, 0, 8, 1, false⟩
def CAL.TCV_FAILS : Fld := ⟨0xC18, 0, 48, .cnt, 0, 8, 1, false⟩
def CAL.HG_RUNS : Fld := ⟨0xC20, 0, 48, .cnt, 0, 8, 1, false⟩
def CAL.HG_DISAGREE : Fld := ⟨0xC28, 0, 48, .cnt, 0, 8, 1, false⟩
def CAL.HG_APPLIED : Fld := ⟨0xC30, 0, 48, .cnt, 0, 8, 1, false⟩
def CAL.VREF_BAD : Fld := ⟨0xC38, 0, 48, .cnt, 0, 8, 1, false⟩
def CAL.table0 : List Fld := [CAL.STATUS_WIN_OPEN, CAL.STATUS_VREF_OK, CAL.STATUS_TCV_STALE, CAL.STATUS_HG_PEND, CAL.STATUS_TCV_BUSY, CAL.VREF_CODE, CAL.VREF_DEV, CAL.TCV_LAST_TEMP, CAL.TCV_LAST_TRIES, CAL.TCV_LAST_SUSPECT, CAL.TCV_AGE_MS, CAL.HG_SEL, CAL.HG_NEXT, CAL.HG_PEND, CAL.HG_SUSPECT, CAL.HG_ECHO, CAL.TRACE_DPLL0, CAL.TRACE_DPLL1, CAL.TRACE_REF0, CAL.TRACE_REF1, CAL.TRACE_VREF0, CAL.TRACE_VREF1, CAL.CTL_TCV_AUTO, CAL.CTL_HG_AUTO, CAL.CTL_VREF_CHK, CAL.CTL_TCV_IDLE_ONLY, CAL.CTL_TCV_DT, CAL.CTL_TCV_AGE, CAL.CTL_TCV_DEFER, CAL.CMD_TCV_START, CAL.CMD_HG_START, CAL.CMD_HG_APPLY, CAL.HG_CTL_THR, CAL.HG_CTL_AGE, CAL.WIN_START_LO_START, CAL.WIN_START_HI_START, CAL.WIN_CTL_PERIOD, CAL.WIN_CTL_LEN, CAL.WIN_CTL_EN, CAL.WIN_GRANTS0]
def CAL.table1 : List Fld := [CAL.WIN_GRANTS1, CAL.TCV_RUNS, CAL.TCV_FAILS, CAL.HG_RUNS, CAL.HG_DISAGREE, CAL.HG_APPLIED, CAL.VREF_BAD]
def CAL.table : List Fld := CAL.table0 ++ CAL.table1

/-! Block MBX: R514. -/
def MBX.STATUS_RUN : Fld := ⟨0x30, 0, 1, .ro, 0, 4, 1, false⟩
def MBX.STATUS_CMD_STALL : Fld := ⟨0x30, 1, 1, .ro, 0, 4, 1, false⟩
def MBX.STATUS_NTF_FULL : Fld := ⟨0x30, 2, 1, .ro, 0, 4, 1, false⟩
def MBX.STATUS_RESYNC_BUSY : Fld := ⟨0x30, 3, 1, .ro, 0, 4, 1, false⟩
def MBX.CMD_CONSUMED_SEQ : Fld := ⟨0x80, 0, 16, .ro, 0, 4, 1, false⟩
def MBX.CMD_DONE_SEQ : Fld := ⟨0x84, 0, 16, .ro, 0, 4, 1, false⟩
def MBX.NTF_WRITTEN_SEQ : Fld := ⟨0x88, 0, 16, .ro, 0, 4, 1, false⟩
def MBX.STAT_PERST_SEEN : Fld := ⟨0x8C, 0, 1, .w1c, 0, 4, 1, false⟩
def MBX.STAT_BACKLOG : Fld := ⟨0x8C, 8, 7, .ro, 0, 4, 1, false⟩
def MBX.RESYNC_STAT_RESULT : Fld := ⟨0x90, 0, 2, .ro, 0, 4, 1, false⟩
def MBX.RESYNC_STAT_COUNT : Fld := ⟨0x90, 16, 16, .ro, 0, 4, 1, false⟩
def MBX.CMD_BASE_LO_BASE : Fld := ⟨0x100, 12, 20, .rw, 0, 4, 1, false⟩
def MBX.CMD_BASE_HI_BASE : Fld := ⟨0x104, 0, 32, .rw, 0, 4, 1, false⟩
def MBX.NTF_BASE_LO_BASE : Fld := ⟨0x108, 12, 20, .rw, 0, 4, 1, false⟩
def MBX.NTF_BASE_HI_BASE : Fld := ⟨0x10C, 0, 32, .rw, 0, 4, 1, false⟩
def MBX.HEAD_BASE_LO_BASE : Fld := ⟨0x110, 6, 26, .rw, 0, 4, 1, false⟩
def MBX.HEAD_BASE_HI_BASE : Fld := ⟨0x114, 0, 32, .rw, 0, 4, 1, false⟩
def MBX.CTL_EN : Fld := ⟨0x118, 0, 1, .rw, 0, 4, 1, false⟩
def MBX.CTL_COALESCE : Fld := ⟨0x118, 8, 8, .rw, 0, 4, 1, false⟩
def MBX.CMD_DB_TAIL : Fld := ⟨0x11C, 0, 16, .rw, 0, 4, 1, false⟩
def MBX.NTF_ACK_SEQ : Fld := ⟨0x120, 0, 16, .rw, 0, 4, 1, false⟩
def MBX.RESYNC_ADDR_LO_ADDR : Fld := ⟨0x124, 12, 20, .rw, 0, 4, 1, false⟩
def MBX.RESYNC_ADDR_HI_ADDR : Fld := ⟨0x128, 0, 32, .rw, 0, 4, 1, false⟩
def MBX.RESYNC_CMD_GO : Fld := ⟨0x12C, 0, 1, .wo, 0, 4, 1, false⟩
def MBX.CMDS : Fld := ⟨0xC00, 0, 48, .cnt, 0, 8, 1, false⟩
def MBX.NTFS : Fld := ⟨0xC08, 0, 48, .cnt, 0, 8, 1, false⟩
def MBX.NTF_LOST : Fld := ⟨0xC10, 0, 48, .cnt, 0, 8, 1, false⟩
def MBX.SEQ_ERR : Fld := ⟨0xC18, 0, 48, .cnt, 0, 8, 1, false⟩
def MBX.RING_ERR : Fld := ⟨0xC20, 0, 48, .cnt, 0, 8, 1, false⟩
def MBX.RESYNCS : Fld := ⟨0xC28, 0, 48, .cnt, 0, 8, 1, false⟩
def MBX.table : List Fld := [MBX.STATUS_RUN, MBX.STATUS_CMD_STALL, MBX.STATUS_NTF_FULL, MBX.STATUS_RESYNC_BUSY, MBX.CMD_CONSUMED_SEQ, MBX.CMD_DONE_SEQ, MBX.NTF_WRITTEN_SEQ, MBX.STAT_PERST_SEEN, MBX.STAT_BACKLOG, MBX.RESYNC_STAT_RESULT, MBX.RESYNC_STAT_COUNT, MBX.CMD_BASE_LO_BASE, MBX.CMD_BASE_HI_BASE, MBX.NTF_BASE_LO_BASE, MBX.NTF_BASE_HI_BASE, MBX.HEAD_BASE_LO_BASE, MBX.HEAD_BASE_HI_BASE, MBX.CTL_EN, MBX.CTL_COALESCE, MBX.CMD_DB_TAIL, MBX.NTF_ACK_SEQ, MBX.RESYNC_ADDR_LO_ADDR, MBX.RESYNC_ADDR_HI_ADDR, MBX.RESYNC_CMD_GO, MBX.CMDS, MBX.NTFS, MBX.NTF_LOST, MBX.SEQ_ERR, MBX.RING_ERR, MBX.RESYNCS]

/-! Block MGMT: R516. -/
def MGMT.STATUS_CORE_RUN : Fld := ⟨0x30, 0, 4, .ro, 0, 4, 1, false⟩
def MGMT.STATUS_CORE_FAULT : Fld := ⟨0x30, 4, 4, .ro, 0, 4, 1, false⟩
def MGMT.STATUS_RT_ALIVE : Fld := ⟨0x30, 8, 1, .ro, 0, 4, 1, false⟩
def MGMT.STATUS_CHECK_BUSY : Fld := ⟨0x30, 9, 1, .ro, 0, 4, 1, false⟩
def MGMT.HEARTBEAT_COUNT : Fld := ⟨0x80, 0, 32, .rw, 0, 4, 1, false⟩
def MGMT.DIR_ENTRIES : Fld := ⟨0x84, 0, 9, .ro, 0, 4, 1, false⟩
def MGMT.DIR_LOCKED : Fld := ⟨0x84, 16, 1, .ro, 0, 4, 1, false⟩
def MGMT.CHECK_LAST_ENGINE : Fld := ⟨0x88, 0, 8, .ro, 0, 4, 1, false⟩
def MGMT.CHECK_LAST_PASS : Fld := ⟨0x88, 8, 1, .ro, 0, 4, 1, false⟩
def MGMT.CTL_HB_TMO : Fld := ⟨0x100, 0, 8, .rw, 100, 4, 1, false⟩
def MGMT.RECIPE_DIR_ID : Fld := ⟨0x700, 0, 16, .ro, 0, 4, 256, false⟩
def MGMT.RECIPE_DIR_VERSION : Fld := ⟨0x700, 16, 16, .ro, 0, 4, 256, false⟩
def MGMT.CORE_FAULTS : Fld := ⟨0xC00, 0, 48, .cnt, 0, 8, 1, false⟩
def MGMT.CHECKS : Fld := ⟨0xC08, 0, 48, .cnt, 0, 8, 1, false⟩
def MGMT.CHECK_FAIL : Fld := ⟨0xC10, 0, 48, .cnt, 0, 8, 1, false⟩
def MGMT.HB_MISSES : Fld := ⟨0xC18, 0, 48, .cnt, 0, 8, 1, false⟩
def MGMT.table : List Fld := [MGMT.STATUS_CORE_RUN, MGMT.STATUS_CORE_FAULT, MGMT.STATUS_RT_ALIVE, MGMT.STATUS_CHECK_BUSY, MGMT.HEARTBEAT_COUNT, MGMT.DIR_ENTRIES, MGMT.DIR_LOCKED, MGMT.CHECK_LAST_ENGINE, MGMT.CHECK_LAST_PASS, MGMT.CTL_HB_TMO, MGMT.RECIPE_DIR_ID, MGMT.RECIPE_DIR_VERSION, MGMT.CORE_FAULTS, MGMT.CHECKS, MGMT.CHECK_FAIL, MGMT.HB_MISSES]

/-! Block PIER: R518. -/
def PIER.STATUS_RUN : Fld := ⟨0x30, 0, 16, .ro, 0, 4, 1, false⟩
def PIER.CLUSTER_KIND : Fld := ⟨0x80, 0, 2, .ro, 0, 4, 1, true⟩
def PIER.CLUSTER_DIE : Fld := ⟨0x80, 4, 2, .ro, 0, 4, 1, true⟩
def PIER.CLUSTER_POWERED : Fld := ⟨0x80, 8, 1, .ro, 0, 4, 1, false⟩
def PIER.FAULT_ENG : Fld := ⟨0x84, 0, 16, .w1c, 0, 4, 1, false⟩
def PIER.EVQ_OVF_ENG : Fld := ⟨0x88, 0, 16, .w1c, 0, 4, 1, false⟩
def PIER.CMD_ENG : Fld := ⟨0x100, 0, 4, .wo, 0, 4, 1, false⟩
def PIER.CMD_START : Fld := ⟨0x100, 8, 1, .wo, 0, 4, 1, false⟩
def PIER.CMD_HALT : Fld := ⟨0x100, 9, 1, .wo, 0, 4, 1, false⟩
def PIER.CMD_RESET : Fld := ⟨0x100, 10, 1, .wo, 0, 4, 1, false⟩
def PIER.CTL_WDT : Fld := ⟨0x104, 0, 8, .rw, 10, 4, 1, false⟩
def PIER.ENG_STATE : Fld := ⟨0x700, 0, 3, .ro, 0, 16, 16, false⟩
def PIER.ENG_FAULT : Fld := ⟨0x700, 4, 4, .ro, 0, 16, 16, false⟩
def PIER.ENG_EVQ : Fld := ⟨0x700, 8, 5, .ro, 0, 16, 16, false⟩
def PIER.ENG_UNCHECKED : Fld := ⟨0x700, 13, 1, .ro, 0, 16, 16, false⟩
def PIER.ENG1_RECIPE : Fld := ⟨0x704, 0, 16, .rw, 0, 16, 16, false⟩
def PIER.ENG1_VERSION : Fld := ⟨0x704, 16, 16, .ro, 0, 16, 16, false⟩
def PIER.ENG2_PC : Fld := ⟨0x708, 0, 14, .ro, 0, 16, 16, false⟩
def PIER.FAULTS : Fld := ⟨0xC00, 0, 48, .cnt, 0, 8, 1, false⟩
def PIER.EVQ_DROP : Fld := ⟨0xC08, 0, 48, .cnt, 0, 8, 1, false⟩
def PIER.STARTS : Fld := ⟨0xC10, 0, 48, .cnt, 0, 8, 1, false⟩
def PIER.WDT : Fld := ⟨0xC18, 0, 48, .cnt, 0, 8, 1, false⟩
def PIER.CODE_WR_DROP : Fld := ⟨0xC20, 0, 48, .cnt, 0, 8, 1, false⟩
def PIER.table : List Fld := [PIER.STATUS_RUN, PIER.CLUSTER_KIND, PIER.CLUSTER_DIE, PIER.CLUSTER_POWERED, PIER.FAULT_ENG, PIER.EVQ_OVF_ENG, PIER.CMD_ENG, PIER.CMD_START, PIER.CMD_HALT, PIER.CMD_RESET, PIER.CTL_WDT, PIER.ENG_STATE, PIER.ENG_FAULT, PIER.ENG_EVQ, PIER.ENG_UNCHECKED, PIER.ENG1_RECIPE, PIER.ENG1_VERSION, PIER.ENG2_PC, PIER.FAULTS, PIER.EVQ_DROP, PIER.STARTS, PIER.WDT, PIER.CODE_WR_DROP]

/-! Block QMC: R539. -/
def QMC.STATUS_TRAINED : Fld := ⟨0x30, 0, 1, .ro, 0, 4, 1, false⟩
def QMC.STATUS_FILL_DONE : Fld := ⟨0x30, 1, 1, .ro, 0, 4, 1, false⟩
def QMC.STATUS_OFFLINE : Fld := ⟨0x30, 2, 1, .ro, 0, 4, 1, false⟩
def QMC.UE_ADDR_WORD : Fld := ⟨0x80, 0, 21, .ro, 0, 4, 1, false⟩
def QMC.UE_INFO_SYND : Fld := ⟨0x84, 0, 8, .ro, 0, 4, 1, false⟩
def QMC.UE_INFO_KIND : Fld := ⟨0x84, 8, 2, .ro, 0, 4, 1, false⟩
def QMC.UE_INFO_REQ : Fld := ⟨0x84, 12, 3, .ro, 0, 4, 1, false⟩
def QMC.CE_ADDR_WORD : Fld := ⟨0x88, 0, 21, .ro, 0, 4, 1, false⟩
def QMC.CE_INFO_SYND : Fld := ⟨0x8C, 0, 8, .ro, 0, 4, 1, false⟩
def QMC.SCRUB_POS_WORD : Fld := ⟨0x90, 0, 21, .ro, 0, 4, 1, false⟩
def QMC.CTL_LINK_THR : Fld := ⟨0x100, 8, 8, .rw, 16, 4, 1, false⟩
def QMC.CTL_RETRAIN : Fld := ⟨0x100, 16, 1, .wo, 0, 4, 1, false⟩
def QMC.READS : Fld := ⟨0xC00, 0, 48, .cnt, 0, 8, 1, false⟩
def QMC.WRITES : Fld := ⟨0xC08, 0, 48, .cnt, 0, 8, 1, false⟩
def QMC.CE : Fld := ⟨0xC10, 0, 48, .cnt, 0, 8, 1, false⟩
def QMC.UE : Fld := ⟨0xC18, 0, 48, .cnt, 0, 8, 1, false⟩
def QMC.REREADS : Fld := ⟨0xC20, 0, 48, .cnt, 0, 8, 1, false⟩
def QMC.LINK_ERR : Fld := ⟨0xC28, 0, 48, .cnt, 0, 8, 1, false⟩
def QMC.POISONED : Fld := ⟨0xC30, 0, 48, .cnt, 0, 8, 1, false⟩
def QMC.MERGE_DRAINS : Fld := ⟨0xC38, 0, 48, .cnt, 0, 8, 1, false⟩
def QMC.SCRUB_WORDS : Fld := ⟨0xC40, 0, 48, .cnt, 0, 8, 1, false⟩
def QMC.table : List Fld := [QMC.STATUS_TRAINED, QMC.STATUS_FILL_DONE, QMC.STATUS_OFFLINE, QMC.UE_ADDR_WORD, QMC.UE_INFO_SYND, QMC.UE_INFO_KIND, QMC.UE_INFO_REQ, QMC.CE_ADDR_WORD, QMC.CE_INFO_SYND, QMC.SCRUB_POS_WORD, QMC.CTL_LINK_THR, QMC.CTL_RETRAIN, QMC.READS, QMC.WRITES, QMC.CE, QMC.UE, QMC.REREADS, QMC.LINK_ERR, QMC.POISONED, QMC.MERGE_DRAINS, QMC.SCRUB_WORDS]

/-! Block ECC: R541. -/
def ECC.STATUS_FILL_DONE : Fld := ⟨0x30, 0, 1, .ro, 0, 4, 1, false⟩
def ECC.STATUS_TEST_BUSY : Fld := ⟨0x30, 1, 1, .ro, 0, 4, 1, false⟩
def ECC.UE_ADDR_WORD : Fld := ⟨0x80, 0, 23, .ro, 0, 4, 1, false⟩
def ECC.UE_ADDR_MEM : Fld := ⟨0x80, 24, 4, .ro, 0, 4, 1, false⟩
def ECC.UE_INFO_SYND : Fld := ⟨0x84, 0, 8, .ro, 0, 4, 1, false⟩
def ECC.UE_INFO_KIND : Fld := ⟨0x84, 8, 2, .ro, 0, 4, 1, false⟩
def ECC.UE_INFO_REQ : Fld := ⟨0x84, 12, 3, .ro, 0, 4, 1, false⟩
def ECC.CE_ADDR_WORD : Fld := ⟨0x88, 0, 23, .ro, 0, 4, 1, false⟩
def ECC.CE_ADDR_MEM : Fld := ⟨0x88, 24, 4, .ro, 0, 4, 1, false⟩
def ECC.CE_INFO_SYND : Fld := ⟨0x8C, 0, 8, .ro, 0, 4, 1, false⟩
def ECC.BKT_OVF_BKT : Fld := ⟨0x90, 0, 16, .w1c, 0, 4, 1, false⟩
def ECC.TEST_RD_LO_DATA : Fld := ⟨0x94, 0, 32, .ro, 0, 4, 1, false⟩
def ECC.TEST_RD_HI_DATA : Fld := ⟨0x98, 0, 32, .ro, 0, 4, 1, false⟩
def ECC.TEST_RD_CHK_CHK : Fld := ⟨0x9C, 0, 8, .ro, 0, 4, 1, false⟩
def ECC.TEST_RD_CHK_SYND : Fld := ⟨0x9C, 8, 8, .ro, 0, 4, 1, false⟩
def ECC.TEST_RD_CHK_CLASS : Fld := ⟨0x9C, 16, 3, .ro, 0, 4, 1, false⟩
def ECC.CTL_SRAM_SCRUB : Fld := ⟨0x100, 0, 16, .rw, 60, 4, 1, false⟩
def ECC.CTL_QDR_SCRUB : Fld := ⟨0x100, 16, 16, .rw, 1440, 4, 1, false⟩
def ECC.TEST_ADDR_WORD : Fld := ⟨0x104, 0, 23, .rw, 0, 4, 1, false⟩
def ECC.TEST_ADDR_MEM : Fld := ⟨0x104, 24, 2, .rw, 0, 4, 1, false⟩
def ECC.TEST_DATA_LO_DATA : Fld := ⟨0x108, 0, 32, .rw, 0, 4, 1, false⟩
def ECC.TEST_DATA_HI_DATA : Fld := ⟨0x10C, 0, 32, .rw, 0, 4, 1, false⟩
def ECC.TEST_CHK_CHK : Fld := ⟨0x110, 0, 8, .rw, 0, 4, 1, false⟩
def ECC.TEST_CMD_WRITE_RAW : Fld := ⟨0x114, 0, 1, .wo, 0, 4, 1, false⟩
def ECC.TEST_CMD_READ_RAW : Fld := ⟨0x114, 1, 1, .wo, 0, 4, 1, false⟩
def ECC.BKT_LEVEL : Fld := ⟨0x700, 0, 5, .ro, 0, 4, 16, false⟩
def ECC.BKT_DEPTH : Fld := ⟨0x700, 8, 5, .rw, 16, 4, 16, false⟩
def ECC.BKT_LEAK : Fld := ⟨0x700, 16, 16, .rw, 1000, 4, 16, false⟩
def ECC.CE : Fld := ⟨0xC00, 0, 48, .cnt, 0, 8, 1, false⟩
def ECC.UE : Fld := ⟨0xC08, 0, 48, .cnt, 0, 8, 1, false⟩
def ECC.POISONED : Fld := ⟨0xC10, 0, 48, .cnt, 0, 8, 1, false⟩
def ECC.CE_OVF : Fld := ⟨0xC18, 0, 48, .cnt, 0, 8, 1, false⟩
def ECC.MERGE_DRAINS : Fld := ⟨0xC20, 0, 48, .cnt, 0, 8, 1, false⟩
def ECC.SCRUB_WORDS : Fld := ⟨0xC28, 0, 48, .cnt, 0, 8, 1, false⟩
def ECC.PAR_EJ : Fld := ⟨0xC30, 0, 48, .cnt, 0, 8, 1, false⟩
def ECC.PAR_FIFO : Fld := ⟨0xC38, 0, 48, .cnt, 0, 8, 1, false⟩
def ECC.table : List Fld := [ECC.STATUS_FILL_DONE, ECC.STATUS_TEST_BUSY, ECC.UE_ADDR_WORD, ECC.UE_ADDR_MEM, ECC.UE_INFO_SYND, ECC.UE_INFO_KIND, ECC.UE_INFO_REQ, ECC.CE_ADDR_WORD, ECC.CE_ADDR_MEM, ECC.CE_INFO_SYND, ECC.BKT_OVF_BKT, ECC.TEST_RD_LO_DATA, ECC.TEST_RD_HI_DATA, ECC.TEST_RD_CHK_CHK, ECC.TEST_RD_CHK_SYND, ECC.TEST_RD_CHK_CLASS, ECC.CTL_SRAM_SCRUB, ECC.CTL_QDR_SCRUB, ECC.TEST_ADDR_WORD, ECC.TEST_ADDR_MEM, ECC.TEST_DATA_LO_DATA, ECC.TEST_DATA_HI_DATA, ECC.TEST_CHK_CHK, ECC.TEST_CMD_WRITE_RAW, ECC.TEST_CMD_READ_RAW, ECC.BKT_LEVEL, ECC.BKT_DEPTH, ECC.BKT_LEAK, ECC.CE, ECC.UE, ECC.POISONED, ECC.CE_OVF, ECC.MERGE_DRAINS, ECC.SCRUB_WORDS, ECC.PAR_EJ, ECC.PAR_FIFO]

/-! Block TRS: R543. -/
def TRS.STATUS_MOD_UP : Fld := ⟨0x30, 0, 3, .ro, 0, 4, 1, false⟩
def TRS.STATUS_DEGRADED : Fld := ⟨0x30, 3, 1, .ro, 0, 4, 1, false⟩
def TRS.STATUS_LINK_UP : Fld := ⟨0x30, 4, 1, .ro, 0, 4, 1, false⟩
def TRS.MOD_STATE : Fld := ⟨0x80, 0, 2, .ro, 0, 4, 3, false⟩
def TRS.MOD_REP_LO : Fld := ⟨0x80, 4, 2, .ro, 0, 4, 3, false⟩
def TRS.MOD_REP_HI : Fld := ⟨0x80, 8, 2, .ro, 0, 4, 3, false⟩
def TRS.CAP : Fld := ⟨0x8C, 0, 13, .ro, 0, 4, 1, false⟩
def TRS.CAP_NEED : Fld := ⟨0x8C, 16, 13, .ro, 0, 4, 1, false⟩
def TRS.SLOT_DROP_SLOT : Fld := ⟨0x90, 0, 32, .ro, 0, 4, 1, false⟩
def TRS.CTL_CRC_THR : Fld := ⟨0x100, 0, 8, .rw, 64, 4, 1, false⟩
def TRS.CTL_LANE_THR : Fld := ⟨0x100, 8, 8, .rw, 16, 4, 1, false⟩
def TRS.CTL_AUTO_REPAIR : Fld := ⟨0x100, 16, 1, .rw, 1, 4, 1, false⟩
def TRS.CTL_RETRAIN : Fld := ⟨0x100, 20, 3, .wo, 0, 4, 1, false⟩
def TRS.FLITS : Fld := ⟨0xC00, 0, 48, .cnt, 0, 8, 1, false⟩
def TRS.CRC_ERR : Fld := ⟨0xC08, 0, 48, .cnt, 0, 8, 1, false⟩
def TRS.REPLAYS : Fld := ⟨0xC10, 0, 48, .cnt, 0, 8, 1, false⟩
def TRS.REPAIRS : Fld := ⟨0xC18, 0, 48, .cnt, 0, 8, 1, false⟩
def TRS.FAILOVERS : Fld := ⟨0xC20, 0, 48, .cnt, 0, 8, 1, false⟩
def TRS.PAR_ERR : Fld := ⟨0xC28, 0, 48, .cnt, 0, 8, 1, false⟩
def TRS.table : List Fld := [TRS.STATUS_MOD_UP, TRS.STATUS_DEGRADED, TRS.STATUS_LINK_UP, TRS.MOD_STATE, TRS.MOD_REP_LO, TRS.MOD_REP_HI, TRS.CAP, TRS.CAP_NEED, TRS.SLOT_DROP_SLOT, TRS.CTL_CRC_THR, TRS.CTL_LANE_THR, TRS.CTL_AUTO_REPAIR, TRS.CTL_RETRAIN, TRS.FLITS, TRS.CRC_ERR, TRS.REPLAYS, TRS.REPAIRS, TRS.FAILOVERS, TRS.PAR_ERR]

/-! Block TRSL: R545. -/
def TRSL.UE_ADDR_WORD : Fld := ⟨0xA0, 0, 20, .ro, 0, 4, 1, false⟩
def TRSL.UE_ADDR_MEM : Fld := ⟨0xA0, 24, 4, .ro, 0, 4, 1, false⟩
def TRSL.UE_INFO_SYND : Fld := ⟨0xA4, 0, 8, .ro, 0, 4, 1, false⟩
def TRSL.UE_INFO_KIND : Fld := ⟨0xA4, 8, 2, .ro, 0, 4, 1, false⟩
def TRSL.UE_INFO_REQ : Fld := ⟨0xA4, 12, 3, .ro, 0, 4, 1, false⟩
def TRSL.CE_ADDR_WORD : Fld := ⟨0xA8, 0, 20, .ro, 0, 4, 1, false⟩
def TRSL.CE_ADDR_MEM : Fld := ⟨0xA8, 24, 4, .ro, 0, 4, 1, false⟩
def TRSL.CE_INFO_SYND : Fld := ⟨0xAC, 0, 8, .ro, 0, 4, 1, false⟩
def TRSL.CE : Fld := ⟨0xC30, 0, 48, .cnt, 0, 8, 1, false⟩
def TRSL.UE : Fld := ⟨0xC38, 0, 48, .cnt, 0, 8, 1, false⟩
def TRSL.POISONED : Fld := ⟨0xC40, 0, 48, .cnt, 0, 8, 1, false⟩
def TRSL.PAR_LLR : Fld := ⟨0xC48, 0, 48, .cnt, 0, 8, 1, false⟩
def TRSL.table : List Fld := [TRSL.UE_ADDR_WORD, TRSL.UE_ADDR_MEM, TRSL.UE_INFO_SYND, TRSL.UE_INFO_KIND, TRSL.UE_INFO_REQ, TRSL.CE_ADDR_WORD, TRSL.CE_ADDR_MEM, TRSL.CE_INFO_SYND, TRSL.CE, TRSL.UE, TRSL.POISONED, TRSL.PAR_LLR]

/-! Block DMA: R559. -/
def DMA.STATUS_BUSY : Fld := ⟨0x30, 0, 8, .ro, 0, 4, 1, false⟩
def DMA.STATUS_HALTED : Fld := ⟨0x30, 8, 8, .ro, 0, 4, 1, false⟩
def DMA.STAT_STATE : Fld := ⟨0x80, 0, 3, .ro, 0, 16, 8, false⟩
def DMA.STAT_RESULT : Fld := ⟨0x80, 4, 4, .ro, 0, 16, 8, false⟩
def DMA.STAT_SHD_TAKEN : Fld := ⟨0x80, 8, 1, .ro, 0, 16, 8, false⟩
def DMA.STAT_WR_IGN : Fld := ⟨0x80, 9, 1, .w1c, 0, 16, 8, false⟩
def DMA.STAT_ERR : Fld := ⟨0x80, 12, 3, .ro, 0, 16, 8, false⟩
def DMA.STAT_RETRIES : Fld := ⟨0x80, 16, 3, .ro, 0, 16, 8, false⟩
def DMA.STAT_BYTES32 : Fld := ⟨0x80, 31, 1, .ro, 0, 16, 8, false⟩
def DMA.BYTES : Fld := ⟨0x84, 0, 32, .ro, 0, 16, 8, false⟩
def DMA.ERR_ADDR_LO_ADDR : Fld := ⟨0x88, 0, 32, .ro, 0, 16, 8, false⟩
def DMA.ERR_ADDR_HI_ADDR : Fld := ⟨0x8C, 0, 32, .ro, 0, 16, 8, false⟩
def DMA.SRC_LO_ADDR : Fld := ⟨0x100, 0, 32, .rw, 0, 64, 8, false⟩
def DMA.SRC_HI_ADDR : Fld := ⟨0x104, 0, 32, .rw, 0, 64, 8, false⟩
def DMA.DST_LO_ADDR : Fld := ⟨0x108, 0, 32, .rw, 0, 64, 8, false⟩
def DMA.DST_HI_ADDR : Fld := ⟨0x10C, 0, 32, .rw, 0, 64, 8, false⟩
def DMA.SRC_LEN_LEN : Fld := ⟨0x110, 0, 16, .rw, 0, 64, 8, false⟩
def DMA.SRC_STRIDE_STRIDE : Fld := ⟨0x114, 0, 25, .rw, 0, 64, 8, false⟩
def DMA.SRC_LINES_LINES : Fld := ⟨0x118, 0, 16, .rw, 0, 64, 8, false⟩
def DMA.DST_LEN_LEN : Fld := ⟨0x11C, 0, 16, .rw, 0, 64, 8, false⟩
def DMA.DST_STRIDE_STRIDE : Fld := ⟨0x120, 0, 25, .rw, 0, 64, 8, false⟩
def DMA.DST_LINES_LINES : Fld := ⟨0x124, 0, 16, .rw, 0, 64, 8, false⟩
def DMA.CFG_SRC_SP : Fld := ⟨0x128, 0, 2, .rw, 0, 64, 8, false⟩
def DMA.CFG_DST_SP : Fld := ⟨0x128, 4, 2, .rw, 0, 64, 8, false⟩
def DMA.CFG_RETRY_MAX : Fld := ⟨0x128, 8, 3, .rw, 3, 64, 8, false⟩
def DMA.CTL_START : Fld := ⟨0x12C, 0, 1, .wo, 0, 64, 8, false⟩
def DMA.CTL_START_SHD : Fld := ⟨0x12C, 1, 1, .wo, 0, 64, 8, false⟩
def DMA.CTL_ABORT : Fld := ⟨0x12C, 2, 1, .wo, 0, 64, 8, false⟩
def DMA.CTL_DISARM : Fld := ⟨0x12C, 3, 1, .wo, 0, 64, 8, false⟩
def DMA.CTL_SHD_ARM : Fld := ⟨0x12C, 8, 1, .w1s, 0, 64, 8, false⟩
def DMA.CTL_QUOTA : Fld := ⟨0x300, 0, 5, .rw, 4, 4, 1, false⟩
def DMA.SHD_SRC_LO_ADDR : Fld := ⟨0x700, 0, 32, .rw, 0, 64, 8, false⟩
def DMA.SHD_SRC_HI_ADDR : Fld := ⟨0x704, 0, 32, .rw, 0, 64, 8, false⟩
def DMA.SHD_DST_LO_ADDR : Fld := ⟨0x708, 0, 32, .rw, 0, 64, 8, false⟩
def DMA.SHD_DST_HI_ADDR : Fld := ⟨0x70C, 0, 32, .rw, 0, 64, 8, false⟩
def DMA.SHD_SRC_LEN_LEN : Fld := ⟨0x710, 0, 16, .rw, 0, 64, 8, false⟩
def DMA.SHD_SRC_STRIDE_STRIDE : Fld := ⟨0x714, 0, 25, .rw, 0, 64, 8, false⟩
def DMA.SHD_SRC_LINES_LINES : Fld := ⟨0x718, 0, 16, .rw, 0, 64, 8, false⟩
def DMA.SHD_DST_LEN_LEN : Fld := ⟨0x71C, 0, 16, .rw, 0, 64, 8, false⟩
def DMA.SHD_DST_STRIDE_STRIDE : Fld := ⟨0x720, 0, 25, .rw, 0, 64, 8, false⟩
def DMA.SHD_DST_LINES_LINES : Fld := ⟨0x724, 0, 16, .rw, 0, 64, 8, false⟩
def DMA.SHD_CFG_SRC_SP : Fld := ⟨0x728, 0, 2, .rw, 0, 64, 8, false⟩
def DMA.SHD_CFG_DST_SP : Fld := ⟨0x728, 4, 2, .rw, 0, 64, 8, false⟩
def DMA.SHD_CFG_RETRY_MAX : Fld := ⟨0x728, 8, 3, .rw, 3, 64, 8, false⟩
def DMA.BYTES_TOTAL : Fld := ⟨0xC00, 0, 48, .cnt, 0, 32, 8, false⟩
def DMA.XFERS : Fld := ⟨0xC08, 0, 48, .cnt, 0, 32, 8, false⟩
def DMA.RETRIES : Fld := ⟨0xC10, 0, 48, .cnt, 0, 32, 8, false⟩
def DMA.ERRORS : Fld := ⟨0xC18, 0, 48, .cnt, 0, 32, 8, false⟩
def DMA.table0 : List Fld := [DMA.STATUS_BUSY, DMA.STATUS_HALTED, DMA.STAT_STATE, DMA.STAT_RESULT, DMA.STAT_SHD_TAKEN, DMA.STAT_WR_IGN, DMA.STAT_ERR, DMA.STAT_RETRIES, DMA.STAT_BYTES32, DMA.BYTES, DMA.ERR_ADDR_LO_ADDR, DMA.ERR_ADDR_HI_ADDR, DMA.SRC_LO_ADDR, DMA.SRC_HI_ADDR, DMA.DST_LO_ADDR, DMA.DST_HI_ADDR, DMA.SRC_LEN_LEN, DMA.SRC_STRIDE_STRIDE, DMA.SRC_LINES_LINES, DMA.DST_LEN_LEN, DMA.DST_STRIDE_STRIDE, DMA.DST_LINES_LINES, DMA.CFG_SRC_SP, DMA.CFG_DST_SP, DMA.CFG_RETRY_MAX, DMA.CTL_START, DMA.CTL_START_SHD, DMA.CTL_ABORT, DMA.CTL_DISARM, DMA.CTL_SHD_ARM, DMA.CTL_QUOTA, DMA.SHD_SRC_LO_ADDR, DMA.SHD_SRC_HI_ADDR, DMA.SHD_DST_LO_ADDR, DMA.SHD_DST_HI_ADDR, DMA.SHD_SRC_LEN_LEN, DMA.SHD_SRC_STRIDE_STRIDE, DMA.SHD_SRC_LINES_LINES, DMA.SHD_DST_LEN_LEN, DMA.SHD_DST_STRIDE_STRIDE]
def DMA.table1 : List Fld := [DMA.SHD_DST_LINES_LINES, DMA.SHD_CFG_SRC_SP, DMA.SHD_CFG_DST_SP, DMA.SHD_CFG_RETRY_MAX, DMA.BYTES_TOTAL, DMA.XFERS, DMA.RETRIES, DMA.ERRORS]
def DMA.table : List Fld := DMA.table0 ++ DMA.table1

/-! Block PERFW: R570. -/
def PERFW.STATUS_SNAP_BUSY : Fld := ⟨0x30, 0, 1, .ro, 0, 4, 1, false⟩
def PERFW.SEQ_BW_SEQ : Fld := ⟨0x80, 0, 16, .ro, 0, 4, 1, false⟩
def PERFW.SEQ_SNAP_SEQ : Fld := ⟨0x80, 16, 16, .ro, 0, 4, 1, false⟩
def PERFW.SEL_KIND : Fld := ⟨0x100, 0, 2, .rw, 0, 4, 32, false⟩
def PERFW.SEL_SRC : Fld := ⟨0x100, 2, 11, .rw, 0, 4, 32, false⟩
def PERFW.SEL_PAGE : Fld := ⟨0x100, 13, 10, .rw, 0, 4, 32, false⟩
def PERFW.SEL_IDX : Fld := ⟨0x100, 23, 7, .rw, 0, 4, 32, false⟩
def PERFW.SEL_CHAIN : Fld := ⟨0x100, 31, 1, .rw, 0, 4, 32, false⟩
def PERFW.BW_CTL_WIN : Fld := ⟨0x180, 0, 10, .rw, 100, 4, 1, false⟩
def PERFW.TD_SEL_ENG : Fld := ⟨0x184, 0, 8, .rw, 0, 4, 1, false⟩
def PERFW.CMD_SNAP : Fld := ⟨0x188, 0, 1, .wo, 0, 4, 1, false⟩
def PERFW.TD_CYCLES : Fld := ⟨0x700, 0, 48, .cnt, 0, 4, 1, false⟩
def PERFW.TD_RETIRED : Fld := ⟨0x708, 0, 48, .cnt, 0, 4, 1, false⟩
def PERFW.TD_WASTED : Fld := ⟨0x710, 0, 48, .cnt, 0, 4, 1, false⟩
def PERFW.TD_FRONT : Fld := ⟨0x718, 0, 48, .cnt, 0, 4, 1, false⟩
def PERFW.TD_BACK : Fld := ⟨0x720, 0, 48, .cnt, 0, 4, 1, false⟩
def PERFW.BW_IN : Fld := ⟨0x800, 0, 32, .ro, 0, 8, 39, false⟩
def PERFW.BWO_OUT : Fld := ⟨0x804, 0, 32, .ro, 0, 8, 39, false⟩
def PERFW.CNT : Fld := ⟨0xC00, 0, 48, .cnt, 0, 8, 32, false⟩
def PERFW.SNAP : Fld := ⟨0xD00, 0, 48, .cnt, 0, 8, 32, false⟩
def PERFW.table : List Fld := [PERFW.STATUS_SNAP_BUSY, PERFW.SEQ_BW_SEQ, PERFW.SEQ_SNAP_SEQ, PERFW.SEL_KIND, PERFW.SEL_SRC, PERFW.SEL_PAGE, PERFW.SEL_IDX, PERFW.SEL_CHAIN, PERFW.BW_CTL_WIN, PERFW.TD_SEL_ENG, PERFW.CMD_SNAP, PERFW.TD_CYCLES, PERFW.TD_RETIRED, PERFW.TD_WASTED, PERFW.TD_FRONT, PERFW.TD_BACK, PERFW.BW_IN, PERFW.BWO_OUT, PERFW.CNT, PERFW.SNAP]

/-! Block SYS: R588. -/
def SYS.STATUS_LD_READY : Fld := ⟨0x30, 0, 2, .ro, 0, 4, 1, false⟩
def SYS.STATUS_BASCULE : Fld := ⟨0x30, 2, 1, .ro, 0, 4, 1, false⟩
def SYS.STRAP_BOOT_SRC : Fld := ⟨0x80, 0, 1, .ro, 0, 4, 1, false⟩
def SYS.STRAP_KS_PROV : Fld := ⟨0x80, 1, 1, .ro, 0, 4, 1, false⟩
def SYS.STRAP_GRADE : Fld := ⟨0x80, 2, 1, .ro, 0, 4, 1, false⟩
def SYS.RESET_CAUSE_PWRON : Fld := ⟨0x84, 0, 1, .w1c, 1, 4, 1, false⟩
def SYS.RESET_CAUSE_RST : Fld := ⟨0x84, 1, 1, .w1c, 0, 4, 1, false⟩
def SYS.RESET_CAUSE_HUB_BROWN : Fld := ⟨0x84, 2, 1, .w1c, 0, 4, 1, false⟩
def SYS.RESET_CAUSE_LD_BROWN : Fld := ⟨0x84, 3, 2, .w1c, 0, 4, 1, false⟩
def SYS.RESET_CAUSE_THERMAL : Fld := ⟨0x84, 5, 1, .w1c, 0, 4, 1, false⟩
def SYS.SRAM_WIN_SLICE : Fld := ⟨0x100, 0, 2, .rw, 0, 4, 1, false⟩
def SYS.PERF_USER_EN_EN : Fld := ⟨0x104, 0, 1, .rw, 0, 4, 1, false⟩
def SYS.table : List Fld := [SYS.STATUS_LD_READY, SYS.STATUS_BASCULE, SYS.STRAP_BOOT_SRC, SYS.STRAP_KS_PROV, SYS.STRAP_GRADE, SYS.RESET_CAUSE_PWRON, SYS.RESET_CAUSE_RST, SYS.RESET_CAUSE_HUB_BROWN, SYS.RESET_CAUSE_LD_BROWN, SYS.RESET_CAUSE_THERMAL, SYS.SRAM_WIN_SLICE, SYS.PERF_USER_EN_EN]

/-! Block PWR: R590. -/
def PWR.STATUS_BASCULE : Fld := ⟨0x30, 0, 1, .ro, 0, 4, 1, false⟩
def PWR.STATUS_WAKING : Fld := ⟨0x30, 1, 1, .ro, 0, 4, 1, false⟩
def PWR.STATUS_READY : Fld := ⟨0x30, 2, 1, .ro, 0, 4, 1, false⟩
def PWR.STATUS_THERM_WARN : Fld := ⟨0x30, 3, 1, .ro, 0, 4, 1, false⟩
def PWR.STATUS_THERM_CRIT : Fld := ⟨0x30, 4, 1, .ro, 0, 4, 1, false⟩
def PWR.RAIL_STAT_WARN : Fld := ⟨0x80, 0, 5, .ro, 0, 4, 1, false⟩
def PWR.RAIL_STAT_SEEN : Fld := ⟨0x80, 16, 9, .w1c, 0, 4, 1, false⟩
def PWR.DIP_LAST_RAIL : Fld := ⟨0x84, 0, 4, .ro, 0, 4, 1, false⟩
def PWR.DIP_LAST_DUR : Fld := ⟨0x84, 8, 16, .ro, 0, 4, 1, false⟩
def PWR.DIP_LAST_DEPTH : Fld := ⟨0x84, 24, 8, .ro, 0, 4, 1, false⟩
def PWR.TEMP_MAX_TEMP : Fld := ⟨0x88, 0, 16, .ro, 0, 4, 1, false⟩
def PWR.TEMP_MAX_SENSOR : Fld := ⟨0x88, 16, 3, .ro, 0, 4, 1, false⟩
def PWR.CTL_CRIT_BASCULE : Fld := ⟨0x100, 0, 1, .rw, 1, 4, 1, false⟩
def PWR.THERM_WARN : Fld := ⟨0x104, 0, 8, .rw, 105, 4, 1, false⟩
def PWR.THERM_CRIT : Fld := ⟨0x104, 8, 8, .rw, 118, 4, 1, false⟩
def PWR.BASCULE_ENTER : Fld := ⟨0x108, 0, 1, .wo, 0, 4, 1, false⟩
def PWR.BASCULE_WAKE : Fld := ⟨0x108, 1, 1, .wo, 0, 4, 1, false⟩
def PWR.DIPS : Fld := ⟨0xC00, 0, 48, .cnt, 0, 8, 1, false⟩
def PWR.LONG_DIPS : Fld := ⟨0xC08, 0, 48, .cnt, 0, 8, 1, false⟩
def PWR.BASCULE_ENTRIES : Fld := ⟨0xC10, 0, 48, .cnt, 0, 8, 1, false⟩
def PWR.THERM_WARNS : Fld := ⟨0xC18, 0, 48, .cnt, 0, 8, 1, false⟩
def PWR.table : List Fld := [PWR.STATUS_BASCULE, PWR.STATUS_WAKING, PWR.STATUS_READY, PWR.STATUS_THERM_WARN, PWR.STATUS_THERM_CRIT, PWR.RAIL_STAT_WARN, PWR.RAIL_STAT_SEEN, PWR.DIP_LAST_RAIL, PWR.DIP_LAST_DUR, PWR.DIP_LAST_DEPTH, PWR.TEMP_MAX_TEMP, PWR.TEMP_MAX_SENSOR, PWR.CTL_CRIT_BASCULE, PWR.THERM_WARN, PWR.THERM_CRIT, PWR.BASCULE_ENTER, PWR.BASCULE_WAKE, PWR.DIPS, PWR.LONG_DIPS, PWR.BASCULE_ENTRIES, PWR.THERM_WARNS]

/-! Block LDSYS: R592. -/
def LDSYS.STATUS_READY : Fld := ⟨0x30, 0, 1, .ro, 0, 4, 1, false⟩
def LDSYS.STATUS_PLL_LOCK : Fld := ⟨0x30, 1, 1, .ro, 0, 4, 1, false⟩
def LDSYS.STATUS_FILL_DONE : Fld := ⟨0x30, 2, 1, .ro, 0, 4, 1, false⟩
def LDSYS.AVS_TARGET : Fld := ⟨0x80, 0, 10, .ro, 650, 4, 1, false⟩
def LDSYS.POWER_P : Fld := ⟨0x84, 0, 12, .ro, 0, 4, 1, false⟩
def LDSYS.table : List Fld := [LDSYS.STATUS_READY, LDSYS.STATUS_PLL_LOCK, LDSYS.STATUS_FILL_DONE, LDSYS.AVS_TARGET, LDSYS.POWER_P]

end Sys2Proof.Machine
end

