-- ==== Sys2Proof/Machine/Store.lean ====
section
/-! DEFINITION.  Sparse maps in one canonical form (keys strictly rising), and the number and
bit-field helpers the register file and the memories are built on. -/

namespace Sys2Proof.Machine

/-! ### Bit fields, signed numbers, modular differences -/

/-- Bits `lo .. lo + w - 1` of a number. -/
def bitsOf (v lo w : Nat) : Nat := v / 2 ^ lo % 2 ^ w

/-- Bit `k` of a number. -/
def bitOf (v k : Nat) : Bool := v / 2 ^ k % 2 == 1

/-- A flag as a number. -/
def b2n (b : Bool) : Nat := if b then 1 else 0

/-- A `w`-bit two's complement field as an integer. -/
def sOf (w v : Nat) : Int :=
  let u := v % 2 ^ w
  if u < 2 ^ (w - 1) then (u : Int) else (u : Int) - 2 ^ w

/-- An integer as a `w`-bit two's complement field. -/
def sTo (w : Nat) (i : Int) : Nat := (i % 2 ^ w).toNat

/-- An integer held between two limits. -/
def clampI (lo hi v : Int) : Int := if v < lo then lo else if hi < v then hi else v

/-- A number held between two limits. -/
def clampN (lo hi v : Nat) : Nat := if v < lo then lo else if hi < v then hi else v

/-- A number held at the largest value of a `w`-bit field. -/
def satN (w v : Nat) : Nat := if v < 2 ^ w then v else 2 ^ w - 1

/-- The modulus of 48-bit span indices and counters (R44, R59). -/
def m48 : Nat := 2 ^ 48

/-- The signed 48-bit difference `a - b` (R59). -/
def diff48 (a b : Nat) : Int := sOf 48 ((a % m48 + (m48 - b % m48)) % m48)

/-- `a` divided by `b`, rounded up. -/
def cdiv (a b : Nat) : Nat := (a + b - 1) / b

/-- The number of ones among the low `w` bits. -/
def popcount : Nat → Nat → Nat
  | 0, _ => 0
  | w + 1, v => v % 2 + popcount w (v / 2)

/-! ### Sparse maps -/

/-- The entry at a key. -/
def AMap.find? {α : Type} : AMap α → Nat → Option α
  | [], _ => none
  | (k, a) :: t, q => if k = q then some a else AMap.find? t q

/-- The map without a key. -/
def AMap.erase {α : Type} : AMap α → Nat → AMap α
  | [], _ => []
  | (k, a) :: t, q => if k = q then AMap.erase t q else (k, a) :: AMap.erase t q

/-- The map with an entry, its key kept in rising order. -/
def AMap.insert {α : Type} : AMap α → Nat → α → AMap α
  | [], q, b => [(q, b)]
  | (k, a) :: t, q, b =>
    if q < k then (q, b) :: (k, a) :: t
    else if k = q then (q, b) :: t
    else (k, a) :: AMap.insert t q b

/-- The keys rise strictly. -/
def AMap.sorted {α : Type} : AMap α → Bool
  | [] => true
  | [_] => true
  | (k, _) :: (k', a') :: t => decide (k < k') && AMap.sorted ((k', a') :: t)

/-- A number map: an unlisted key reads 0. -/
def FMap.get (m : FMap) (k : Nat) : Nat := (AMap.find? m k).getD 0

/-- Writing a number map; writing 0 removes the entry, so that equal maps are equal lists. -/
def FMap.set (m : FMap) (k v : Nat) : FMap := if v = 0 then AMap.erase m k else AMap.insert m k v

/-- A list of entries brought into canonical form, the later entry of a key standing. -/
def FMap.norm (m : FMap) : FMap := m.foldl (fun a e => FMap.set a e.1 e.2) []

/-- The canonical form of a number map: keys strictly rising, no entry 0. -/
def FMap.wf (m : FMap) : Bool := AMap.sorted m && m.all (fun e => e.2 != 0)

/-- A pair indexed by port. -/
def Two.get {α : Type} (t : Two α) (p : Fin 2) : α := if p = 0 then t.a else t.b

/-- One member of a pair replaced. -/
def Two.set {α : Type} (t : Two α) (p : Fin 2) (x : α) : Two α :=
  if p = 0 then { t with a := x } else { t with b := x }

/-- One member of a pair changed. -/
def Two.upd {α : Type} (t : Two α) (p : Fin 2) (f : α → α) : Two α := t.set p (f (t.get p))

end Sys2Proof.Machine
end

