-- ==== Sys2Proof/Machine/Pages.lean ====
section
/-! DEFINITION.  The page-number table of R41: which block stands at a page number, its block
type, its event sources, and what the block's register table says of a key of the field store. -/

namespace Sys2Proof.Machine

/-- One row of the page-number table (R41).  For a line-die block `page` is the offset from the
die base and `first` the offset from the die's first source. -/
structure PageRow where
  blk : Block
  page : Nat
  count : Nat
  typ : Nat
  nsrc : Nat
  first : Nat
deriving DecidableEq, Repr

/-- The hub rows of R41. -/
def hubRows : List PageRow :=
  [⟨.sys, 0x000, 1, 0x0100, 16, 0⟩, ⟨.pwr, 0x001, 1, 0x0101, 16, 16⟩, ⟨.ksmb, 0x002, 1, 0x0102, 8, 32⟩,
   ⟨.mbx, 0x003, 1, 0x0103, 8, 40⟩, ⟨.evt, 0x004, 8, 0x0104, 0, 0⟩, ⟨.clk, 0x010, 1, 0x0110, 48, 48⟩,
   ⟨.tb, 0x011, 1, 0x0111, 8, 96⟩, ⟨.tlq, 0x012, 1, 0x0112, 8, 104⟩, ⟨.dma, 0x018, 1, 0x0118, 32, 112⟩,
   ⟨.qmc, 0x020, 2, 0x0120, 8, 144⟩, ⟨.ecc, 0x022, 1, 0x0122, 8, 160⟩, ⟨.trs, 0x028, 2, 0x0128, 8, 168⟩,
   ⟨.hgl, 0x030, 4, 0x0130, 8, 184⟩, ⟨.tcv, 0x038, 1, 0x0138, 16, 216⟩, ⟨.cal, 0x039, 1, 0x0139, 16, 232⟩,
   ⟨.map, 0x040, 2, 0x0140, 16, 248⟩, ⟨.scc, 0x044, 2, 0x0144, 16, 280⟩, ⟨.enc, 0x048, 1, 0x0148, 16, 312⟩,
   ⟨.keys, 0x049, 1, 0x0149, 16, 328⟩, ⟨.perfw, 0x050, 1, 0x0150, 8, 344⟩, ⟨.hln, 0x060, 32, 0x0160, 2, 352⟩,
   ⟨.cli, 0x080, 32, 0x0180, 4, 416⟩, ⟨.mgmt, 0x0A0, 1, 0x01A0, 8, 544⟩, ⟨.pier, 0x0A1, 12, 0x01A1, 2, 552⟩]

/-- The line-die rows of R41. -/
def dieRows : List PageRow :=
  [⟨.ldsys, 0x00, 1, 0x0200, 16, 0⟩, ⟨.adc, 0x01, 1, 0x0201, 32, 16⟩, ⟨.dac, 0x02, 1, 0x0202, 16, 48⟩,
   ⟨.cdc, 0x03, 1, 0x0203, 8, 64⟩, ⟨.mimo, 0x04, 1, 0x0204, 8, 72⟩, ⟨.nlc, 0x05, 1, 0x0205, 8, 80⟩,
   ⟨.crv, 0x06, 1, 0x0206, 16, 88⟩, ⟨.dmp, 0x07, 1, 0x0207, 8, 104⟩, ⟨.txs, 0x08, 1, 0x0208, 16, 112⟩,
   ⟨.fec, 0x09, 1, 0x0209, 32, 128⟩, ⟨.lfr, 0x0A, 1, 0x020A, 48, 160⟩, ⟨.trsl, 0x0B, 1, 0x020B, 16, 208⟩,
   ⟨.lcal, 0x0C, 1, 0x020C, 16, 224⟩, ⟨.subc, 0x10, 8, 0x0210, 6, 240⟩]

/-- The row and the instance of a page, and its line die when it is a line-die page (R41). -/
structure PageInfo where
  row : PageRow
  inst : Nat
  die : Option Port
deriving DecidableEq, Repr

/-- What R41 assigns to a page number; `none` for an unassigned page. -/
def pageInfo (pg : Nat) : Option PageInfo :=
  let inRow (x : Nat) (r : PageRow) : Bool := decide (r.page ≤ x) && decide (x < r.page + r.count)
  if pg < 0x200 then (hubRows.find? (inRow pg)).map fun r => ⟨r, pg - r.page, none⟩
  else if pg < 0x300 then
    (dieRows.find? (inRow (pg - 0x200))).map fun r => ⟨r, pg - 0x200 - r.page, some 0⟩
  else if pg < 0x400 then
    (dieRows.find? (inRow (pg - 0x300))).map fun r => ⟨r, pg - 0x300 - r.page, some 1⟩
  else none

/-- The global number of local source 0 of a page: the row's first source, for line die n counted
from L = 576 + 288 n, plus the sources of the earlier instances (R41). -/
def firstSrc (pg : Nat) : Nat :=
  match pageInfo pg with
  | none => 0
  | some i =>
    (match i.die with | none => 0 | some n => 576 + 288 * n.val) + i.row.first + i.row.nsrc * i.inst

/-- The number of sources of a page (R41, CAP.NSRC). -/
def numSrc (pg : Nat) : Nat := match pageInfo pg with | none => 0 | some i => i.row.nsrc

/-- The register table of a block, without the common registers. -/
def Block.own : Block → Nat → List Fld
  | .sys, _ => SYS.table | .pwr, _ => PWR.table | .ksmb, _ => KSMB.table | .mbx, _ => MBX.table
  | .evt, i => if i = 0 then EVT0.table else []
  | .clk, _ => CLK.table | .tb, _ => TB.table | .tlq, _ => TLQ.table | .dma, _ => DMA.table
  | .qmc, _ => QMC.table | .ecc, _ => ECC.table | .trs, _ => TRS.table | .hgl, _ => HGL.table
  | .tcv, _ => TCV.table | .cal, _ => CAL.table | .map, _ => MAP.table | .scc, _ => SCC.table
  | .enc, _ => ENC.table | .keys, _ => KEYS.table | .perfw, _ => PERFW.table | .hln, _ => HLN.table
  | .cli, _ => CLI.table | .mgmt, _ => MGMT.table | .pier, _ => PIER.table | .ldsys, _ => LDSYS.table
  | .adc, _ => ADC.table | .dac, _ => DAC.table | .cdc, _ => CDC.table | .mimo, _ => MIMO.table
  | .nlc, _ => NLC.table | .crv, _ => CRV.table | .dmp, _ => DMP.table | .txs, _ => TXS.table
  | .fec, _ => FEC.table | .lfr, _ => LFR.table | .trsl, _ => TRS.table ++ TRSL.table
  | .lcal, _ => LCAL.table | .subc, _ => SUBC.table

/-- The register table of a page's own block; an unassigned page has none. -/
def ownTable (pg : Nat) : List Fld :=
  match pageInfo pg with | none => [] | some i => i.row.blk.own i.inst

/-- The key of a field in the field store. (DEDUCED: log 9) -/
def fkey (pg off lo : Nat) : Nat := (pg * 2 ^ 20 + off) * 64 + lo

/-- The page of a key. -/
def keyPage (k : Nat) : Nat := k / 64 / 2 ^ 20

/-- The offset of a key within its page. -/
def keyOff (k : Nat) : Nat := k / 64 % 2 ^ 20

/-- The lowest bit of a key's field. -/
def keyLo (k : Nat) : Nat := k % 64

/-- A table row covers element offset `off` with lowest bit `lo`. -/
def Fld.covers (f : Fld) (off lo : Nat) : Bool :=
  f.lo == lo && decide (f.off ≤ off) && (off - f.off) % f.stride == 0 && decide ((off - f.off) / f.stride < f.count)

/-- The access type that a page's register table gives a key; `none` for a key that is no register. -/
def accOf (k : Nat) : Option Acc :=
  ((COMMON.table ++ ownTable (keyPage k)).find? (·.covers (keyOff k) (keyLo k))).map (·.acc)

/-- A page has staged fields of a side (R68, R71 HAS_RX and HAS_TX). -/
def hasSide (a : Acc) (pg : Nat) : Bool := (ownTable pg).any (·.acc == a)

/-- The page has receive-side staged fields (HAS_RX, R71). -/
def hasRx (pg : Nat) : Bool := hasSide .rwsr pg

/-- The page has transmit-side staged fields (HAS_TX, R71). -/
def hasTx (pg : Nat) : Bool := hasSide .rwst pg

/-- CAP.STAGED: the page has RWS fields and a usable COMMIT (R42). -/
def staged (pg : Nat) : Bool := hasRx pg || hasTx pg

/-- The reset value of a field whose reset value depends on the page or the element:
COMMIT_HI.PORT (R42), CLI_CFG (R307), CLK_REF_CFG.LANE (R397), HGL_CTL.ROLE (R446),
TXS_PD (R210, R214), PIER_CLUSTER (R491), ADC_SLICE (R89). -/
def specialReset (pg off lo : Nat) : Nat :=
  match pageInfo pg with
  | none => 0
  | some i =>
    match i.row.blk with
    | .cli => if off = 0x100 then (if lo = 16 then i.inst else i.inst / 16) else 0
    | .clk => if off = 0x13C then 16 else 0
    | .hgl => if off = 0x100 then i.inst else 0
    | .txs =>
      if 0x700 ≤ off then
        let e := 4 * ((off - 0x700) / 4 % 64)
        let b (i : Nat) : Nat := (i + 128) % 256
        b e + b (e + 1) * 2 ^ 8 + b (e + 2) * 2 ^ 16 + b (e + 3) * 2 ^ 24
      else (match i.die with | some n => n.val | none => 0)
    | .pier =>
      if off ≠ 0x80 then 0
      else if lo = 0 then
        (if i.inst = 10 then 2 else if i.inst = 11 then 3 else if i.inst % 5 = 4 then 1 else 0)
      else (if i.inst < 5 then 0 else if i.inst < 10 then 1 else 2)
    | _ => (match i.die with | some n => n.val | none => 0)

/-- The reset value of a field on a page (the Reset column of its register table). -/
def Fld.resetOn (f : Fld) (pg : Nat) : Nat := if f.special then specialReset pg f.off f.lo else f.reset

/-! ### Page numbers by name (R41) -/

def pgSYS : Nat := 0x000
def pgPWR : Nat := 0x001
def pgKSMB : Nat := 0x002
def pgMBX : Nat := 0x003
def pgEVT0 : Nat := 0x004
def pgCLK : Nat := 0x010
def pgTB : Nat := 0x011
def pgTLQ : Nat := 0x012
def pgDMA : Nat := 0x018
def pgQMC (q : Fin 2) : Nat := 0x020 + q.val
def pgECC : Nat := 0x022
def pgTRS (p : Port) : Nat := 0x028 + p.val
def pgHGL (h : Fin 4) : Nat := 0x030 + h.val
def pgTCV : Nat := 0x038
def pgCAL : Nat := 0x039
def pgMAP (p : Port) : Nat := 0x040 + p.val
def pgSCC (p : Port) : Nat := 0x044 + p.val
def pgENC : Nat := 0x048
def pgKEYS : Nat := 0x049
def pgPERFW : Nat := 0x050
def pgHLN (l : Fin 32) : Nat := 0x060 + l.val
def pgCLI (c : Fin 32) : Nat := 0x080 + c.val
def pgMGMT : Nat := 0x0A0
def pgPIER (c : Nat) : Nat := 0x0A1 + c
def pgLDSYS (p : Port) : Nat := 0x200 + 0x100 * p.val
def pgADC (p : Port) : Nat := 0x201 + 0x100 * p.val
def pgDAC (p : Port) : Nat := 0x202 + 0x100 * p.val
def pgCDC (p : Port) : Nat := 0x203 + 0x100 * p.val
def pgMIMO (p : Port) : Nat := 0x204 + 0x100 * p.val
def pgNLC (p : Port) : Nat := 0x205 + 0x100 * p.val
def pgCRV (p : Port) : Nat := 0x206 + 0x100 * p.val
def pgDMP (p : Port) : Nat := 0x207 + 0x100 * p.val
def pgTXS (p : Port) : Nat := 0x208 + 0x100 * p.val
def pgFEC (p : Port) : Nat := 0x209 + 0x100 * p.val
def pgLFR (p : Port) : Nat := 0x20A + 0x100 * p.val
def pgTRSL (p : Port) : Nat := 0x20B + 0x100 * p.val
def pgLCAL (p : Port) : Nat := 0x20C + 0x100 * p.val
def pgSUBC (p : Port) (s : Fin 8) : Nat := 0x210 + 0x100 * p.val + s.val

end Sys2Proof.Machine
end

