-- ==== Sys2Proof/Machine/Ops.lean ====
section
/-! DEFINITION.  The named operations over the state: reading and writing register fields (live
and pending), counters, event occurrences, outputs and free values. -/

namespace Sys2Proof.Machine

/-! ### Register fields.  The store keeps each field's difference (exclusive or) from its reset
value, so a field not listed is at its reset value. -/

/-- The live value of a field (R9). -/
def Dev.get (d : Dev) (pg : Nat) (f : Fld) : Nat :=
  FMap.get d.regs (fkey pg f.off f.lo) ^^^ f.resetOn pg

/-- The pending value of a staged field (R9, R10). -/
def Dev.pget (d : Dev) (pg : Nat) (f : Fld) : Nat :=
  FMap.get d.pend (fkey pg f.off f.lo) ^^^ f.resetOn pg

/-- A field as a flag. -/
def Dev.flag (d : Dev) (pg : Nat) (f : Fld) : Bool := d.get pg f != 0

/-- The device with a live field value; the value is held to the field's width. -/
def Dev.put (d : Dev) (pg : Nat) (f : Fld) (v : Nat) : Dev :=
  { d with regs := FMap.set d.regs (fkey pg f.off f.lo) ((v % 2 ^ f.width) ^^^ f.resetOn pg) }

/-- The device with a pending field value; the value is held to the field's width. -/
def Dev.pput (d : Dev) (pg : Nat) (f : Fld) (v : Nat) : Dev :=
  { d with pend := FMap.set d.pend (fkey pg f.off f.lo) ((v % 2 ^ f.width) ^^^ f.resetOn pg) }

/-- A flag field written. -/
def Dev.putb (d : Dev) (pg : Nat) (f : Fld) (b : Bool) : Dev := d.put pg f (b2n b)

/-- A counter, or another wrapping field, advanced by `n` (R44). -/
def Dev.bump (d : Dev) (pg : Nat) (f : Fld) (n : Nat) : Dev := d.put pg f (d.get pg f + n)

/-- A saturating field advanced by `n`. -/
def Dev.bumpSat (d : Dev) (pg : Nat) (f : Fld) (n : Nat) : Dev := d.put pg f (satN f.width (d.get pg f + n))

/-- A pair of 32-bit and 16- or 32-bit fields as one number (R7). -/
def Dev.getLH (d : Dev) (pg : Nat) (lo hi : Fld) : Nat := d.get pg lo + 2 ^ 32 * d.get pg hi

/-- Writing a LO/HI pair (R7). -/
def Dev.putLH (d : Dev) (pg : Nat) (lo hi : Fld) (v : Nat) : Dev :=
  (d.put pg lo v).put pg hi (v / 2 ^ 32)

/-- The bits of a register word that a field takes. -/
def Fld.ofWord (f : Fld) (w : Nat) : Nat := bitsOf w f.lo f.width

/-- A field taken from a written word (RW, R9). -/
def Dev.putW (d : Dev) (pg : Nat) (f : Fld) (w : Word) : Dev := d.put pg f (f.ofWord w.toNat)

/-- Several fields of one register taken from a written word (RW, R9). -/
def Dev.putWs (d : Dev) (pg : Nat) (fs : List Fld) (w : Word) : Dev :=
  fs.foldl (fun d f => d.putW pg f w) d

/-- The bits a W1C field keeps after a written word (R9). -/
def Dev.clearW (d : Dev) (pg : Nat) (f : Fld) (w : Word) : Dev :=
  d.put pg f (d.get pg f &&& ((2 ^ f.width - 1) ^^^ f.ofWord w.toNat))

/-- A bit of a mask field. -/
def Dev.putBit (d : Dev) (pg : Nat) (f : Fld) (k : Nat) (b : Bool) : Dev :=
  let v := d.get pg f
  d.put pg f (if b then v ||| 2 ^ k else v &&& ((2 ^ f.width - 1) ^^^ 2 ^ k))

/-- A field of the model's own, at a hidden offset of a block's page: no host access reaches it. (DEDUCED: log 13) -/
def hid (n w reset : Nat) : Fld := ⟨0x1000 + n, 0, w, .ro, reset, 4, 1, false⟩

/-- The bits of port `j` in the bandwidth window, in and out, of the ports whose commands carry them: lines, trusses and QDR channels
(R565). -/
def PERFW.bits (out : Bool) (j : Nat) : Fld := hid (16 + 16 * j + 8 * b2n out) 64 0

/-- Bits pass a port of the bandwidth figures (R565). -/
def Dev.bwAdd (d : Dev) (j : Nat) (out : Bool) (n : Nat) : Dev := d.bump pgPERFW (PERFW.bits out j) n

/-! ### Choice, occurrences, outputs, free values -/

/-- A change made only when a condition holds. -/
def Dev.when (d : Dev) (c : Bool) (f : Dev → Dev) : Dev := if c then f d else d

/-- An occurrence of a local event source in this cycle (R45). -/
def Dev.ev (d : Dev) (pg src : Nat) : Dev := { d with occ := (pg * 64 + src) :: d.occ }

/-- Something the device puts out in this cycle. (DESIGN CHOICE: log 5) -/
def Dev.emit (d : Dev) (o : Output) : Dev := { d with out := d.out ++ [o] }

/-- The next free value: an uninterpreted value of the configuration at the state's counter, which
advances, so each use has its own (a value the spec leaves open). -/
def Dev.free (d : Dev) : Nat := Config.freeValue d.freeCtr

/-- The counter of free values advanced. -/
def Dev.used (d : Dev) : Dev := { d with freeCtr := d.freeCtr + 1 }

/-! ### Line dies (R38) -/

/-- Line die `p` is powered and out of reset, so its pages are reachable (R38, R577). (DEDUCED: log 245) -/
def Dev.online (d : Dev) (p : Port) : Bool := d.flag (pgLDSYS p) LDSYS.STATUS_READY

/-- A host write to a page of line die `p`: carried out while the die is reachable, otherwise ignored
with the SYS event LD_OFFLINE (R38). -/
def Dev.hostLine (d : Dev) (p : Port) (f : Dev → Dev) : Dev :=
  if d.online p then f d else d.ev pgSYS 2

/-- A happening of line die `p`, which does not come about while the die is gated or in reset (R582). -/
def Dev.lineDo (d : Dev) (p : Port) (f : Dev → Dev) : Dev := if d.online p then f d else d

/-! ### Taking staged values live (R65) -/

/-- The entries of `b` at the keys of a class laid over `a`. -/
def FMap.overlay (sel : Nat → Bool) (a b : FMap) : FMap :=
  (b.filter (fun e => sel e.1)).foldl (fun m e => FMap.set m e.1 e.2) (a.filter (fun e => !sel e.1))

/-- A key is a staged field of a page's side. -/
def isSide (pg : Nat) (a : Acc) (k : Nat) : Bool := keyPage k == pg && accOf k == some a

/-- At a side's take every pending value of that side becomes live (R65). -/
def Dev.takeSide (d : Dev) (pg : Nat) (a : Acc) : Dev :=
  { d with regs := FMap.overlay (isSide pg a) d.regs d.pend }

/-- PEND_DIRTY: some pending RWS value of the page differs from its live value (R42). -/
def Dev.dirty (d : Dev) (pg : Nat) : Bool :=
  let sel (e : Nat × Nat) : Bool := isSide pg .rwst e.1 || isSide pg .rwsr e.1
  d.regs.filter sel != d.pend.filter sel

end Sys2Proof.Machine
end

