-- ==== Sys2Proof/Machine/Memory.lean ====
section
/-! DEFINITION.  The device memories behind BAR2 as one sparse list of bytes in canonical form: addresses strictly
rising, no byte zero, an unlisted byte reading zero (R33, R521, R522). -/

namespace Sys2Proof.Machine

/-- Where a memory starts in the model's byte address space: 0 QM0, 1 QM1, 2 hub SRAM, 3 pier memory, 4 and 5 the
triplet tables of LP0 and LP1 (R33). -/
def memBase (m : Nat) : Nat := m * 2 ^ 32

/-- A byte read; an unlisted byte is zero. (DEDUCED: log 7) -/
def memRead (m : List Host.Cell) (a : Nat) : BitVec 8 := (AMap.find? m a).getD 0

/-- A byte write; writing zero removes the entry. -/
def memWrite (m : List Host.Cell) (a : Nat) (b : BitVec 8) : List Host.Cell :=
  if b = 0 then AMap.erase m a else AMap.insert m a b

/-- The canonical form of a memory: addresses strictly rising, no entry equal to what an unlisted address reads as. -/
def Memory.wf (m : List Host.Cell) : Bool := AMap.sorted m && m.all (fun e => e.2 != 0)

/-- Little-endian bytes from an address as a number (R7). -/
def memReadN (m : List Host.Cell) : Nat → Nat → Nat
  | 0, _ => 0
  | n + 1, a => (memRead m a).toNat + 256 * memReadN m n (a + 1)

/-- Little-endian bytes of a number written from an address (R7). -/
def memWriteN (m : List Host.Cell) : Nat → Nat → Nat → List Host.Cell
  | 0, _, _ => m
  | n + 1, a, v => memWriteN (memWrite m a (BitVec.ofNat 8 v)) n (a + 1) (v / 256)

/-- A list of bytes written from an address. -/
def memWriteBytes (m : List Host.Cell) (a : Nat) : List (BitVec 8) → List Host.Cell
  | [] => m
  | b :: t => memWriteBytes (memWrite m a b) (a + 1) t

/-- `n` bytes from an address. -/
def memBytes (m : List Host.Cell) (a n : Nat) : List (BitVec 8) := (List.range n).map fun i => memRead m (a + i)

end Sys2Proof.Machine
end

