-- ==== Sys2Proof/Machine/Ecc.lean ====
section
/-! DEFINITION.  The words of the SECDED memories: check bits, logs and buckets, reads through a controller, merge buffers
(R520, R524–R530). -/

namespace Sys2Proof.Machine

/-! ### Check bits (R524) -/

/-- The columns of data bits 0 to 63: the values of weight 3 in ascending order, then the first eight of weight 5. -/
def eccCols : List Nat :=
  (List.range 256).filter (fun v => popcount 8 v == 3) ++ [0x1F, 0x2F, 0x37, 0x3B, 0x3D, 0x3E, 0x4F, 0x57]

/-- The check bits of a 64-bit word. -/
def eccCheck (v : Nat) : Nat :=
  (List.range 64).foldl (fun c i => if bitOf v i then c ^^^ eccCols.getD i 0 else c) 0

/-- The classes of a syndrome: 0 clean, 1 correctable data, 2 correctable check, 3 uncorrectable, 4 poisoned (R524, R541). -/
def eccClass (s : Nat) : Nat :=
  if s = 0 then 0 else if s = 0xFF then 4 else if eccCols.contains s then 1 else if popcount 8 s = 1 then 2 else 3

/-- A word with what its syndrome corrects. -/
def eccFix (v s : Nat) : Nat :=
  match eccCols.idxOf? s with | some i => v ^^^ 2 ^ i | none => v

/-- The syndrome a 72-bit pattern of flipped bits adds. -/
def flipSyn (x : Nat) : Nat := eccCheck (x % 2 ^ 64) ^^^ x / 2 ^ 64

/-! ### Memories, buckets and pages (R529, R539, R541, R545)

Memories: 0 QM0, 1 QM1, 2 hub SRAM, 3 pier engines, 4 and 5 the triplet tables, 6 other hub memories, 7 and 8 the trim
sets, 9 and 10 the other memories of LD0 and LD1. -/

/-- The leaky bucket of a word (R529). -/
def bucketOf (m w : Nat) : Nat :=
  match m with
  | 0 => 1
  | 1 => 2
  | 2 => 0
  | 3 => if w < 327680 then 7 else if w < 655360 then 11 else 3
  | 4 => 5
  | 5 => 9
  | 6 => 4
  | 7 => 6
  | 8 => 10
  | 9 => 8
  | _ => 12

/-- The memory and word of a word of a bucket's memory. -/
def bucketWord (b w : Nat) : Nat × Nat :=
  match b with
  | 0 => (2, w % 2 ^ 23)
  | 1 => (0, w % 2 ^ 21)
  | 2 => (1, w % 2 ^ 21)
  | 3 => (3, 655360 + w % 131072)
  | 4 => (6, w)
  | 5 => (4, w % 122880)
  | 6 => (7, w)
  | 7 => (3, w % 327680)
  | 8 => (9, w)
  | 9 => (5, w % 122880)
  | 10 => (8, w)
  | 11 => (3, 327680 + w % 327680)
  | _ => (10, w)

/-- A word as the logs number it, within its memory. (DEDUCED: log 170) -/
def logWord (m w : Nat) : Nat :=
  if m = 3 then (if w < 327680 then w else if w < 655360 then w - 327680 else w - 655360) else w

/-- Where a bucket's memory reports: its page, local sources for demand, scrub, merge, poison and pass (64 for none), and the
fields of its logs and counters. -/
structure EccPort where
  pg : Nat
  demand : Nat
  scrub : Nat
  merge : Nat
  poison : Nat
  pass : Nat
  ueWord : Fld
  ueMem : Option Fld
  synd : Fld
  kind : Fld
  req : Fld
  ceWord : Fld
  ceMem : Option Fld
  ceSynd : Fld
  ce : Fld
  ue : Fld
  poisoned : Fld
deriving DecidableEq, Repr

/-- The reporting of a bucket's memory (R539–R546). -/
def eccPort (b : Nat) : EccPort :=
  if b = 1 ∨ b = 2 then
    ⟨0x1F + b, 2, 3, 4, 6, 7, QMC.UE_ADDR_WORD, none, QMC.UE_INFO_SYND, QMC.UE_INFO_KIND, QMC.UE_INFO_REQ, QMC.CE_ADDR_WORD,
      none, QMC.CE_INFO_SYND, QMC.CE, QMC.UE, QMC.POISONED⟩
  else if b < 5 then
    ⟨pgECC, 3, 4, 5, 6, 7, ECC.UE_ADDR_WORD, some ECC.UE_ADDR_MEM, ECC.UE_INFO_SYND, ECC.UE_INFO_KIND, ECC.UE_INFO_REQ,
      ECC.CE_ADDR_WORD, some ECC.CE_ADDR_MEM, ECC.CE_INFO_SYND, ECC.CE, ECC.UE, ECC.POISONED⟩
  else
    ⟨if b < 9 then pgTRSL 0 else pgTRSL 1, 8, 9, 63, 63, 10, TRSL.UE_ADDR_WORD, some TRSL.UE_ADDR_MEM, TRSL.UE_INFO_SYND,
      TRSL.UE_INFO_KIND, TRSL.UE_INFO_REQ, TRSL.CE_ADDR_WORD, some TRSL.CE_ADDR_MEM, TRSL.CE_INFO_SYND, TRSL.CE, TRSL.UE,
      TRSL.POISONED⟩

/-! ### Stored words -/

/-- The byte address of a word. -/
def wordAddr (m w : Nat) : Nat := memBase m + 8 * w

/-- The stored data of a word. -/
def Dev.wordData (d : Dev) (m w : Nat) : Nat := memReadN d.mem 8 (wordAddr m w)

/-- The syndrome of a stored word. -/
def Dev.wordSyn (d : Dev) (m w : Nat) : Nat := FMap.get d.syn (wordAddr m w / 8)

/-- A word stored with a syndrome. -/
def Dev.wordPut (d : Dev) (m w v s : Nat) : Dev :=
  { d with mem := memWriteN d.mem 8 (wordAddr m w) v, syn := FMap.set d.syn (wordAddr m w / 8) s }

/-- Bits of a stored word flip. -/
def Dev.upset (d : Dev) (m w x : Nat) : Dev :=
  if x = 0 then d else d.wordPut m w (d.wordData m w ^^^ x % 2 ^ 64) (d.wordSyn m w ^^^ flipSyn x)

/-- A correctable error found: counted, logged, and in the leaky bucket (R529, R530). (DEDUCED: log 171) -/
def Dev.ceFound (d : Dev) (m w s : Nat) : Dev :=
  let b := bucketOf m w
  let e := eccPort b
  let d := (d.bump e.pg e.ce 1).put e.pg e.ceWord (logWord m w)
  let d := match e.ceMem with | some f => d.put e.pg f b | none => d
  let d := d.put e.pg e.ceSynd s
  let lvl := d.get pgECC (ECC.BKT_LEVEL.at b)
  if lvl = d.get pgECC (ECC.BKT_DEPTH.at b) then
    ((d.putBit pgECC ECC.BKT_OVF_BKT b true).bump pgECC ECC.CE_OVF 1).ev pgECC 2
  else d.put pgECC (ECC.BKT_LEVEL.at b) (satN 5 (lvl + 1))

/-- A word written back poisoned, its data unchanged (R526). -/
def Dev.poison (d : Dev) (m w : Nat) : Dev :=
  let e := eccPort (bucketOf m w)
  (d.wordPut m w (d.wordData m w) 0xFF).bump e.pg e.poisoned 1

/-- The log of an uncorrectable error, its event and the poison written back; kind 0 DEMAND, 1 SCRUB, 2 MERGE (R526, R532). -/
def Dev.ueFound (d : Dev) (m w s kind req : Nat) : Dev :=
  let b := bucketOf m w
  let e := eccPort b
  let d := (d.bump e.pg e.ue 1).put e.pg e.ueWord (logWord m w)
  let d := match e.ueMem with | some f => d.put e.pg f b | none => d
  let d := ((d.put e.pg e.synd s).put e.pg e.kind kind).put e.pg e.req req
  let d := d.when (kind != 2) (·.ev e.pg (if kind = 0 then e.demand else e.scrub))
  d.poison m w

/-- One look at a word through what its channel adds: data and syndrome. -/
def Dev.look (d : Dev) (m w link : Nat) : Nat × Nat :=
  let l := if m < 2 then link else 0
  (d.wordData m w ^^^ l % 2 ^ 64, d.wordSyn m w ^^^ flipSyn l)

/-- A read of a word through its controller: correction, the QDR re-read, and what an uncorrectable word does; the data,
unless it stays uncorrectable, and the syndrome last seen (R524, R526, R527, R529, R532). -/
def Dev.eccRead (d : Dev) (m w : Nat) (x : Upset) (kind req : Nat) : Dev × Option Nat × Nat :=
  let d := d.upset m w x.store.toNat
  let a := d.look m w x.link1.toNat
  let c := eccClass a.2
  if c = 0 then (d, some a.1, 0)
  else if c = 1 ∨ c = 2 then (d.ceFound m w a.2, some (eccFix a.1 a.2), a.2)
  else
    let again := decide (m < 2) && !(kind == 1 && c == 4)
    let pg := 0x20 + m
    let d := d.when again (·.bump pg QMC.REREADS 1)
    let a := if again then d.look m w x.link2.toNat else a
    let c := eccClass a.2
    if c = 0 then (d.bump pg QMC.LINK_ERR 1, some a.1, 0)
    else if c = 1 ∨ c = 2 then ((d.bump pg QMC.LINK_ERR 1).ceFound m w a.2, some (eccFix a.1 a.2), a.2)
    else if c = 4 then
      (d.when (kind == 0) (·.ev (eccPort (bucketOf m w)).pg (eccPort (bucketOf m w)).poison), none, a.2)
    else (d.ueFound m w a.2 kind req, none, a.2)

/-! ### Merge buffers (R525, R528) -/

/-- The memory of a controller. -/
def ctrlMem (c : Nat) : Nat := if c = 0 then 2 else c - 1

/-- The controller of a memory, none for one without a merge buffer. -/
def memCtrl (m : Nat) : Option Nat := if m = 2 then some 0 else if m < 2 then some (m + 1) else none

/-- Bytes of a word merged over it. -/
def mergeBytes (old mask new : Nat) : Nat :=
  (List.range 8).foldl (fun v i =>
    v + (if bitOf mask i then bitsOf new (8 * i) 8 else bitsOf old (8 * i) 8) * 2 ^ (8 * i)) 0

/-- No bits in error. (DEDUCED: log 166) -/
def Upset.none : Upset := ⟨0, 0, 0⟩

/-- A word written whole through its controller. -/
def Dev.wordWrite (d : Dev) (m w v : Nat) : Dev :=
  (d.wordPut m w v 0).when (decide (m < 2)) fun d => (d.bump (0x20 + m) QMC.WRITES 1).bwAdd (36 + m) true 64

/-- An entry drains (R525). -/
def Dev.drain (d : Dev) (e : MergeEntry) : Dev :=
  let m := ctrlMem e.ctrl
  let d := { d with merge := d.merge.filter (· != e) }
  let d := if m < 2 then d.bump (0x20 + m) QMC.MERGE_DRAINS 1 else d.bump pgECC ECC.MERGE_DRAINS 1
  if e.mask = 0xFF then d.wordWrite m e.word e.data
  else
    let r := d.eccRead m e.word Upset.none 2 e.req
    match r.2.1 with
    | some v => r.1.wordWrite m e.word (mergeBytes v e.mask e.data)
    | none => r.1.ev (eccPort (bucketOf m e.word)).pg (eccPort (bucketOf m e.word)).merge

/-- Entries that meet a condition drain, oldest first. -/
def Dev.drainIf (d : Dev) (f : MergeEntry → Bool) : Dev := (d.merge.filter f).foldl (fun d e => d.drain e) d

/-- The entry that holds a word drains. -/
def Dev.drainWord (d : Dev) (m w : Nat) : Dev := d.drainIf fun e => ctrlMem e.ctrl == m && e.word == w

/-- A narrow write enters the merge buffer: its word's entry, or a new one, for which the oldest drains when all 8 are in use
(R525). (DEDUCED: log 169) -/
def Dev.mergeWrite (d : Dev) (c w mask data req : Nat) : Dev :=
  match d.merge.find? fun e => e.ctrl == c && e.word == w with
  | some e =>
    let e' : MergeEntry := ⟨c, w, e.mask ||| mask, mergeBytes e.data mask data, req⟩
    { d with merge := d.merge.map fun x => if x = e then e' else x }
  | none =>
    let mine := d.merge.filter fun e => e.ctrl == c
    let d := match mine with
      | e :: _ => if 8 ≤ mine.length then d.drain e else d
      | [] => d
    { d with merge := d.merge ++ [⟨c, w, mask, mergeBytes 0 mask data, req⟩] }

/-- A demand read of a word by a requester: the data unless it is uncorrectable, and the syndrome (R525–R527). (DEDUCED: log 168) (DEDUCED: log 174) -/
def Dev.demandRead (d : Dev) (m w : Nat) (x : Upset) (req : Nat) : Dev × Option Nat × Nat :=
  ((d.drainWord m w).when (decide (m < 2)) fun d => (d.bump (0x20 + m) QMC.READS 1).bwAdd (36 + m) false 64).eccRead m w x 0 req

/-- A write of bytes of a word of hub SRAM or QDR through its controller: a whole word bypasses the merge buffer (R525). -/
def Dev.ctrlWrite (d : Dev) (c w mask data req : Nat) : Dev :=
  if mask = 0xFF then (d.drainWord (ctrlMem c) w).wordWrite (ctrlMem c) w data else d.mergeWrite c w mask data req

/-- A write of bytes of a word of a memory without a merge buffer: a narrow one reads, corrects and merges at once, and is
discarded on an uncorrectable word, which is left poisoned (R525, R528). (DEDUCED: log 179) -/
def Dev.directWrite (d : Dev) (m w mask data req : Nat) : Dev :=
  if mask = 0xFF then d.wordPut m w data 0
  else
    let r := d.eccRead m w Upset.none 2 req
    match r.2.1 with
    | some v => r.1.wordPut m w (mergeBytes v mask data) 0
    | none => r.1.when (decide (bucketOf m w < 5)) (·.ev pgECC 5)

/-- The words of hub SRAM from a byte address drain their merge entries (R525). -/
def Dev.sramDrain (d : Dev) (a n : Nat) : Dev :=
  d.drainIf fun e => e.ctrl == 0 && decide (a / 8 ≤ e.word) && decide (8 * e.word < a + n)

/-- Bytes that hardware writes into hub SRAM from a word's address: whole words, and the rest as one narrow write (R525). -/
def Dev.sramWrite (d : Dev) (a : Nat) (l : List (BitVec 8)) : Dev :=
  let n := l.length / 8 * 8
  let at_ := memBase 2 + a
  let d := d.sramDrain a n
  let d := { d with
    mem := memWriteBytes d.mem at_ (l.take n)
    syn := d.syn.filter fun e => !(decide (at_ ≤ e.1 * 8) && decide (e.1 * 8 < at_ + n)) }
  if n = l.length then d
  else d.mergeWrite 0 ((a + n) / 8) (2 ^ (l.length - n) - 1) ((l.drop n).foldr (fun b v => b.toNat + 256 * v) 0) 3

/-- `n` words of hub SRAM that hardware reads from a word on; what it takes from an uncorrectable one is not stated (R525,
R526). (DEDUCED: log 208) -/
def Dev.sramWords : Nat → Nat → Dev → Dev × List Nat
  | 0, _, d => (d, [])
  | n + 1, w, d =>
    let r := d.demandRead 2 w Upset.none 3
    let x : Dev × Nat := match r.2.1 with | some v => (r.1, v) | none => (r.1.used, r.1.free % 2 ^ 64)
    let q := sramWords n (w + 1) x.1
    (q.1, x.2 :: q.2)

/-- `n` bytes of hub SRAM that hardware reads from a word's address. -/
def Dev.sramRead (d : Dev) (a n : Nat) : Dev × List (BitVec 8) :=
  let r := Dev.sramWords (cdiv n 8) (a / 8) d
  (r.1, (List.range n).map fun i => BitVec.ofNat 8 (bitsOf (r.2.getD (i / 8) 0) (8 * (i % 8)) 8))

/-- The memory with every correctable word corrected, as a consumer that changes nothing reads it (R520, R524). -/
def Dev.memFixed (d : Dev) : List Host.Cell :=
  d.syn.foldl (fun m e =>
    if eccClass e.2 = 1 then memWriteN m 8 (8 * e.1) (eccFix (memReadN m 8 (8 * e.1)) e.2) else m) d.mem

end Sys2Proof.Machine
end

