-- ==== Sys2Proof/Machine/Ring.lean ====
section
/-! DEFINITION.  Notifications to the host: what waits, the room of the ring, and the backlog (R500, R505–R507).
They stand before the event machinery because a delivery can produce one. -/

namespace Sys2Proof.Machine

/-- The signed 16-bit difference of sequence numbers (R500). -/
def diff16 (a b : Nat) : Int := sOf 16 ((a % 2 ^ 16 + (2 ^ 16 - b % 2 ^ 16)) % 2 ^ 16)

/-- The management complex changed. -/
def Dev.mgmtUpd (d : Dev) (f : MgmtState → MgmtState) : Dev := { d with mgmt := f d.mgmt }

/-- The acknowledgement in force: an ACK ahead of WRITTEN counts as WRITTEN (R506). -/
def Dev.ntfAck (d : Dev) : Nat :=
  let w := d.get pgMBX MBX.NTF_WRITTEN_SEQ
  let a := d.get pgMBX MBX.NTF_ACK_SEQ
  if 0 < diff16 a w then w else a

/-- How many notifications can be written now: notification q only while diff16(q, ACK) ≤ 1,024 and EN is 1 (R506, R511). -/
def Dev.ntfRoom (d : Dev) : Nat :=
  if d.flag pgMBX MBX.CTL_EN then (1024 - diff16 (d.get pgMBX MBX.NTF_WRITTEN_SEQ) d.ntfAck).toNat else 0

/-- Notifications that cannot be written and wait in the backlog (R507). (DEDUCED: log 153) -/
def Dev.backlog (d : Dev) : Nat := d.mgmt.ntf.length - d.ntfRoom

/-- STATUS.NTF_FULL and MBX_STAT.BACKLOG follow the backlog, with NTF_FULL raised when it becomes non-empty (R507, R515). -/
def Dev.backlogShow (d : Dev) : Dev :=
  let b := d.backlog
  let was := d.flag pgMBX MBX.STATUS_NTF_FULL
  ((d.putb pgMBX MBX.STATUS_NTF_FULL (b != 0)).put pgMBX MBX.STAT_BACKLOG b).when (b != 0 && !was) (·.ev pgMBX 2)

/-- The backlog has no place left, one being kept for the completion of each consumed command (R507). -/
def Dev.backlogFull (d : Dev) : Bool := decide (64 ≤ d.backlog + d.mgmt.cmds.length)

/-- A notification enters the line of those to be written. -/
def Dev.ntfPush (d : Dev) (n : Ntf) : Dev := (d.mgmtUpd fun m => { m with ntf := m.ntf ++ [n] }).backlogShow

/-- An EVENT or LOOP notification; one that meets a full backlog is discarded, with NTF_LOST (R507). -/
def Dev.notify (d : Dev) (typ ref : Nat) : Dev :=
  if d.ntfRoom ≤ d.mgmt.ntf.length && d.backlogFull then
    ((d.mgmtUpd fun m => { m with lost := m.lost + 1 }).bump pgMBX MBX.NTF_LOST 1).ev pgMBX 3
  else d.ntfPush ⟨typ, ref, 0, []⟩

end Sys2Proof.Machine
end

