-- ==== Sys2Proof/Machine/Count.lean ====
section
/-! DEFINITION.  The general performance counters, which every command can make count (R561, R562).  They stand before the
event machinery because occurrences count and a wrap is an occurrence. -/

namespace Sys2Proof.Machine

/-- Counter `i` is chained to the counter before it (R562). -/
def Dev.perfChained (d : Dev) (i : Nat) : Bool := i != 0 && d.flag pgPERFW (PERFW.SEL_CHAIN.at (i - 1))

/-- Counter `i` adds `n`; a wrap carries into a chained successor, and occurs as WRAP when the successor has CHAIN = 0
(R562, R571). (DEDUCED: log 187) -/
def Dev.perfCarry : Nat → Nat → Nat → Dev → Dev
  | 0, _, _, d => d
  | k + 1, i, n, d =>
    let v := d.get pgPERFW (PERFW.CNT.at i) + n
    let d := d.put pgPERFW (PERFW.CNT.at i) v
    if v < m48 then d
    else
      let d := d.when (i == 31 || !d.flag pgPERFW (PERFW.SEL_CHAIN.at (i + 1))) (·.ev pgPERFW 3)
      if i < 31 && d.flag pgPERFW (PERFW.SEL_CHAIN.at i) then perfCarry k (i + 1) 1 d else d

/-- Counter `i` adds `n` of its own selection, unless it is chained (R561, R562). -/
def Dev.perfAdd (d : Dev) (i n : Nat) : Dev := if n = 0 || d.perfChained i then d else Dev.perfCarry 32 i (n % m48) d

/-- Some counter selects events or counters of pages. -/
def Dev.perfBusy (d : Dev) : Bool :=
  d.regs.any fun e => keyPage e.1 == pgPERFW && decide (0x100 ≤ keyOff e.1) && decide (keyOff e.1 < 0x180)

/-- A 48-bit counter at offset 0xC00 + 8 × `idx` of a page, readable now (R44, R561, R569). -/
def Dev.cntAt (d : Dev) (pg idx : Nat) : Option Nat :=
  let off := 0xC00 + 8 * idx
  if pg = pgPERFW && idx ≥ 32 then none
  else if accOf (fkey pg off 0) != some .cnt then none
  else match pageInfo pg with
    | none => none
    | some i =>
      if (match i.die with | some p => !d.online p | none => false) then none
      else if i.row.blk = .pier && idx = 1 then some (FMap.get d.evt.evqDrop i.inst)
      else some (d.get pg ⟨off, 0, 48, .cnt, 0, 8, 1, false⟩)

/-- KIND 2: what the selected counters have advanced by since `old` (R561); one that a reset returned to zero has not
advanced. (DEDUCED: log 188) -/
def Dev.perfDiff (old d : Dev) : Dev :=
  if !d.perfBusy then d
  else (List.range 32).foldl (fun d i =>
    if d.get pgPERFW (PERFW.SEL_KIND.at i) ≠ 2 then d
    else
      let pg := d.get pgPERFW (PERFW.SEL_PAGE.at i)
      let idx := d.get pgPERFW (PERFW.SEL_IDX.at i)
      match old.cntAt pg idx, d.cntAt pg idx with
      | some a, some b =>
        let n := (b + m48 - a) % m48
        if n < 2 ^ 47 then d.perfAdd i n else d
      | _, _ => d) d

/-- KIND 1: one occurrence of each source of a cycle, by local source key (R52, R561). -/
def Dev.perfOccur (d : Dev) (all : FMap) : Dev :=
  if !d.perfBusy then d
  else (List.range 32).foldl (fun d i =>
    if d.get pgPERFW (PERFW.SEL_KIND.at i) ≠ 1 then d
    else
      let s := d.get pgPERFW (PERFW.SEL_SRC.at i)
      if all.any fun x => firstSrc (x.1 / 64) + x.1 % 64 == s then d.perfAdd i 1 else d) d

end Sys2Proof.Machine
end

