-- ==== Sys2Proof/Machine/Flags.lean ====
section
/-! DEFINITION.  The sticky flags of the device and what happens when they rise: occurrences,
EVT_COUNT and EVT_FIRST (R45, R52), assertion, groups and the top summary (R46), delivery along the
route entries (R47–R50, R495, R496).  Every command ends with `Dev.settle`. -/

namespace Sys2Proof.Machine

/-- Occurrences of one cycle, each source once (R52). -/
def occSet (l : List Nat) : FMap := l.foldl (fun m k => FMap.set m k 1) []

/-- What one occurrence of source `k` does to the event registers, `old` being the registers at the
start of the cycle and `all` the sources occurring in it: sticky bit, EVT_COUNT saturating, and, while VALID is 0, EVT_FIRST
capturing the lowest source that the cycle sets, with MULTI when it sets several; a source that is set already only counts
(R45, R42). -/
def Evt.occur (old : Evt) (all : FMap) (e : Evt) (k : Nat) : Evt :=
  let pg := k / 64
  let mates := all.filter (fun x => x.1 / 64 == pg && FMap.get old.sticky x.1 == 0)
  let cap := FMap.get old.first pg < 2 ^ 31 && (mates.head?.map (·.1)) == some k
  { e with
    sticky := FMap.set e.sticky k 1
    count := FMap.set e.count pg (satN 32 (FMap.get e.count pg + 1))
    first := if cap then FMap.set e.first pg (k % 64 + (if mates.length > 1 then 2 ^ 8 else 0) + 2 ^ 31)
             else e.first }

/-- The sources asserted: sticky and not masked (R46). -/
def Evt.assertedNow (e : Evt) : FMap := e.sticky.filter (fun x => FMap.get e.unmasked x.1 != 0)

/-- The global number of a source. -/
def globalSrc (k : Nat) : Nat := firstSrc (k / 64) + k % 64

/-- The local source of page `k / 64` exists (R43). -/
def srcExists (k : Nat) : Bool := decide (k % 64 < numSrc (k / 64))

/-- A message on an MSI-X vector: sent when MSI-X is enabled, the Function Mask clear and the vector
unmasked; otherwise the vector's pending bit is set (R49). -/
def Dev.msix (d : Dev) (vec : Nat) : Dev :=
  if d.evt.msixEn && !d.evt.fmask && !d.flag pgEVT0 (EVT0.MSIX_VCTL_MASK.at vec) then
    d.emit (.msix vec (d.getLH pgEVT0 (EVT0.MSIX_ADDR_ADDR.at vec) (EVT0.MSIX_UADDR_ADDR.at vec))
      (d.get pgEVT0 (EVT0.MSIX_DATA_DATA.at vec)))
  else { d with evt := { d.evt with pba := FMap.set d.evt.pba vec 1 } }

/-- The state code of pier engine `k`: 0 OFF (R493, R518). -/
def Dev.engState (d : Dev) (k : Nat) : Nat := d.get (pgPIER (k / 16)) (PIER.ENG_STATE.at (k % 16))

/-- A source number posted to a pier engine's event queue: discarded in OFF, and, on a full queue of 16,
discarded with the engine's overflow bit, PIER_EVQ_DROP and EVQ_OVF (R495, R496). (DEDUCED: log 12) (DESIGN CHOICE: log 164) -/
def Dev.evqPost (d : Dev) (eng src : Nat) : Dev :=
  let q := (AMap.find? d.evt.evq eng).getD []
  if d.engState eng = 0 then d
  else if q.length < 16 then { d with evt := { d.evt with evq := AMap.insert d.evt.evq eng (q ++ [src]) } }
  else
    ({ d with evt := { d.evt with
        evqOvf := FMap.set d.evt.evqOvf eng 1
        evqDrop := FMap.set d.evt.evqDrop (eng / 16) ((FMap.get d.evt.evqDrop (eng / 16) + 1) % m48) } }
      ).ev (pgPIER (eng / 16)) 1

/-- A delivery of source `k` to every target its route entry enables (R47); a pier number of 192 or
more counts as PIER_EN = 0.  A group that NTF_EVENTS selected also gives the host an EVENT notification (R504). -/
def Dev.deliver (d : Dev) (k : Nat) : Dev :=
  let s := globalSrc k
  let r := FMap.get d.evt.route s
  let d := d.when (bitOf r 8) (·.msix (bitsOf r 0 6))
  let d := d.when (bitOf r 10 && decide (bitsOf r 12 8 < 192)) (·.evqPost (bitsOf r 12 8) s)
  d.when (bitOf d.mgmt.groups (s / 32)) (·.notify 2 s)

/-- One round: the occurrences of the cycle are taken, and every source whose asserted state has risen
is delivered, lowest global number first; the performance counters count the occurrences. -/
def Dev.settle1 (d : Dev) : Dev :=
  let all := (occSet d.occ).filter (fun x => srcExists x.1)
  let e := all.foldl (fun e x => Evt.occur d.evt all e x.1) d.evt
  let now := e.assertedNow
  let rise := now.filter (fun x => FMap.get d.evt.asserted x.1 == 0)
  let d' := rise.foldl (fun d x => d.deliver x.1) { d with occ := [], evt := { e with asserted := now } }
  (d.perfDiff d').perfOccur all

/-- Rounds until no occurrence is left; a delivery can raise EVQ_OVF of a pier page, NTF_FULL and NTF_LOST, and a counter
can wrap. -/
def Dev.settleN : Nat → Dev → Dev
  | 0, d => { d with occ := [] }
  | n + 1, d => let d' := d.settle1; if d'.occ.isEmpty then d' else settleN n d'

/-- The end of a cycle: a round after the first takes what the round before raised: EVQ_OVF of a pier page, NTF_FULL,
NTF_LOST, or WRAP. (DEDUCED: log 11) -/
def Dev.settle (d : Dev) : Dev := d.settleN 64

/-- A group of 32 global sources is asserted: some source of it is, and EVT_GRP_MASK does not mask
the group (R46). -/
def Dev.groupUp (d : Dev) (g : Nat) : Bool :=
  let masked := if g < 32 then bitOf (d.get pgEVT0 EVT0.GRP_MASK_LO_MASK) g
    else bitOf (d.get pgEVT0 EVT0.GRP_MASK_HI_MASK) (g - 32)
  !masked && d.evt.asserted.any (fun x => globalSrc x.1 / 32 == g)

/-- The top summary (R46). -/
def Dev.topUp (d : Dev) : Bool := (List.range 36).any d.groupUp

/-- INT_N is driven low: EVT_INTN_CTL.EN with an asserted source whose route includes INT_N, or with
TEST (R50). -/
def Dev.intnLow (d : Dev) : Bool :=
  d.flag pgEVT0 EVT0.INTN_CTL_EN &&
    (d.flag pgEVT0 EVT0.INTN_CTL_TEST ||
      d.evt.asserted.any (fun x => bitOf (FMap.get d.evt.route (globalSrc x.1)) 9))

/-- The line die is power-gated; or held in reset by a rail below its warning level (R580, R582). -/
def LDSYS.GATED : Fld := hid 0 1 0
def LDSYS.HELD : Fld := hid 4 1 0

/-! ### Loss of OSC_IN (R619) -/

/-- A state of the device that nothing is known of (R619). (DEDUCED: log 205) -/
opaque unspecified : Nat → Dev

/-- A key of a register the keystone holds: the KSMB page and the key slots. -/
def ksKey (k : Nat) : Bool := keyPage k == pgKSMB || (keyPage k == pgKEYS && decide (0x700 ≤ keyOff k))

/-- The event registers of the KSMB page as in `d`, the others as in `u`. -/
def Evt.adrift (u d : Evt) : Evt :=
  let ks (k : Nat) : Bool := k / 64 == pgKSMB
  { u with
    sticky := FMap.overlay ks (FMap.norm u.sticky) d.sticky
    unmasked := FMap.overlay ks u.unmasked d.unmasked
    asserted := FMap.overlay ks u.asserted d.asserted
    count := FMap.overlay (· == pgKSMB) u.count d.count
    first := FMap.overlay (· == pgKSMB) u.first d.first }

/-- Outside the keystone the state is unspecified (R619): the device with only the keystone's own state known. -/
def Dev.adrift (d : Dev) : Dev :=
  let u := unspecified d.freeCtr
  let e : EncState := { u.enc with keys := d.enc.keys, ivRec := d.enc.ivRec }
  { u with
    regs := FMap.overlay ksKey (FMap.norm u.regs) d.regs
    evt := u.evt.adrift d.evt
    ks := d.ks, enc := e, lost := true, occ := [], freeCtr := d.freeCtr + 1 }

/-- The device as a command finds it: the outputs of the command before are dropped. -/
def Dev.fresh (d : Dev) : Dev := { d with out := [] }

/-- A change, what the performance counters count of it, then the end of its cycle. -/
def Dev.cycle (d : Dev) (f : Dev → Dev) : Dev := (d.perfDiff (f d)).settle

/-- A command of one cycle, as nearly all are. -/
def Dev.command (d : Dev) (f : Dev → Dev) : Dev := d.fresh.cycle f

/-- A command that makes several accesses, each of which takes effect before the next (R35, R39): the changes `g` names, each
with its own cycle. -/
def Dev.cycles (d : Dev) (g : Dev → List (Dev → Dev)) : Dev := (g d.fresh).foldl Dev.cycle d.fresh

/-- One command.  The queue of waiting commands is not touched.  While OSC_IN is lost, whatever the command leaves outside the
keystone is unspecified (R619). (DESIGN CHOICE: log 14) -/
def State.run (s : State) (f : Dev → Dev) : Host.Outcome State Fault Refusal :=
  .next { s with dev := if s.dev.lost then (s.dev.command f).adrift else s.dev.command f }

/-- A command of several cycles. -/
def State.runCycles (s : State) (g : Dev → List (Dev → Dev)) : Host.Outcome State Fault Refusal :=
  .next { s with dev := if s.dev.lost then (s.dev.cycles g).adrift else s.dev.cycles g }

/-- A reset that ends a loss of OSC_IN (R575, R619): what it sets is known. -/
def State.runReset (s : State) (f : Dev → Dev) : Host.Outcome State Fault Refusal :=
  .next { s with dev := s.dev.command f }

/-- The loss of OSC_IN: from this instant the state outside the keystone is unspecified (R619). -/
def State.runLoss (s : State) : Host.Outcome State Fault Refusal := .next { s with dev := (s.dev.command id).adrift }

end Sys2Proof.Machine
end

