-- ==== Sys2Proof/Machine/Scc.lean ====
section
/-! DEFINITION.  The span control channel: cells, messages, host messages (R255–R259, R282, R283) and
the change-notice exchange (R73–R79, R84, R85). -/

namespace Sys2Proof.Machine

/-! ### Span positions (R53, R82) -/

/-- The transmit span index. -/
def Dev.txSpan (d : Dev) (p : Port) : Nat := d.getLH (pgLFR p) LFR.SPAN_TX_LO_SPAN LFR.SPAN_TX_HI_SPAN

/-- The receive span index. -/
def Dev.rxSpan (d : Dev) (p : Port) : Nat := d.getLH (pgLFR p) LFR.SPAN_RX_LO_SPAN LFR.SPAN_RX_HI_SPAN

/-- The receive counter is valid (R57). -/
def Dev.rxValid (d : Dev) (p : Port) : Bool := d.flag (pgLFR p) LFR.SPAN_RXPOS_VALID

/-- The transmit counter runs (R54). -/
def Dev.txRun (d : Dev) (p : Port) : Bool := d.flag (pgLFR p) LFR.SPAN_TXPOS_RUN

/-- Carrier frames transmitted since the last send of the outstanding proposal, at most 4,096 (R74). -/
def SCC.CN_FRAMES : Fld := hid 0 13 0

/-! ### Cells -/

/-- One bit step of the CRC-16 x^16 + x^12 + x^5 + 1 (R246). -/
def crc16Step (c : Nat) : Nat := if c < 2 ^ 15 then 2 * c else (2 * c) % 2 ^ 16 ^^^ 0x1021

/-- The CRC-16 of R246 and R255 over bytes, most significant bit first, initial value 0xFFFF. -/
def crc16 (bs : List Nat) : Nat :=
  bs.foldl (fun c b => (List.range 8).foldl (fun c _ => crc16Step c) (c ^^^ (b % 256 * 256))) 0xFFFF

/-- Big-endian bytes of a number. -/
def beBytes : Nat → Nat → List Nat
  | 0, _ => []
  | n + 1, v => (v / 256 ^ n % 256) :: beBytes n v

/-- A number from big-endian bytes. -/
def beVal (bs : List Nat) : Nat := bs.foldl (fun a b => a * 256 + b) 0

/-- A cell of 20 bytes: channel, FIRST, LAST, CSEQ, LEN, payload padded with zeros, CRC (R255). -/
def sccCell (ch cseq : Nat) (first last : Bool) (payload : List Nat) : List Nat :=
  let body := (ch * 64 + b2n first * 32 + b2n last * 16 + cseq % 16) :: payload.length ::
    (payload ++ List.replicate (16 - payload.length) 0)
  body ++ beBytes 2 (crc16 body)

/-- An idle cell: LEN 0, every other byte zero (R255). -/
def idleCell : List Nat :=
  let body := List.replicate 18 0
  body ++ beBytes 2 (crc16 body)

/-- The SCC state of a port changed. -/
def Dev.sccUpd (d : Dev) (p : Port) (f : SccState → SccState) : Dev := { d with scc := d.scc.upd p f }

/-- A channel 0 message queued (R256, R257). -/
def Dev.sccSend0 (d : Dev) (p : Port) (bytes : List Nat) : Dev :=
  d.sccUpd p fun s => { s with tx0 := s.tx0 ++ [bytes] }

/-- A keystone message queued on channel 1 (R257). -/
def Dev.sccSend1 (d : Dev) (p : Port) (bytes : List Nat) : Dev :=
  d.sccUpd p fun s => { s with tx1 := s.tx1 ++ [⟨bytes, false, 0⟩] }

/-- The channel 1 cell: the next 16 bytes of its oldest message. -/
def SccState.cell1 (s : SccState) (m : TxMsg) (t : List TxMsg) : List Nat × SccState :=
  let rest := m.bytes.drop 16
  (sccCell 1 s.cseq1 (!m.opened) rest.isEmpty (m.bytes.take 16),
    { s with tx1 := if rest.isEmpty then t else ⟨rest, true, 0⟩ :: t, cseq1 := (s.cseq1 + 1) % 16, last := 1 })

/-- The channel 2 cell: the next 16 bytes of the host message. -/
def SccState.cell2 (s : SccState) (m : TxMsg) (t : List TxMsg) : List Nat × SccState :=
  let rest := m.bytes.drop 16
  (sccCell 2 s.cseq2 (!m.opened) rest.isEmpty (m.bytes.take 16),
    { s with tx2 := if rest.isEmpty then t else ⟨rest, true, m.entry⟩ :: t, cseq2 := (s.cseq2 + 1) % 16, last := 2 })

/-- The cell a transmitter sends next, `none` for the idle cell, by the priority of R256 after the
SPAN_ANNOUNCE of a span's first cell. -/
def SccState.nextCell (s : SccState) : Option (List Nat) × SccState :=
  match s.tx0 with
  | m :: t =>
    (some (sccCell 0 s.cseq0 true true (m.take 16)), { s with tx0 := t, cseq0 := (s.cseq0 + 1) % 16 })
  | [] =>
    match s.tx1, s.tx2 with
    | [], [] => (none, s)
    | m :: t, [] => let r := s.cell1 m t; (some r.1, r.2)
    | [], m :: t => let r := s.cell2 m t; (some r.1, r.2)
    | m :: t, m2 :: t2 =>
      if s.last = 1 then let r := s.cell2 m2 t2; (some r.1, r.2)
      else let r := s.cell1 m t; (some r.1, r.2)

/-- The payload of SPAN_ANNOUNCE: its type, a byte not listed, the index in bytes 2 to 7 (R56, R73). -/
def spanAnnounce (span : Nat) : List Nat := [0x20, 0] ++ beBytes 6 span

/-- A new cell starts at a transmitted frame whose index is a multiple of 4; the one at frame 0 of a span
carries SPAN_ANNOUNCE (R56, R255, R256). -/
def Dev.sccCellTx (d : Dev) (p : Port) (frame : Nat) : Dev :=
  if frame % 4 ≠ 0 then d
  else if frame = 0 then
    let c := sccCell 0 (d.scc.get p).cseq0 true true (spanAnnounce (d.txSpan p))
    (((d.emit (.sccCell p c)).sccUpd p fun s => { s with cseq0 := (s.cseq0 + 1) % 16, cell := c })).bump (pgSCC p) SCC.CELLS_TX 1
  else
    let r := (d.scc.get p).nextCell
    let c := r.1.getD idleCell
    let d := ((d.sccUpd p fun _ => r.2).sccUpd p fun s => { s with cell := c }).emit (.sccCell p c)
    d.when r.1.isSome (·.bump (pgSCC p) SCC.CELLS_TX 1)

/-- The five bytes of the current cell that frame f carries (R251). -/
def Dev.sccFive (d : Dev) (p : Port) (frame : Nat) : List Nat :=
  (List.range 5).map fun i => (d.scc.get p).cell.getD (5 * (frame % 4) + i) 0

/-- The longest message of a channel (R257). (DEDUCED: log 48) -/
def sccLimit (ch : Nat) : Nat := if ch = 0 then 16 else if ch = 1 then 8192 else 512

/-- A receive channel's reassembly. -/
def SccState.asm (s : SccState) (ch : Nat) : RxAsm := if ch = 0 then s.rx0 else if ch = 1 then s.rx1 else s.rx2

/-- A receive channel's reassembly replaced. -/
def SccState.setAsm (s : SccState) (ch : Nat) (a : RxAsm) : SccState :=
  if ch = 0 then { s with rx0 := a } else if ch = 1 then { s with rx1 := a } else { s with rx2 := a }

/-- A discard in reassembly (R258). (DEDUCED: log 49) -/
def Dev.segErr (d : Dev) (p : Port) : Dev := (d.bump (pgSCC p) SCC.SEG_ERR 1).ev (pgSCC p) 6

/-- A complete message: channel 2 joins the host queue or is dropped on a full one (R282); channels 0 and 1
are handed to their consumers, whose step is a command of its own. -/
def Dev.sccDeliver (d : Dev) (p : Port) (ch : Nat) (bytes : List Nat) : Dev :=
  if ch = 2 then
    if (d.scc.get p).rxq.length < 8 then
      (d.sccUpd p fun s => { s with rxq := s.rxq ++ [bytes] }).ev (pgSCC p) 2
    else (d.bump (pgSCC p) SCC.MSG_DROP 1).ev (pgSCC p) 3
  else d.emit (.sccMessage p ch bytes)

/-- A cell opens a message, or completes a single-cell one. -/
def Dev.sccOpen (d : Dev) (p : Port) (ch cseq : Nat) (last : Bool) (pay : List Nat) : Dev :=
  if last then
    (d.sccUpd p fun s => s.setAsm ch ⟨false, [], (cseq + 1) % 16⟩).sccDeliver p ch pay
  else d.sccUpd p fun s => s.setAsm ch ⟨true, pay, (cseq + 1) % 16⟩

/-- Reassembly of a passed, non-idle cell (R258). -/
def Dev.sccReassemble (d : Dev) (p : Port) (b0 : Nat) (pay : List Nat) : Dev :=
  let ch := bitsOf b0 6 2
  let first := bitOf b0 5
  let last := bitOf b0 4
  let cseq := bitsOf b0 0 4
  let a := (d.scc.get p).asm ch
  let closed (d : Dev) : Dev := d.sccUpd p fun s => s.setAsm ch ⟨false, [], 0⟩
  if ch = 3 then d.segErr p
  else if a.opened then
    if first then ((closed d).segErr p).sccOpen p ch cseq last pay
    else if cseq ≠ a.seq then (closed d).segErr p
    else if sccLimit ch < (a.bytes ++ pay).length then (closed d).segErr p
    else if last then (closed d).sccDeliver p ch (a.bytes ++ pay)
    else d.sccUpd p fun s => s.setAsm ch ⟨true, a.bytes ++ pay, (cseq + 1) % 16⟩
  else if first then d.sccOpen p ch cseq last pay
  else d.segErr p

/-- The SCC falls (R259). -/
def Dev.sccDown (d : Dev) (p : Port) : Dev :=
  let d := d.sccUpd p fun s => { s with good := 0 }
  if d.flag (pgSCC p) SCC.STAT_UP then (d.putb (pgSCC p) SCC.STAT_UP false).ev (pgSCC p) 1 else d

/-- SCC_CELL_RX: a cell received outside anchor LOCK is dropped unseen; the CRC decides what is counted and
whether the SCC comes up or goes down; an idle cell ends there; the rest is reassembled (R258, R259). -/
def sccCellRx (p : Port) (cell : List Nat) (locked : Bool) (d : Dev) : Dev :=
  if !locked then d
  else if crc16 (cell.take 18) ≠ beVal (cell.drop 18) then
    let d := (d.bump (pgSCC p) SCC.CRC_ERR 1).ev (pgSCC p) 7
    let d := d.sccUpd p fun s => { s with good := 0, bad := satN 4 (s.bad + 1) }
    if 8 ≤ (d.scc.get p).bad then d.sccDown p else d
  else
    let d := d.bump (pgSCC p) SCC.CELLS_RX 1
    let d := d.sccUpd p fun s => { s with good := satN 4 (s.good + 1), bad := 0 }
    let up := decide (4 ≤ (d.scc.get p).good) && d.get (pgLFR p) (LFR.ALIGN_STATE.at 0) == 5
    let d := d.when (up && !d.flag (pgSCC p) SCC.STAT_UP)
      (fun d => (d.putb (pgSCC p) SCC.STAT_UP true).ev (pgSCC p) 0)
    let len := cell.getD 1 0
    if len = 0 then d else d.sccReassemble p (cell.getD 0 0) ((cell.drop 2).take (min len 16))

/-- The bytes of the transmit buffer, little-endian in its words (R282). -/
def Dev.txBufBytes (d : Dev) (p : Port) (n : Nat) : List Nat :=
  (List.range n).map fun i => bitsOf (d.get (pgSCC p) (SCC.TX_BUF_DATA.at (i / 4))) (8 * (i % 4)) 8

/-- SCC_TX_CTL.SEND: ignored while TX_BUSY, refused with TX_ERR at LEN 0 or above 512, otherwise the buffer
goes out on channel 2 (R277, R282). -/
def sccSend (p : Port) (w : Word) (d : Dev) : Dev :=
  let d := d.putW (pgSCC p) SCC.TX_CTL_LEN w
  let len := d.get (pgSCC p) SCC.TX_CTL_LEN
  if d.flag (pgSCC p) SCC.STAT_TX_BUSY then d
  else if len = 0 ∨ 512 < len then d.ev (pgSCC p) 5
  else (d.sccUpd p fun s => { s with tx2 := s.tx2 ++ [⟨d.txBufBytes p len, false, 0⟩] }).putb (pgSCC p) SCC.STAT_TX_BUSY true

/-- The host message has gone: TX_BUSY falls and TX_DONE is raised (R282, R283). -/
def sccTxDone (p : Port) (d : Dev) : Dev :=
  if d.flag (pgSCC p) SCC.STAT_TX_BUSY && !(d.scc.get p).tx2.any (·.entry == 0) then
    (d.putb (pgSCC p) SCC.STAT_TX_BUSY false).ev (pgSCC p) 4
  else d

/-- SCC_RX_CTL.POP removes the head message (R282). -/
def sccPop (p : Port) (d : Dev) : Dev := d.sccUpd p fun s => { s with rxq := s.rxq.drop 1 }

/-! ### Change notices -/

/-- The target the host proposes. -/
def Dev.cnTarget (d : Dev) (p : Port) : Nat := d.getLH (pgSCC p) SCC.CN_TARGET_LO_TARGET SCC.CN_TARGET_HI_TARGET

/-- CN_PROPOSE of the outstanding proposal (R73). -/
def Dev.cnProposeMsg (d : Dev) (p : Port) : List Nat :=
  let s := d.scc.get p
  [0x21, d.get (pgSCC p) SCC.CN_STAT_SEQ] ++ beBytes 6 s.cnTarget ++ [s.cnClass, 0, 0, 0] ++ beBytes 4 s.cnTag

/-- The reply to a change notice, CN_ACK for reason 0, CN_NACK otherwise (R73). -/
def cnReplyMsg (seq : Nat) (r : CnReply) : List Nat :=
  if r.reason = 0 then [0x22, seq] ++ beBytes 6 r.target ++ [0, 0, 0, 0] ++ beBytes 4 r.tag
  else [0x23, seq] ++ beBytes 6 r.target ++ [r.reason, 0, 0, 0, 0, 0, 0, 0]

/-- A proposal by sequence number and target (R77). -/
def cnKey (seq target : Nat) : Nat := 256 * target + seq

/-- A reply sent and kept for repeats (R77). -/
def Dev.cnReply (d : Dev) (p : Port) (seq : Nat) (r : CnReply) : Dev :=
  (d.sccSend0 p (cnReplyMsg seq r)).sccUpd p fun s => { s with answered := AMap.insert s.answered (cnKey seq r.target) r }

/-- The unanswered proposal answered (R84). -/
def Dev.cnAnswer (d : Dev) (p : Port) (reason : Nat) : Dev :=
  let pg := pgSCC p
  let r : CnReply := ⟨d.getLH pg SCC.CN_RX_TARGET_LO_TARGET SCC.CN_RX_TARGET_HI_TARGET, d.get pg SCC.CN_RX_TAG_TAG, reason⟩
  if d.flag pg SCC.CN_RX_INFO_PENDING then
    (d.putb pg SCC.CN_RX_INFO_PENDING false).cnReply p (d.get pg SCC.CN_RX_INFO_SEQ) r
  else d

/-- A proposal by the host: refused while one is outstanding, or when the target is fewer than 16 spans after
the transmit span index; otherwise sent (R74). (DEDUCED: log 50) -/
def Dev.cnStart (d : Dev) (p : Port) : Dev :=
  let pg := pgSCC p
  let t := d.cnTarget p
  if d.get pg SCC.CN_STAT_STATE = 1 then d.ev pg 14
  else if diff48 t (d.txSpan p) < 16 then (d.put pg SCC.CN_STAT_STATE 6).ev pg 14
  else
    let d := ((d.put pg SCC.CN_STAT_REASON 0).bump pg SCC.CN_STAT_SEQ 1).put pg SCC.CN_STAT_STATE 1
    let d := d.sccUpd p fun s =>
      { s with cnTarget := t, cnClass := d.get pg SCC.CN_CTL_CLASS, cnTag := d.get pg SCC.CN_TAG_TAG, cnSends := 1 }
    (d.put pg SCC.CN_FRAMES 0).sccSend0 p (d.cnProposeMsg p)

/-- A write of SCC_CN_CTL: CLASS and AUTO, then the reply to the pending proposal (REJECT before ACCEPT), then
the proposal (R84). (DEDUCED: log 260) -/
def cnCtl (p : Port) (w : Word) (d : Dev) : Dev :=
  let d := d.putWs (pgSCC p) [SCC.CN_CTL_CLASS, SCC.CN_CTL_AUTO] w
  let d := if bitOf w.toNat 10 then d.cnAnswer p 4 else if bitOf w.toNat 9 then d.cnAnswer p 0 else d
  d.when (bitOf w.toNat 8) (·.cnStart p)

/-- A span of carrier frames has passed since the last send of the outstanding proposal (R74). -/
def Dev.cnDue (d : Dev) (p : Port) : Bool := d.get (pgSCC p) SCC.CN_STAT_STATE == 1 && d.get (pgSCC p) SCC.CN_FRAMES == 4096

/-- A carrier frame passes while a proposal is outstanding (R74). -/
def Dev.cnFrame (d : Dev) (p : Port) : Dev :=
  d.when (d.get (pgSCC p) SCC.CN_STAT_STATE == 1) fun d => d.put (pgSCC p) SCC.CN_FRAMES (min 4096 (d.get (pgSCC p) SCC.CN_FRAMES + 1))

/-- The outstanding proposal is sent again 4,096 carrier frames after the send before, up to 16 sends in all (R74). -/
def cnResendDo (p : Port) (d : Dev) : Dev :=
  if d.cnDue p = true ∧ (d.scc.get p).cnSends < 16 then
    ((d.put (pgSCC p) SCC.CN_FRAMES 0).sccUpd p fun s => { s with cnSends := s.cnSends + 1 }).sccSend0 p (d.cnProposeMsg p)
  else d

/-- No reply 4,096 carrier frames after the last send, or the target fewer than 8 spans ahead (R74). -/
def cnTimeoutDo (p : Port) (d : Dev) : Dev :=
  let s := d.scc.get p
  if d.get (pgSCC p) SCC.CN_STAT_STATE = 1 ∧ (d.cnDue p = true ∧ s.cnSends = 16 ∨ diff48 s.cnTarget (d.txSpan p) < 8) then
    (d.put (pgSCC p) SCC.CN_STAT_STATE 4).ev (pgSCC p) 10
  else d

/-- The reply belongs to the outstanding proposal (R74). -/
def Dev.cnMatches (d : Dev) (p : Port) (seq target : Nat) : Bool :=
  d.get (pgSCC p) SCC.CN_STAT_STATE == 1 && d.get (pgSCC p) SCC.CN_STAT_SEQ == seq && (d.scc.get p).cnTarget == target

/-- A received CN_ACK (R74). -/
def cnAckDo (p : Port) (seq target : Nat) (d : Dev) : Dev :=
  if d.cnMatches p seq target then (d.put (pgSCC p) SCC.CN_STAT_STATE 2).ev (pgSCC p) 8 else d

/-- A received CN_NACK (R74). -/
def cnNackDo (p : Port) (seq target reason : Nat) (d : Dev) : Dev :=
  if d.cnMatches p seq target then
    ((d.put (pgSCC p) SCC.CN_STAT_STATE 3).put (pgSCC p) SCC.CN_STAT_REASON reason).ev (pgSCC p) 9
  else d

/-- A proposal stored in SCC_CN_RX with CN_RX raised; acknowledged at once, or waiting (R75, R78). -/
def Dev.cnStore (d : Dev) (p : Port) (seq target cls tag : Nat) (auto : Bool) : Dev :=
  let pg := pgSCC p
  let d := (d.putLH pg SCC.CN_RX_TARGET_LO_TARGET SCC.CN_RX_TARGET_HI_TARGET target).put pg SCC.CN_RX_TAG_TAG tag
  let d := (d.put pg SCC.CN_RX_INFO_CLASS cls).put pg SCC.CN_RX_INFO_SEQ seq
  let d := (d.putb pg SCC.CN_RX_INFO_PENDING (!auto)).putb pg SCC.CN_RX_INFO_AUTO_ACKED auto
  (d.when auto (·.cnReply p seq ⟨target, tag, 0⟩)).ev pg 12

/-- The checks of R75, then storing. (DEDUCED: log 247) -/
def Dev.cnReceive (d : Dev) (p : Port) (seq target cls tag : Nat) : Dev :=
  let tx := diff48 target (d.txSpan p)
  let rx := diff48 target (d.rxSpan p)
  let v := d.rxValid p
  if tx < 8 ∨ (v = true ∧ rx < 8) then d.cnReply p seq ⟨target, tag, 1⟩
  else if 2 ^ 24 < tx ∨ (v = true ∧ (2 ^ 24 : Int) < rx) then d.cnReply p seq ⟨target, tag, 2⟩
  else if d.flag (pgSCC p) SCC.CN_RX_INFO_PENDING then d.cnReply p seq ⟨target, tag, 3⟩
  else d.cnStore p seq target cls tag (bitOf (d.get (pgSCC p) SCC.CN_CTL_AUTO) cls)

/-- The proposal this end holds unanswered. -/
def Dev.cnHeld (d : Dev) (p : Port) (seq target : Nat) : Bool :=
  let pg := pgSCC p
  d.flag pg SCC.CN_RX_INFO_PENDING && d.get pg SCC.CN_RX_INFO_SEQ == seq &&
    d.getLH pg SCC.CN_RX_TARGET_LO_TARGET SCC.CN_RX_TARGET_HI_TARGET == target

/-- A received CN_PROPOSE: a repeat of one answered is answered alike, a repeat of the one held is nothing
new (R77); against an outstanding proposal the earlier target wins (R78); otherwise R75. -/
def cnProposeRx (p : Port) (seq target cls tag : Nat) (d : Dev) : Dev :=
  let s := d.scc.get p
  match AMap.find? s.answered (cnKey seq target) with
  | some r => d.sccSend0 p (cnReplyMsg seq r)
  | none =>
    if d.cnHeld p seq target then d
    else if d.get (pgSCC p) SCC.CN_STAT_STATE = 1 then
      if diff48 target s.cnTarget < 0 then
        ((d.put (pgSCC p) SCC.CN_STAT_STATE 5).ev (pgSCC p) 11).cnReceive p seq target cls tag
      else if diff48 target s.cnTarget = 0 then d.cnStore p seq target cls tag true
      else (d.cnReply p seq ⟨target, tag, 5⟩).ev (pgSCC p) 15
    else d.cnReceive p seq target cls tag

/-- The host has not answered by the time the target is 8 spans ahead (R76). -/
def cnLateDo (p : Port) (d : Dev) : Dev :=
  let pg := pgSCC p
  if d.flag pg SCC.CN_RX_INFO_PENDING &&
      decide (diff48 (d.getLH pg SCC.CN_RX_TARGET_LO_TARGET SCC.CN_RX_TARGET_HI_TARGET) (d.txSpan p) ≤ 8) then
    (d.cnAnswer p 1).ev pg 13
  else d

/-! ### The commands -/

/-- PROPOSE: a write of SCC_CN_CTL whose PROPOSE bit is 1. -/
def execPropose (p : Port) (w : Word) (s : State) : Host.Outcome State Fault Refusal :=
  s.run (cnCtl p (w ||| 0x100#32))

/-- ACCEPT: a write of SCC_CN_CTL whose ACCEPT bit is 1. -/
def execAccept (p : Port) (w : Word) (s : State) : Host.Outcome State Fault Refusal :=
  s.run (cnCtl p (w ||| 0x200#32))

/-- REJECT: a write of SCC_CN_CTL whose REJECT bit is 1. -/
def execReject (p : Port) (w : Word) (s : State) : Host.Outcome State Fault Refusal :=
  s.run (cnCtl p (w ||| 0x400#32))

def execCnResend (p : Port) (s : State) : Host.Outcome State Fault Refusal := s.run (cnResendDo p)

def execCnTimeout (p : Port) (s : State) : Host.Outcome State Fault Refusal := s.run (cnTimeoutDo p)

def execCnPropose (p : Port) (seq : BitVec 8) (target : BitVec 48) (cls : BitVec 3) (tag : Word) (s : State) :
    Host.Outcome State Fault Refusal :=
  s.run (cnProposeRx p seq.toNat target.toNat cls.toNat tag.toNat)

def execCnAck (p : Port) (seq : BitVec 8) (target : BitVec 48) (s : State) : Host.Outcome State Fault Refusal :=
  s.run (cnAckDo p seq.toNat target.toNat)

def execCnNack (p : Port) (seq : BitVec 8) (target : BitVec 48) (reason : BitVec 8) (s : State) :
    Host.Outcome State Fault Refusal :=
  s.run (cnNackDo p seq.toNat target.toNat reason.toNat)

def execCnLateReply (p : Port) (s : State) : Host.Outcome State Fault Refusal := s.run (cnLateDo p)

def execSend (p : Port) (w : Word) (s : State) : Host.Outcome State Fault Refusal := s.run (sccSend p w)

def execTxDone (p : Port) (s : State) : Host.Outcome State Fault Refusal := s.run (sccTxDone p)

def execPop (p : Port) (s : State) : Host.Outcome State Fault Refusal := s.run (sccPop p)

end Sys2Proof.Machine
end

