-- ==== Sys2Proof/Machine/Stage.lean ====
section
/-! DEFINITION.  Host writes to staged fields (R64). -/

namespace Sys2Proof.Machine

/-- A host write to a side of a page is ignored: the write lands after the sampling instant of that side of an armed
commit and before the commit completes.  `near` says the write lands within 64 datapath clocks of the next
transmit or receive span boundary (R61, R64). (DEDUCED: log 248) -/
def Dev.stageLocked (d : Dev) (pg : Nat) (a : Acc) (near : Bool × Bool) : Bool :=
  match AMap.find? d.commits pg with
  | none => false
  | some c =>
    if a = .rwst then c.tx || (near.1 && diff48 c.target (d.txSpan c.port) == 1)
    else c.rx || (near.2 && diff48 c.target (d.rxSpan c.port) == 1)

/-- A host write to a staged field: the pending value changes, or the write is ignored with WR_DROP (R9, R64). -/
def Dev.stage (d : Dev) (pg : Nat) (f : Fld) (near : Bool × Bool) (w : Word) : Dev :=
  if d.stageLocked pg f.acc near then d.putb pg COMMON.COMMIT_STAT_WR_DROP true
  else d.pput pg f (f.ofWord w.toNat)

end Sys2Proof.Machine
end

