-- ==== Sys2Proof/Machine/Conv.lean ====
section
/-! DEFINITION.  Line converters and hitless slice calibration (R86–R125). -/

namespace Sys2Proof.Machine

/-- Mute state in force on the DAC lanes (R99). -/
def DAC.MUTE_LIVE : Fld := hid 0 4 15
/-- The test pattern in force (R211). -/
def TXS.PAT_LIVE : Fld := hid 0 2 0
/-- Overranges of a lane in the current receive carrier frame (R121). -/
def ADC.OVR_FRAME : Fld := ⟨0x1010, 0, 32, .ro, 0, 4, 4, false⟩
/-- The PLL of the receive or transmit converters is retuning (R87). -/
def ADC.RETUNE : Fld := hid 0 1 0
def DAC.RETUNE : Fld := hid 4 1 0
/-- The frame under way began inside a retune (R87). -/
def DAC.CUT : Fld := hid 8 1 0

/-- The pass that runs or is held is a priority pass. -/
def LCAL.PRIO : Fld := hid 0 1 0

/-- The live receive symbol rate in MBd; a value outside 60,000 to 300,000 acts as the nearer limit (R87, R120). -/
def Dev.rxBaud (d : Dev) (p : Port) : Nat := clampN 60000 300000 (d.get (pgADC p) ADC.BAUD)

/-- The live transmit symbol rate in MBd (R87, R122). -/
def Dev.txBaud (d : Dev) (p : Port) : Nat := clampN 60000 300000 (d.get (pgDAC p) DAC.BAUD)

/-- ADC_SR.MSPS: 1.2 × the live receive symbol rate, rounded down (R120). (DEDUCED: log 212) -/
def Dev.adcMsps (d : Dev) (p : Port) : Nat := d.rxBaud p * 6 / 5

/-- The converters of a port changed. -/
def Dev.convUpd (d : Dev) (p : Port) (f : ConvState → ConvState) : Dev := { d with conv := d.conv.upd p f }

/-- The key of a slice. -/
def sliceKey (lane k : Nat) : Nat := lane * 256 + k

/-- The selections before any calibration: the first comparators, no cell mask chosen, and clock tap 16 (R122). (DESIGN CHOICE: log 209) -/
def selReset : Sel := ⟨[], [], 16⟩

/-- Slice `k` of a lane after reset: it holds position `k`, or is a spare from 160 up (R89). -/
def sliceReset (k : Nat) : Slice :=
  if k % 256 < 160 then ⟨0, k % 256, 255, false, false, 0, 0, 0, 0, ⟨0, 0, 0⟩, selReset⟩
  else ⟨1, 255, 255, false, false, 0, 0, 0, 0, ⟨0, 0, 0⟩, selReset⟩

/-- A sub-DAC after PWRON_N. -/
def subReset : SubDac := ⟨⟨0, 0, 0⟩, selReset, false, false, false, 0, 0, 0⟩

/-- A sub-DAC, by lane × 16 + number. -/
def ConvState.sub (c : ConvState) (i : Nat) : SubDac := (AMap.find? c.subs i).getD subReset

/-- The slice at a key. -/
def ConvState.slice (c : ConvState) (k : Nat) : Slice := (AMap.find? c.slices k).getD (sliceReset k)

/-- A slice changed. -/
def ConvState.setSlice (c : ConvState) (k : Nat) (f : Slice → Slice) : ConvState :=
  { c with slices := AMap.insert c.slices k (f (c.slice k)) }

/-- The keys of a lane's slices. -/
def laneKeys (lane : Nat) : List Nat := (List.range 168).map (sliceKey lane)

/-- The keys of all slices of a port. -/
def allKeys : List Nat := (List.range 4).flatMap laneKeys

/-- The free spares of a lane: slices neither retired nor holding a position of their own (R120). -/
def ConvState.freeSpares (c : ConvState) (lane : Nat) : Nat :=
  (laneKeys lane).countP fun k => (c.slice k).role == 1 || (c.slice k).role == 2

/-- The suspect slices of a lane (R120). -/
def ConvState.suspects (c : ConvState) (lane : Nat) : Nat := (laneKeys lane).countP fun k => (c.slice k).suspect

/-- Some trim set of the port is stale (R111, LCAL_STAT.STALE); a retired slice has none in use. -/
def ConvState.anyStale (c : ConvState) : Bool :=
  allKeys.any (fun k => (c.slice k).stale && (c.slice k).role != 4) || c.subs.any (fun e => e.2.stale)

/-- The lanes with a stale sub-DAC trim set (R122). -/
def ConvState.staleLanes (c : ConvState) : Nat :=
  (List.range 4).foldl (fun a l => a + (if c.subs.any (fun e => e.1 / 16 == l && e.2.stale) then 2 ^ l else 0)) 0

/-- The slice that holds a position of a lane. -/
def ConvState.holder (c : ConvState) (lane pos : Nat) : Nat :=
  ((laneKeys lane).find? fun k => (c.slice k).pos == pos && (c.slice k).role != 3 && (c.slice k).role != 4).getD
    (sliceKey lane pos)

/-! ### Subcarriers and profile -/

/-- The live receive profile is Trestle. -/
def Dev.rxTrestle (d : Dev) (p : Port) : Bool := d.flag (pgFEC p) FEC.CTL_RX_PROFILE

/-- K of an NSC code: 1, 4 or 8, code 3 acting as 0 (R128, R153). -/
def kOf (nsc : Nat) : Nat := if nsc = 1 then 4 else if nsc = 2 then 8 else 1

/-- The live receive subcarrier count. -/
def Dev.rxK (d : Dev) (p : Port) : Nat := kOf (d.get (pgCDC p) CDC.SC_CTL_NSC)

/-! ### Samples (R88, R90–R92, R118) -/

/-- The interleave position that converts a sample of a lane, `phase` being that of sample 0 (R88). -/
def samplePos (phase n : Nat) : Nat := (phase + n) % 160

/-- The code of an ADC sample (R91). -/
def adcCode (v : Int) : Int := clampI (-127) 127 v

/-- The ideal code of a sample lies beyond ±127.5 LSB (R92). -/
def overrange (v : Int) : Bool := decide (127 < v.natAbs)

/-- What the offset and gain residuals of a position leave of a code, in LSB as numerator and denominator: (v − offset) / (1 +
gain), offset in 1/16 LSB and gain in 1/4,096 (R90). -/
def gainCorrect (t : Meas) (v : Int) : Int × Int := ((16 * v - t.offset) * 256, 4096 + t.gain)

/-- Residual correction of sample n of a stream: gain and offset of each position removed, then the skew of the sample's own by the
5-tap fractional-delay filter (R90).  The spec gives no taps of that filter and no rounding. (DEDUCED: log 210) -/
def sampleCorrect (trim : Nat → Meas) (x : Nat → Int) (n : Nat) : Int :=
  let near (i : Nat) : Int × Int := if n + i < 2 then (0, 1) else gainCorrect (trim (n + i - 2)) (x (n + i - 2))
  adcCode (Config.skewFilter (trim n).skew ((List.range 5).map near))

/-- The slices as they served when sample n of a lane was converted: those before the first swap that n precedes, or as they stand
(R115). -/
def ConvState.atSample (c : ConvState) (swaps : List Nat) (n : Nat) : ConvState :=
  match (c.capOld.zip swaps).find? (fun e => decide (n < e.2)) with
  | some e => { c with slices := e.1 }
  | none => c

/-- The trims of the slice that served sample i − 2 of a lane when it was converted. -/
def ConvState.trimAt (c : ConvState) (x : Capture) (lane i : Nat) : Meas :=
  let c := c.atSample (x.swaps.map (·.toNat)) (i - 2)
  (c.slice (c.holder lane (samplePos (x.phase.val + 158) i))).trim

/-- A captured sample: before residual correction with −128 for an overrange, or after correction with ±127 for one (R118); with
RESID_EN 0 nothing is corrected (R120). -/
def capCode (post resid : Bool) (trim : Nat → Meas) (x : Nat → Int) (i : Nat) : Int :=
  if !post then (if overrange (x i) then -128 else x i)
  else if overrange (x i) || !resid then adcCode (x i)
  else sampleCorrect trim (fun i => adcCode (x i)) i

/-! ### Overrange and raw capture -/

/-- Capture starts: STATE FILLING, ARM cleared, the receive frame index of the first sample kept (R119). -/
def Dev.capFill (d : Dev) (p : Port) : Dev :=
  let pg := pgADC p
  let d := d.convUpd p fun c => { c with capOld := [] }
  ((d.put pg ADC.CAP_STAT_STATE 2).putb pg ADC.CAP_CTL_ARM false).put pg ADC.CAP_STAT_FRAME
    (d.get (pgLFR p) LFR.SPAN_RXPOS_FRAME)

/-- The armed capture meets its trigger (R119). (DEDUCED: log 261) -/
def Dev.capTrigger (d : Dev) (p : Port) (trig : Nat) : Dev :=
  if d.get (pgADC p) ADC.CAP_STAT_STATE = 1 ∧ d.get (pgADC p) ADC.CAP_CTL_TRIG = trig then d.capFill p else d

/-- ADC_OVERRANGE: the overrange counts of the slice serving the position and of the lane; a capture armed on
overrange starts (R92, R115, R119). -/
def adcOverrangeDo (p : Port) (lane pos : Nat) (d : Dev) : Dev := d.lineDo p fun d =>
  if bitOf (d.get (pgADC p) ADC.STATUS_RUN) lane then
    let k := (d.conv.get p).holder lane pos
    let d := d.convUpd p fun c => c.setSlice k fun s => { s with ovr := satN 16 (s.ovr + 1) }
    let d := d.bump (pgADC p) (ADC.OVR_TOTAL.at lane) 1
    (d.bumpSat (pgADC p) (ADC.OVR_FRAME.at lane) 1).capTrigger p 2
  else d

/-- At a received carrier frame boundary the lanes' overranges of the frame are judged against THR (R121), and a
capture armed on a frame boundary starts. -/
def Dev.adcFrame (d : Dev) (p : Port) : Dev :=
  let pg := pgADC p
  let thr := d.get pg ADC.OVR_CTL_THR
  let hit := (List.range 4).foldl (fun a l => a + (if d.get pg (ADC.OVR_FRAME.at l) = 0 then 0 else 2 ^ l)) 0
  let d := (List.range 4).foldl (fun d l =>
    (if thr < d.get pg (ADC.OVR_FRAME.at l) then d.ev pg l else d).put pg (ADC.OVR_FRAME.at l) 0) d
  (d.put pg ADC.STATUS_OVR_NOW hit).capTrigger p 1

/-- The place of sample n of a lane in what a capture recorded. -/
def capKey (lane : Fin 4) (n : BitVec 16) : BitVec 19 := BitVec.ofNat 19 (131072 * lane.val + n.toNat + 2)

/-- The samples recorded enter the capture buffer, lane L at offsets L × 65,536 on (R118). -/
def Dev.capStore (d : Dev) (p : Port) (x : Capture) : Dev :=
  let post := d.flag (pgADC p) ADC.CAP_CTL_POST
  let resid := d.flag (pgADC p) ADC.LANE_CTL_RESID_EN
  let raw : AMap Int := x.data.foldl (fun m e => AMap.insert m e.1.toNat e.2.toInt) []
  d.convUpd p fun c =>
    let code (l i : Nat) : Int := capCode post resid (c.trimAt x l) (fun n => (AMap.find? raw (l * 131072 + n)).getD 0) i
    { c with capBuf := raw.foldl (fun m e =>
        let l := e.1 / 131072
        let i := e.1 % 131072
        if 2 ≤ i ∧ i < 65538 then FMap.set m (l * 65536 + i - 2) (sTo 8 (code l i)) else m) c.capBuf }

/-- A write of ADC_CAP_CTL: ABORT returns STATE to IDLE and keeps what a capture under way has recorded; ARM, ignored while ARMED
or FILLING, arms and, with TRIG 0 or 3, starts at once (R119). -/
def adcCapWrite (p : Port) (w : Word) (x : Capture) (d : Dev) : Dev := d.hostLine p fun d =>
  let pg := pgADC p
  let d := d.when (bitOf w.toNat 1 && d.get pg ADC.CAP_STAT_STATE == 2) (·.capStore p x)
  let d := d.putWs pg [ADC.CAP_CTL_TRIG, ADC.CAP_CTL_POST, ADC.CAP_CTL_WINDOW] w
  let d := d.when (bitOf w.toNat 1) fun d => (d.put pg ADC.CAP_STAT_STATE 0).putb pg ADC.CAP_CTL_ARM false
  let st := d.get pg ADC.CAP_STAT_STATE
  if bitOf w.toNat 0 && !bitOf w.toNat 1 && st != 1 && st != 2 then
    let d := (d.put pg ADC.CAP_STAT_STATE 1).putb pg ADC.CAP_CTL_ARM true
    let t := d.get pg ADC.CAP_CTL_TRIG
    if t = 0 ∨ t = 3 then d.capFill p else d
  else d

/-- CAP_DONE: the buffer is full (R118, R119). -/
def capDoneDo (p : Port) (x : Capture) (d : Dev) : Dev := d.lineDo p fun d =>
  if d.get (pgADC p) ADC.CAP_STAT_STATE = 2 then
    let d := d.capStore p x
    (d.put (pgADC p) ADC.CAP_STAT_STATE 3).ev (pgADC p) 20
  else d

/-! ### Enables and mutes -/

/-- A write of ADC_LANE_CTL: EN at once, INV and RESID_EN staged (R120). -/
def adcLaneCtl (p : Port) (near : Bool × Bool) (w : Word) (d : Dev) : Dev :=
  let pg := pgADC p
  let d := ((d.putW pg ADC.LANE_CTL_EN w).stage pg ADC.LANE_CTL_INV near w).stage pg ADC.LANE_CTL_RESID_EN near w
  d.put pg ADC.STATUS_RUN (if d.flag pg ADC.RETUNE then 0 else d.get pg ADC.LANE_CTL_EN)

/-- DAC_LANE_CTL: EN takes effect at once; MUTE takes effect at the next transmit carrier frame boundary on a lane
enabled before and after the write while the transmit counter runs, and at once otherwise (R99). -/
def dacLaneCtl (p : Port) (near : Bool × Bool) (w : Word) (d : Dev) : Dev := d.hostLine p fun d =>
  let pg := pgDAC p
  let en0 := d.get pg DAC.LANE_CTL_EN
  let d := (d.putWs pg [DAC.LANE_CTL_EN, DAC.LANE_CTL_MUTE] w).stage pg DAC.LANE_CTL_INV near w
  let wait := if d.txRun p then en0 &&& d.get pg DAC.LANE_CTL_EN else 0
  let live := (d.get pg DAC.MUTE_LIVE &&& wait) ||| (d.get pg DAC.LANE_CTL_MUTE &&& (15 ^^^ wait))
  (d.put pg DAC.MUTE_LIVE live).put pg DAC.STATUS_RUN (d.get pg DAC.LANE_CTL_EN)

/-- A DAC lane drives samples of carrier frames: enabled, not muted, the framer running and the converter PLL
settled; otherwise it drives differential zero (R87, R99). -/
def Dev.dacDrives (d : Dev) (p : Port) (lane : Fin 4) : Bool :=
  bitOf (d.get (pgDAC p) DAC.LANE_CTL_EN) lane && !bitOf (d.get (pgDAC p) DAC.MUTE_LIVE) lane &&
    d.txRun p && !d.flag (pgDAC p) DAC.RETUNE

/-! ### Triggers (R109–R112, R115) -/

/-- A pass is requested: while one runs, a priority trigger cuts it short at the end of its round and a normal one
waits; several triggers before a start give one pass with the first cause (R109, R115). (DEDUCED: log 54) -/
def Dev.lcalRequest (d : Dev) (p : Port) (cause : Nat) (prio : Bool) : Dev :=
  let st := d.get (pgLCAL p) LCAL.STAT_STATE
  if st ≠ 0 ∧ prio = true then d.convUpd p fun c => { c with prio := if c.prio = 0 then cause else c.prio }
  else
    d.convUpd p fun c =>
      { c with wait := match c.wait with | none => some (cause, prio) | some (k, b) => some (k, b || prio) }

/-- Every trim set of the port is marked stale, those found and not yet applied too (R111). -/
def Dev.lcalStale (d : Dev) (p : Port) : Dev :=
  (d.convUpd p fun c =>
    { (allKeys.foldl (fun c k => c.setSlice k fun s => { s with stale := true }) c) with
      subs := (List.range 64).map fun i => (i, { (c.sub i) with stale := true })
      news := c.news.map fun e => (e.1, { e.2 with stale := true })
      dacPend := c.dacPend.map fun e => (e.1, { e.2 with stale := true }) }).ev (pgLCAL p) 2

/-- A pass waits: behind the one that runs, or for HOLD to clear (R115, R124). -/
def Dev.lcalQueued (d : Dev) (p : Port) : Bool :=
  let c := d.conv.get p
  let hold := d.flag (pgLCAL p) LCAL.CTL_HOLD
  c.wait.isSome && (hold || d.get (pgLCAL p) LCAL.STAT_STATE != 0) || hold && c.prio != 0

/-- A trigger requests a pass when AUTO, and its TRIG_EN bit when it has one, allow it (R109, R124). -/
def Dev.lcalTrigger (d : Dev) (p : Port) (cause : Nat) (prio : Bool) (en : Option Nat) : Dev :=
  let ok := d.flag (pgLCAL p) LCAL.CTL_AUTO &&
    (match en with | none => true | some b => bitOf (d.get (pgLCAL p) LCAL.CTL_TRIG_EN) b)
  d.when ok (·.lcalRequest p cause prio)

/-- The TEMP threshold in 0.1 °C, 5 to 100 (R124). -/
def Dev.lcalDt (d : Dev) (p : Port) : Nat := clampN 5 100 (d.get (pgLCAL p) LCAL.CTL_DT)

/-- A converter temperature; more than DT away from that of the last completed pass it is the TEMP trigger (R109). -/
def lcalTempDo (p : Port) (lane temp : Nat) (d : Dev) : Dev := d.lineDo p fun d =>
  let d := d.put (pgLCAL p) (LCAL.TEMP_NOW.at lane) temp
  let mv := sOf 16 temp - sOf 16 (d.get (pgLCAL p) (LCAL.TEMP_LAST.at lane))
  d.when (decide ((d.lcalDt p * 16 : Nat) < mv.natAbs * 10)) (·.lcalTrigger p 1 false (some 0))

/-- The load band of a power in 0.01 W, from the band before: it rises at 6, 12 and 18 W and falls 0.5 W below
them (R110). (DEDUCED: log 53) -/
def loadBand (old power : Nat) : Nat :=
  let up := if power < 600 then 0 else if power < 1200 then 1 else if power < 1800 then 2 else 3
  let dn := if power < 550 then 0 else if power < 1150 then 1 else if power < 1750 then 2 else 3
  if old < up then up else if dn < old then dn else old

/-- A power reading: the load band follows it; a band 2 or more from that of any trim set is the LOAD trigger and
marks every trim set stale (R109–R111). (DEDUCED: log 249) -/
def lcalLoadDo (p : Port) (power : Nat) (d : Dev) : Dev := d.lineDo p fun d =>
  let band := loadBand (d.get (pgLCAL p) LCAL.STAT_LOADBAND) power
  let d := (d.put (pgLDSYS p) LDSYS.POWER_P power).put (pgLCAL p) LCAL.STAT_LOADBAND band
  let off (b : Nat) : Bool := decide (b + 2 ≤ band) || decide (band + 2 ≤ b)
  let c := d.conv.get p
  let far := (allKeys.any fun k => (c.slice k).role != 4 && off (c.slice k).band) || (List.range 64).any fun i => off (c.sub i).band
  if far then (d.lcalStale p).lcalTrigger p 2 true (some 1) else d

/-- The age limit in minutes, 0 acting as 1 (R124). -/
def Dev.lcalAge (d : Dev) (p : Port) : Nat := clampN 1 60 (d.get (pgLCAL p) LCAL.CTL_AGE)

/-- The last completed pass older than AGE minutes is the AGE trigger (R109). -/
def lcalAgeDo (p : Port) (d : Dev) : Dev := d.lineDo p fun d =>
  d.when (decide (d.lcalAge p * 60000 < d.get (pgLCAL p) LCAL.AGE_MS)) (·.lcalTrigger p 4 false (some 3))

/-- A write of LCAL_CTL: its fields, and the HOST trigger with START, whatever AUTO is (R109, R115, R124). -/
def lcalCtlWrite (p : Port) (w : Word) (d : Dev) : Dev := d.hostLine p fun d =>
  let d := d.putWs (pgLCAL p)
    [LCAL.CTL_AUTO, LCAL.CTL_HOLD, LCAL.CTL_GATE, LCAL.CTL_DT, LCAL.CTL_AGE, LCAL.CTL_TRIG_EN] w
  d.when (bitOf w.toNat 1) (·.lcalRequest p 5 false)

/-- A supply dip longer than 2 µs: the measurement in progress is discarded and taken again, which is no retry, so that nothing
that has been measured is lost; trims are stale, and the DIP trigger follows (R109, R111, R115). -/
def Dev.lcalDip (d : Dev) (p : Port) : Dev := (d.lcalStale p).lcalTrigger p 3 true (some 2)

/-! ### Rounds and passes -/

/-- The state code of the pass, in both registers (R124). -/
def Dev.lcalState (d : Dev) (p : Port) (st : Nat) : Dev :=
  (d.put (pgLCAL p) LCAL.STAT_STATE st).put (pgLCAL p) LCAL.STATUS_STATE st

/-- The spares of a lane that the pass has still to take, a round that gave them no outcome having been given up (R115): they
calibrate themselves without any swap (R104). -/
def ConvState.pickSelf (c : ConvState) (lane : Nat) : List Nat :=
  c.todo.filter fun k => k / 256 == lane && (c.slice k).role == 1

/-- The targets a lane takes next and the spares to stand in: slices still to do, in rising number, at most one per free spare, and,
when the header is shorter than a turn of the interleave (one subcarrier), only eligible positions (R104, R107). (DEDUCED: log 52) -/
def ConvState.pick (c : ConvState) (lane : Nat) (limited : Bool) (elig : List Nat) : List Nat × List Nat :=
  let spares := (laneKeys lane).filter fun k => (c.slice k).role == 1 && !(c.pickSelf lane).contains k
  let cand := c.todo.filter fun k =>
    k / 256 == lane && (c.slice k).role == 0 && (!limited || elig.contains (c.slice k).pos)
  (cand.take spares.length, spares)

/-- A spare flips into its target's position and the target goes offline (R104, R105). -/
def ConvState.flipOut (c : ConvState) (t s : Nat) : ConvState :=
  let pos := (c.slice t).pos
  (c.setSlice s fun x => { x with role := 2, pos := pos, target := t % 256 }).setSlice t fun x =>
    { x with role := 3, pos := 255, retries := 0 }

/-- A target flips back into the position its stand-in holds (R104). -/
def ConvState.flipBack (c : ConvState) (s : Nat) : ConvState :=
  let x := c.slice s
  let t := sliceKey (s / 256) x.target
  (c.setSlice t fun y => { y with role := 0, pos := x.pos }).setSlice s fun y =>
    { y with role := 1, pos := 255, target := 255 }

/-- The stand-ins of a port whose target is offline. -/
def ConvState.standins (c : ConvState) : List Nat := allKeys.filter fun k => (c.slice k).role == 2

/-- A swap of slices while a capture fills: the slices that served until now are kept (R115). (DEDUCED: log 274) -/
def Dev.capSwap (d : Dev) (p : Port) : Dev :=
  d.when (d.get (pgADC p) ADC.CAP_STAT_STATE == 2) (·.convUpd p fun c => { c with capOld := c.capOld ++ [c.slices] })

/-- Every flip of the opening of a round: the next targets of the four lanes. -/
def Dev.roundOpen (d : Dev) (p : Port) (elig : List Nat) : Dev :=
  let limited := d.rxK p == 1
  let c0 := d.conv.get p
  let r := (List.range 4).foldl (fun (a : ConvState × List Nat) lane =>
    let q := a.1.pick lane limited elig
    ((q.1.zip q.2).foldl (fun c ts => c.flipOut ts.1 ts.2) a.1, a.2 ++ q.1)) (c0, [])
  let own := (List.range 4).flatMap c0.pickSelf
  let c := own.foldl (fun c k => c.setSlice k fun s => { s with retries := 0 }) r.1
  let targets := r.2 ++ own
  let c := { c with targets := targets, todo := c.todo.filter (fun k => !targets.contains k), meas := [], news := [] }
  ((d.capSwap p).convUpd p fun x => { c with capOld := x.capOld }).bump (pgLCAL p) LCAL.FLIPS r.2.length

/-- A pass starts: PASS or PRIORITY from round 0, in which the spares calibrate themselves (R104, R109).  The trace of
its references is kept (R482). (DEDUCED: log 51) -/
def Dev.passBegin (d : Dev) (p : Port) (cause : Nat) (prio : Bool) : Dev :=
  let pg := pgLCAL p
  let d := ((d.lcalState p (if prio then 2 else 1)).put pg LCAL.STAT_ROUND 0).put pg LCAL.STAT_CAUSE cause
  let d := d.convUpd p fun c =>
    let live := allKeys.filter fun k => (c.slice k).role != 4
    let own := live.filter fun k => (c.slice k).role == 1
    { (own.foldl (fun c k => c.setSlice k fun s => { s with retries := 0 }) c) with
      todo := live.filter (fun k => !own.contains k), targets := own, meas := [], news := [], dacNext := [0, 0, 0, 0],
      subs := c.subs.map fun e => (e.1, { e.2 with retries := 0 }), dacMeas := [], prio := 0 }
  let tr (d : Dev) (f0 f1 : Fld) (v : Nat) : Dev := d.put pgCAL (if p = 0 then f0 else f1) v
  let d := tr d CAL.TRACE_DPLL0 CAL.TRACE_DPLL1 (d.get pgCLK CLK.STATUS_STATE)
  let d := tr d CAL.TRACE_REF0 CAL.TRACE_REF1 (d.get pgCLK CLK.STATUS_SEL)
  let d := tr d CAL.TRACE_VREF0 CAL.TRACE_VREF1 (d.get pgCAL CAL.STATUS_VREF_OK)
  d.ev pg 0

/-- A priority trigger has cut the pass short: PASS_ABANDON, and a priority pass from round 0 (R115). -/
def Dev.passCut (d : Dev) (p : Port) : Dev :=
  ((d.ev (pgLCAL p) 5).putb (pgLCAL p) LCAL.PRIO true).passBegin p (d.conv.get p).prio true

/-- A normal pass may start here: at a receive span boundary while the receive counter is valid, and inside a granted window when
GATE is set (R112). -/
def Dev.passGate (d : Dev) (p : Port) : Bool :=
  (!d.rxValid p || d.get (pgLFR p) LFR.SPAN_RXPOS_FRAME == 0) &&
    (!d.flag (pgLCAL p) LCAL.CTL_GATE || bitOf (d.get pgCAL CAL.STATUS_WIN_OPEN) p.val)

/-- PASS_START, at a frame boundary: once HOLD has cleared a held pass goes on, or gives way to a priority pass; with none under
way a requested pass starts, a priority one at once (R112, R115). -/
def passStartDo (p : Port) (elig : List Nat) (d : Dev) : Dev := d.lineDo p fun d =>
  let pg := pgLCAL p
  let st := d.get pg LCAL.STAT_STATE
  if d.flag pg LCAL.CTL_HOLD then d
  else if st = 3 then
    if (d.conv.get p).prio ≠ 0 then d.passCut p
    else ((d.lcalState p (if d.flag pg LCAL.PRIO then 2 else 1)).bumpSat pg LCAL.STAT_ROUND 1).roundOpen p elig
  else if st = 0 then
    match (d.conv.get p).wait with
    | none => d
    | some (cause, prio) =>
      if !prio && !d.passGate p then d
      else ((d.convUpd p fun c => { c with wait := none }).putb pg LCAL.PRIO prio).passBegin p cause prio
  else d

/-- Two measurements agree within 0.2 % in gain, 0.5 LSB in offset and 8 fs in skew (R102). -/
def measAgrees (a b : Meas) : Bool :=
  decide ((a.gain - b.gain).natAbs ≤ 2000) && decide ((a.offset - b.offset).natAbs ≤ 8) &&
    decide ((a.skew - b.skew).natAbs ≤ 16)

/-- Residuals inside the digital correction range: ±2.0 % in 1/4,096, ±6 LSB, ±300 fs (R90). -/
def measInRange (m : Meas) : Bool :=
  decide (m.gain.natAbs ≤ 81) && decide (m.offset.natAbs ≤ 96) && decide (m.skew.natAbs ≤ 600)

/-- Residuals clamped to the nearest in-range setting (R116). -/
def measClamped (m : Meas) : Meas := ⟨clampI (-81) 81 m.gain, clampI (-96) 96 m.offset, clampI (-600) 600 m.skew⟩

/-- The outcome of an agreeing or disagreeing attempt on an ADC slice (R103).  A spare is free for a retirement when
the lane has one besides the slice standing in.  New trims wait for the round's closing boundary.  While VREF_OK is 0 the gain
stays (R483). (DEDUCED: log 56) -/
def Dev.sliceOutcome (d : Dev) (p : Port) (k : Nat) (agree : Bool) (res : Meas) (sel : Sel) : Dev :=
  let lane := k / 256
  let c := d.conv.get p
  let band := d.get (pgLCAL p) LCAL.STAT_LOADBAND
  let temp := sOf 16 (d.get (pgLCAL p) (LCAL.TEMP_NOW.at lane))
  let done (d : Dev) : Dev := d.convUpd p fun c => { c with targets := c.targets.erase k }
  let res := if d.flag pgCAL CAL.STATUS_VREF_OK then res else { res with gain := (c.slice k).trim.gain }
  if agree then
    if measInRange res then
      done (d.convUpd p fun c => { c with news := AMap.insert c.news k ⟨res, sel, band, temp, false⟩ })
    else if 2 ≤ c.freeSpares lane then
      let d := d.convUpd p fun c =>
        let keep := match c.standins.find? (fun s => s / 256 == lane && (c.slice s).target == k % 256) with
          | some s => c.setSlice s fun x => { x with role := 0, target := 255 }
          | none => c
        keep.setSlice k fun s => { s with role := 4, pos := 255, target := 255, suspect := false }
      let d := done (d.ev (pgADC p) (8 + lane))
      d.when (decide ((d.conv.get p).freeSpares lane < 4 ∧ 4 ≤ c.freeSpares lane)) (·.ev (pgADC p) (12 + lane))
    else
      done (((d.convUpd p fun c => c.setSlice k fun s => { s with suspect := true }).ev (pgADC p) (16 + lane)).when
        (!(c.slice k).suspect) (·.ev (pgADC p) (4 + lane)))
  else
    let d := (d.bump (pgLCAL p) LCAL.DISAGREE 1).ev (pgLCAL p) 4
    if (c.slice k).retries < 3 then
      d.convUpd p fun c => c.setSlice k fun s => { s with retries := s.retries + 1 }
    else done ((d.convUpd p fun c => c.setSlice k fun s => { s with suspect := true }).ev (pgADC p) (4 + lane))

/-- A sub-DAC of the lane is under measurement: during a pass, while the lane transmits the headers it is measured on, and not under
TXS_TEST.PAT 2 (R116, R122, R213). (DEDUCED: log 273) -/
def Dev.dacUnder (d : Dev) (p : Port) (lane : Fin 4) : Bool :=
  d.get (pgLCAL p) LCAL.STAT_STATE != 0 && d.dacDrives p lane && d.get (pgTXS p) TXS.PAT_LIVE != 2 &&
    decide ((d.conv.get p).dacNext.getD lane 16 < 16)

/-- The outcome of an attempt on a sub-DAC: its trims wait for a transmit frame boundary (R116, R117); while VREF_OK is 0 the
gain stays (R483). (DEDUCED: log 262) -/
def Dev.subOutcome (d : Dev) (p : Port) (lane u : Nat) (agree : Bool) (res : Meas) (sel : Sel) : Dev :=
  let k := lane * 16 + u
  let old := (d.conv.get p).sub k
  let band := d.get (pgLCAL p) LCAL.STAT_LOADBAND
  let temp := sOf 16 (d.get (pgLCAL p) (LCAL.TEMP_NOW.at lane))
  let res := if d.flag pgCAL CAL.STATUS_VREF_OK then res else { res with gain := old.trim.gain }
  let fin (d : Dev) (x : SubDac) : Dev :=
    let d := d.convUpd p fun c =>
      { c with dacPend := AMap.insert c.dacPend k x, dacNext := c.dacNext.set lane (u + 1) }
    d
  if agree then
    if measInRange res then fin d ⟨res, sel, false, false, false, 0, band, temp⟩
    else fin (d.ev (pgDAC p) (4 + lane)) ⟨measClamped res, sel, false, true, false, 0, band, temp⟩
  else
    let d := (d.bump (pgLCAL p) LCAL.DISAGREE 1).ev (pgLCAL p) 4
    if old.retries < 3 then
      d.convUpd p fun c => { c with subs := AMap.insert c.subs k { old with retries := old.retries + 1 } }
    else fin (d.ev (pgDAC p) lane) { old with suspect := true, retries := 0 }

/-- LCAL_MEASUREMENT_END: the first measurement of an attempt is kept, the second gives its outcome (R102, R103, R116). -/
def measEnd (p : Port) (dac : Bool) (lane : Fin 4) (u : Nat) (m res : Meas) (sel : Sel) (d : Dev) : Dev := d.lineDo p fun d =>
  let c := d.conv.get p
  if dac then
    if !d.dacUnder p lane then d
    else if c.dacNext.getD lane 16 = u then
      match AMap.find? c.dacMeas lane with
      | none => d.convUpd p fun c => { c with dacMeas := AMap.insert c.dacMeas lane m }
      | some m1 =>
        ((d.convUpd p fun c => { c with dacMeas := AMap.erase c.dacMeas lane }).bump (pgLCAL p) LCAL.ATTEMPTS 1).subOutcome
          p lane u (measAgrees m1 m) res sel
    else d
  else
    let k := sliceKey lane u
    if c.targets.contains k then
      match AMap.find? c.meas k with
      | none => d.convUpd p fun c => { c with meas := AMap.insert c.meas k m }
      | some m1 =>
        ((d.convUpd p fun c => { c with meas := AMap.erase c.meas k }).bump (pgLCAL p) LCAL.ATTEMPTS 1).sliceOutcome
          p k (measAgrees m1 m) res sel
    else d

/-- The trim sets that a round has found are applied: they clear SUSPECT, and are stale only where a trigger marked them since (R103, R111). -/
def ConvState.applyNews (c : ConvState) : ConvState :=
  { (c.news.foldl (fun c e => c.setSlice e.1 fun s =>
      { s with trim := e.2.res, sel := e.2.sel, suspect := false, stale := e.2.stale, band := e.2.band, temp := e.2.temp }) c) with news := [] }

/-- Every offline target flips back, whether it has an outcome or not. -/
def ConvState.flipsBack (c : ConvState) : ConvState :=
  c.standins.foldl (fun c s => c.flipBack s) { c with targets := [], meas := [] }

/-- Every target flips back at the closing boundary with its new trims; the offline slice of a stand-in returns (R103, R104). -/
def Dev.roundClose (d : Dev) (p : Port) : Dev :=
  ((d.capSwap p).convUpd p fun c => c.flipsBack.applyNews).bump (pgLCAL p) LCAL.FLIPS (d.conv.get p).standins.length

/-- A round given up: every offline target flips back with its previous trims, and attempts in progress are discarded without
counting; the spares keep what they have found, and the other slices of the round are still to do (R115). -/
def ConvState.abort (c : ConvState) : ConvState :=
  let out (k : Nat) : Bool := (c.slice k).role == 3
  let again := allKeys.filter fun k => out k || (c.targets.contains k && !c.todo.contains k)
  { { c with news := c.news.filter fun e => !out e.1 }.flipsBack.applyNews with todo := again ++ c.todo.filter fun k => !again.contains k }

/-- The round in progress is given up. -/
def Dev.roundAbort (d : Dev) (p : Port) : Dev :=
  ((d.capSwap p).convUpd p (·.abort)).bump (pgLCAL p) LCAL.FLIPS (d.conv.get p).standins.length

/-- No sub-DAC is under measurement: attempts run only during a pass (R116). -/
def Dev.dacIdle (d : Dev) (p : Port) : Dev :=
  d.convUpd p fun c => { c with dacNext := [16, 16, 16, 16], dacMeas := [] }

/-- The pass completes: its counters, its age, its temperatures (R124, R125). -/
def Dev.passEnd (d : Dev) (p : Port) : Dev :=
  let pg := pgLCAL p
  let d := (((d.dacIdle p).lcalState p 0).bump pg LCAL.PASSES 1).put pg LCAL.AGE_MS 0
  let d := (List.range 4).foldl (fun d l => d.put pg (LCAL.TEMP_LAST.at l) (d.get pg (LCAL.TEMP_NOW.at l))) d
  d.ev pg 1

/-- A priority trigger that came in the last round of a pass: the pass completes, and a priority pass follows (R115). (DEDUCED: log 211) (DEDUCED: log 263) -/
def Dev.passNext (d : Dev) (p : Port) : Dev :=
  let c := d.conv.get p
  if c.prio = 0 then d
  else if d.flag (pgLCAL p) LCAL.CTL_HOLD then d.convUpd p fun c => { c with wait := some (c.prio, true), prio := 0 }
  else (d.putb (pgLCAL p) LCAL.PRIO true).passBegin p c.prio true

/-- ROUND_END: acts once every target of the round has an outcome.  With nothing left the pass completes; HOLD keeps the next
round and any other pass from starting; a waiting priority trigger cuts the pass short and starts again from round 0 (R104,
R115). -/
def roundEndDo (p : Port) (elig : List Nat) (d : Dev) : Dev := d.lineDo p fun d =>
  let pg := pgLCAL p
  let st := d.get pg LCAL.STAT_STATE
  if (st ≠ 1 ∧ st ≠ 2) ∨ (d.conv.get p).targets ≠ [] then d
  else
    let d := d.roundClose p
    let c := d.conv.get p
    if c.todo.isEmpty then (d.passEnd p).passNext p
    else if d.flag pg LCAL.CTL_HOLD then d.lcalState p 3
    else if c.prio ≠ 0 then d.passCut p
    else (d.bumpSat pg LCAL.STAT_ROUND 1).roundOpen p elig

/-- PRIO_LATE: a priority pass still asked for, running or held 50 ms after its trigger (R113). -/
def prioLateDo (p : Port) (d : Dev) : Dev := d.lineDo p fun d =>
  let c := d.conv.get p
  let st := d.get (pgLCAL p) LCAL.STAT_STATE
  let asked := match c.wait with | some (_, b) => b | none => false
  d.when (st == 2 || st == 3 && d.flag (pgLCAL p) LCAL.PRIO || c.prio != 0 || asked) (·.ev (pgLCAL p) 3)

/-- New sub-DAC trims apply at a transmit carrier frame boundary (R117). -/
def Dev.dacTrimApply (d : Dev) (p : Port) : Dev :=
  d.convUpd p fun c => { c with subs := c.dacPend.foldl (fun m e => AMap.insert m e.1 e.2) c.subs, dacPend := [] }

/-- The next span brings a receive symbol rate or subcarrier count other than the live one (R115). -/
def Dev.rateNext (d : Dev) (p : Port) : Bool :=
  let due (pg : Nat) : Bool := match AMap.find? d.commits pg with
    | some c => !c.rx && c.target == (d.rxSpan p + 1) % m48
    | none => false
  due (pgADC p) && clampN 60000 300000 (d.pget (pgADC p) ADC.BAUD) != d.rxBaud p ||
    due (pgCDC p) && kOf (d.pget (pgCDC p) CDC.SC_CTL_NSC) != d.rxK p

/-- The last frame boundary before a rate or subcarrier change: the round in progress is given up (R115). -/
def Dev.lcalLast (d : Dev) (p : Port) : Dev := d.when (d.rateNext p) (·.roundAbort p)

/-- The take of a rate or subcarrier change: a round that no boundary before it has ended is given up, and the RATE trigger
follows (R109, R115). -/
def Dev.lcalRate (d : Dev) (p : Port) : Dev :=
  let c := d.conv.get p
  let d := d.when (!c.standins.isEmpty || !c.targets.isEmpty) (·.roundAbort p)
  (d.lcalStale p).lcalTrigger p 7 true none

/-- The pass is abandoned at entry to Bascule (R115, R583). -/
def Dev.lcalAbandon (d : Dev) (p : Port) : Dev :=
  let st := d.get (pgLCAL p) LCAL.STAT_STATE
  if st = 0 then d.convUpd p fun c => { c with wait := none, prio := 0 }
  else
    let d := (d.roundAbort p).dacIdle p
    ((d.convUpd p fun c => { c with todo := [], wait := none, prio := 0 }).lcalState p 0).ev (pgLCAL p) 5

/-! ### The commands -/

def execAdcOverrange (p : Port) (lane : Fin 4) (pos : Fin 160) (s : State) : Host.Outcome State Fault Refusal :=
  s.run (adcOverrangeDo p lane.val pos.val)

def execDacLaneCtlWrite (p : Port) (w : Word) (nearTx nearRx : Bool) (s : State) : Host.Outcome State Fault Refusal :=
  s.run (dacLaneCtl p (nearTx, nearRx) w)

def execLcalTempTrigger (p : Port) (lane : Fin 4) (temp : BitVec 16) (s : State) : Host.Outcome State Fault Refusal :=
  s.run (lcalTempDo p lane.val temp.toNat)

def execLcalLoadTrigger (p : Port) (power : BitVec 12) (s : State) : Host.Outcome State Fault Refusal :=
  s.run (lcalLoadDo p power.toNat)

def execLcalAgeTrigger (p : Port) (s : State) : Host.Outcome State Fault Refusal := s.run (lcalAgeDo p)

/-- LCAL_START: a write of LCAL_CTL whose START bit is 1. -/
def execLcalStart (p : Port) (w : Word) (s : State) : Host.Outcome State Fault Refusal :=
  s.run (lcalCtlWrite p (w ||| 2#32))

/-- LCAL_HOLD: a write of LCAL_CTL whose HOLD bit is 1. -/
def execLcalHold (p : Port) (w : Word) (s : State) : Host.Outcome State Fault Refusal :=
  s.run (lcalCtlWrite p (w ||| 4#32))

def execPassStart (p : Port) (elig : List (Fin 160)) (s : State) : Host.Outcome State Fault Refusal :=
  s.run (passStartDo p (elig.map (·.val)))

def execLcalMeasurementEnd (p : Port) (dac : Bool) (lane : Fin 4) (unit : BitVec 8) (m res : Meas) (sel : Sel) (s : State) :
    Host.Outcome State Fault Refusal :=
  s.run (measEnd p dac lane unit.toNat m res sel)

def execRoundEnd (p : Port) (elig : List (Fin 160)) (s : State) : Host.Outcome State Fault Refusal :=
  s.run (roundEndDo p (elig.map (·.val)))

def execPrioLate (p : Port) (s : State) : Host.Outcome State Fault Refusal := s.run (prioLateDo p)

/-- ADC_CAP_ARM: a write of ADC_CAP_CTL whose ARM bit is 1. -/
def execAdcCapArm (p : Port) (w : Word) (x : Capture) (s : State) : Host.Outcome State Fault Refusal :=
  s.run (adcCapWrite p (w ||| 1#32) x)

/-- ADC_CAP_ABORT: a write of ADC_CAP_CTL whose ABORT bit is 1. -/
def execAdcCapAbort (p : Port) (w : Word) (x : Capture) (s : State) : Host.Outcome State Fault Refusal :=
  s.run (adcCapWrite p (w ||| 2#32) x)

def execCapDone (p : Port) (x : Capture) (s : State) : Host.Outcome State Fault Refusal := s.run (capDoneDo p x)

end Sys2Proof.Machine
end

