-- ==== Sys2Proof/Machine/Eq.lean ====
section
/-! DEFINITION.  Receive equalisation: dispersion compensation (R126–R136), the polarisation equaliser (R137–R140) and
the nonlinearity compensator with its triplet table (R142–R151). -/

namespace Sys2Proof.Machine

/-! ### Model fields -/

/-- The search that runs: 0 first, 1 the repeat of R134. -/
def CDC.RUN_NO : Fld := hid 0 1 0
/-- A coefficient set is being computed, and one is complete and waits for a block (R127). -/
def CDC.COEF_BUSY : Fld := hid 4 1 0
def CDC.COEF_READY : Fld := hid 8 1 0
/-- The dispersion of the coefficient set in the filter, 1/16 ps/nm (R127, R133). -/
def CDC.FILTER_D : Fld := hid 12 24 0
/-- The wavelength of the set being computed, and of the one in the filter, 0.1 nm (R127). -/
def CDC.SET_LAMBDA : Fld := hid 24 16 15501
def CDC.FILTER_LAMBDA : Fld := hid 28 16 15501
/-- Tracking change used in the current carrier frame, 0.25 ps/nm (R135). -/
def CDC.TRACK_USED : Fld := hid 16 16 0
/-- A search waits for the ADC lanes to run (R136). -/
def CDC.WANTED : Fld := hid 20 1 0
/-- Consecutive windows with the CMA error variance below 0.25 (R139). -/
def SUBC.WIN_RUN : Fld := hid 0 3 0
/-- The equaliser has converged in BLIND and holds its taps until the subcarrier aligns (R139). -/
def SUBC.CONVERGED : Fld := hid 4 1 0
/-- Carrier frames in TRACK, for the step schedule of R139. -/
def SUBC.TRACK_FRAMES : Fld := hid 8 16 0
/-- Tap updates in a row with the centroid beyond ±1 T/2 (R163). -/
def SUBC.CENTROID_RUN : Fld := hid 12 5 0
/-- The triplet table was written during a CRC computation (R150). -/
def NLC.SUM_DIRTY : Fld := hid 0 1 0

/-! ### Live receive configuration -/

/-- The FFT points, the samples discarded, the valid samples of a block and the dispersion budget of a profile (R126). -/
def fftPlan (trestle : Bool) : Nat × Nat × Nat × Nat :=
  if trestle then (2048, 1024, 1024, 768) else (16384, 6144, 10240, 5376)

/-- The FFT size of a profile (R126). -/
def fftSize (trestle : Bool) : Nat := (fftPlan trestle).1

/-- D_max in ps/nm: the budget over 1.2 × 8.2218e-6 × Rs², rounded down to the profile's grain, at most 50,000 (R130). -/
def dMax (trestle : Bool) (mbd : Nat) : Nat :=
  let m := (fftPlan trestle).2.2.2
  let g := if trestle then 100 else 1000
  min 50000 (g * (m * 10 ^ 17 / (986616 * mbd ^ 2 * g)))

/-- CDC_LIMIT.DMAX (R130, R153). -/
def Dev.cdcDmax (d : Dev) (p : Port) : Nat := dMax (d.rxTrestle p) (d.rxBaud p)

/-- The coarse step in ps/nm as it acts (R153). -/
def Dev.srchStep (d : Dev) (p : Port) : Nat := clampN 50 4000 (d.get (pgCDC p) CDC.SRCH_STEP_STEP)

/-- The half-window in ps/nm as it acts (R153). -/
def Dev.srchWin (d : Dev) (p : Port) : Nat := clampN 100 50000 (d.get (pgCDC p) CDC.SRCH_WIN_WIN)

/-! ### Dispersion -/

/-- The ADC lanes of the port run. -/
def Dev.adcRuns (d : Dev) (p : Port) : Bool := d.flag (pgADC p) ADC.STATUS_RUN

/-- A dispersion applied, held to ±D_max with CLAMP and LIMIT; its coefficient set is computed anew (R127, R131). -/
def Dev.cdcApply (d : Dev) (p : Port) (v : Int) : Dev :=
  let pg := pgCDC p
  let lim : Int := 4 * (d.cdcDmax p : Int)
  let ovr := decide (lim < v) || decide (v < -lim)
  let d := (d.put pg CDC.APPLIED_D (sTo 24 (clampI (-lim) lim v))).putb pg CDC.STATUS_CLAMP ovr
  let d := d.when ovr (·.ev pg 2)
  ((d.putb pg CDC.COEF_BUSY true).putb pg CDC.COEF_READY false).put pg CDC.SET_LAMBDA (d.get pg CDC.LAMBDA)

/-- The coarse candidates from CTR − WIN to CTR + WIN in steps of STEP, WIN rounded down to a multiple of STEP, without
those beyond ±D_max, in 1/16 ps/nm (R133). -/
def coarseCands (ctr : Int) (win step dmax : Nat) : List Int :=
  let w := win / step * step
  (((List.range (2 * w / step + 1)).map fun (i : Nat) => ctr - (w : Int) + (i * step : Nat)).filter fun c =>
    decide (c.natAbs ≤ dmax)).map (16 * ·)

/-- The 33 fine candidates about the coarse best, in 1/16 ps/nm (R133). -/
def fineCands (best : Int) (step : Nat) : List Int := (List.range 33).map fun (j : Nat) => best + ((j : Int) - 16) * (step : Int)

/-- The candidate with the largest metric; of equals the first evaluated (R133). (DEDUCED: log 213) -/
def bestCand : List (Int × Nat) → Option (Int × Nat)
  | [] => none
  | x :: t => some (t.foldl (fun b y => if b.2 < y.2 then y else b) x)

/-- A number put into a rising list. -/
def insertNat (x : Nat) : List Nat → List Nat
  | [] => [x]
  | y :: t => if x ≤ y then x :: y :: t else y :: insertNat x t

/-- Twice the median of the metrics, that of an even number the mean of the two in the middle (R133). -/
def median2 (l : List Nat) : Nat :=
  let s := l.foldr insertNat []
  s.getD ((s.length - 1) / 2) 0 + s.getD (s.length / 2) 0

/-- The search of a port changed. -/
def Dev.srchUpd (d : Dev) (p : Port) (r : Option Search) : Dev := { d with eq := d.eq.upd p fun e => { e with srch := r } }

/-- The coefficients of a candidate go into the filter (R133). (DEDUCED: log 264) -/
def Dev.srchLoad (d : Dev) (p : Port) (c : Int) : Dev :=
  let pg := pgCDC p
  let d := (d.put pg CDC.FILTER_D (sTo 24 c)).put pg CDC.FILTER_LAMBDA (d.get pg CDC.LAMBDA)
  (d.putb pg CDC.COEF_BUSY false).putb pg CDC.COEF_READY false

/-- A search starts, when the ADC lanes run, over the window of the registers, or with `no` = 1 over CTR = 0 and
WIN = D_max; otherwise it waits for the lanes (R133, R134, R136).  Its parameters are those of its start. (DEDUCED: log 214) (DEDUCED: log 265) -/
def Dev.srchStart (d : Dev) (p : Port) (no : Nat) : Dev :=
  let pg := pgCDC p
  if d.adcRuns p then
    let d := ((d.putb pg CDC.STATUS_SEARCH true).putb pg CDC.STATUS_LOCK false).put pg CDC.SRCH_STAT_STATE 1
    let d := (((d.put pg CDC.SRCH_STAT_CAND 0).put pg CDC.RUN_NO no).bump pg CDC.SEARCHES 1).putb pg CDC.WANTED false
    let dm := d.cdcDmax p
    let l := if no = 1 then coarseCands 0 dm (d.srchStep p) dm
      else coarseCands (sOf 24 (d.get pg CDC.SRCH_CTR_CTR)) (d.srchWin p) (d.srchStep p) dm
    let d := d.srchUpd p (some ⟨l, d.srchStep p, max 1 (d.get pg CDC.SRCH_STEP_NBLK), 0, 0, [], []⟩)
    match l with
    | [] => d
    | c :: _ => d.srchLoad p c
  else d.putb pg CDC.WANTED true

/-- A search given up, with no failure and no event (R152). -/
def Dev.srchDrop (d : Dev) (p : Port) : Dev :=
  ((d.putb (pgCDC p) CDC.STATUS_SEARCH false).put (pgCDC p) CDC.SRCH_STAT_STATE 0).srchUpd p none

/-- The clock-tone magnitude of a block: the parts of the subcarriers, those of samples flagged by a converter flip left
out (R133, R136). -/
def toneSum (tones : List (Bool × Nat)) : Nat := (tones.map fun x => if x.1 then 0 else x.2).foldl (· + ·) 0

/-- An FFT block passes a search: the first block of a candidate is discarded, the next NBLK add to its metric, then the
next candidate is loaded; after the last coarse candidate come the fine ones (R133). -/
def Dev.srchBlock (d : Dev) (p : Port) (tones : List (Bool × Nat)) : Dev :=
  let pg := pgCDC p
  match (d.eq.get p).srch with
  | none => d
  | some r =>
    match r.ahead with
    | [] => d
    | c :: rest =>
      if !d.adcRuns p then d
      else
        let sum := if r.blocks = 0 then 0 else r.sum + toneSum tones
        if r.blocks < r.nblk then d.srchUpd p (some { r with blocks := r.blocks + 1, sum := sum })
        else
          let d := d.bumpSat pg CDC.SRCH_STAT_CAND 1
          let fine := decide (d.get pg CDC.SRCH_STAT_STATE = 2)
          let r := { r with ahead := rest, blocks := 0, sum := 0,
                            coarse := if fine then r.coarse else r.coarse ++ [(c, sum)],
                            fine := if fine then r.fine ++ [(c, sum)] else r.fine }
          if rest.isEmpty && !fine then
            let l := fineCands ((bestCand r.coarse).getD (c, 0)).1 r.step
            ((d.put pg CDC.SRCH_STAT_STATE 2).srchUpd p (some { r with ahead := l })).srchLoad p (l.headD 0)
          else
            let d := d.srchUpd p (some r)
            match rest with
            | [] => d
            | n :: _ => d.srchLoad p n

/-- START: ignored during a search (R133, R152). -/
def srchStartWrite (p : Port) (w : Word) (d : Dev) : Dev := d.hostLine p fun d =>
  let d := d.putWs (pgCDC p) [CDC.SRCH_STEP_STEP, CDC.SRCH_STEP_NBLK] w
  if d.flag (pgCDC p) CDC.STATUS_SEARCH || !bitOf w.toNat 31 then d else d.srchStart p 0

/-- The fine best in 1/4 ps/nm; where it lies between two quarters, one of them (R133, R153). (DESIGN CHOICE: log 215) -/
def quarterOf (d : Dev) (x : Int) : Int := x / 4 + (if x % 4 = 0 then 0 else ((d.free % 2 : Nat) : Int))

/-- Whether the best of a search is an interior fine candidate whose metric exceeds 4 times the coarse median
(R133 step 4). -/
def Search.good (r : Search) : Bool :=
  match bestCand r.fine with
  | none => false
  | some b =>
    some b.1 != r.fine.head?.map (·.1) && some b.1 != r.fine.getLast?.map (·.1) &&
      decide (2 * median2 (r.coarse.map (·.2)) < b.2)

/-- SRCH_METRIC.BEST: the best metric over the coarse median in 1/256, at most 65,535; over a median of 0 the spec states
no value (R153). -/
def Dev.srchRatio (d : Dev) (r : Search) : Nat :=
  let m := median2 (r.coarse.map (·.2))
  if m = 0 then d.free % 65536 else satN 16 (512 * ((bestCand r.fine).getD (0, 0)).2 / m)

/-- A search whose candidates are all evaluated ends (R133 step 4, R134): success writes the estimate and applies it; in
AUTO the first failure repeats with CTR 0 and WIN D_max, the second, or the first in another MODE, raises SRCH_FAIL and
keeps the best candidate applied. (DEDUCED: log 216) -/
def Dev.srchEnd (d : Dev) (p : Port) (r : Search) : Dev :=
  let pg := pgCDC p
  let best := (bestCand r.fine).map fun b => quarterOf d b.1
  let d := (d.put pg CDC.SRCH_METRIC_BEST (d.srchRatio r)).used
  let apply (d : Dev) : Dev := match best with | none => d | some v => (d.cdcApply p v).putb pg CDC.STATUS_LOCK true
  if r.good then
    ((apply (d.srchDrop p)).put pg CDC.EST (sTo 24 (best.getD 0))).ev pg 0
  else
    let d := d.bump pg CDC.SRCH_FAILS 1
    if d.get pg CDC.CTL_MODE = 0 ∧ d.get pg CDC.RUN_NO = 0 then d.srchStart p 1
    else ((apply (d.srchDrop p)).put pg CDC.SRCH_STAT_STATE 3).ev pg 1

/-- SRCH_RETRY: after a failed run in AUTO mode a new search starts (R134). -/
def srchRetryDo (p : Port) (d : Dev) : Dev := d.lineDo p fun d =>
  let pg := pgCDC p
  if d.get pg CDC.SRCH_STAT_STATE = 3 ∧ d.get pg CDC.CTL_MODE = 0 ∧ d.get pg CDC.STATUS_SEARCH = 0 then
    d.srchStart p 0
  else d

/-- CDC_COEF_READY: the set waits for the next FFT block (R127). -/
def coefReadyDo (p : Port) (d : Dev) : Dev := d.lineDo p fun d =>
  let pg := pgCDC p
  d.when (d.flag pg CDC.COEF_BUSY) fun d => (d.putb pg CDC.COEF_BUSY false).putb pg CDC.COEF_READY true

/-- At an FFT block boundary a complete coefficient set takes effect, unless a search has the filter (R127). -/
def Dev.coefBlock (d : Dev) (p : Port) : Dev :=
  let pg := pgCDC p
  d.when (d.flag pg CDC.COEF_READY && (d.eq.get p).srch.isNone) fun d =>
    ((d.putb pg CDC.COEF_READY false).put pg CDC.FILTER_D (4 * d.get pg CDC.APPLIED_D % 2 ^ 24)).put
      pg CDC.FILTER_LAMBDA (d.get pg CDC.SET_LAMBDA)

/-- Tracking at a block boundary: in MODE 0 or 2 with EN, outside a search, toward the estimate by at most MAXSTEP a
carrier frame; at ±D_max it stops (R131, R132, R135). -/
def Dev.cdcTrack (d : Dev) (p : Port) (est : Int) : Dev :=
  let pg := pgCDC p
  let mode := d.get pg CDC.CTL_MODE
  if (mode = 0 ∨ mode = 2) ∧ d.flag pg CDC.TRACK_EN = true ∧ d.flag pg CDC.STATUS_LOCK = true ∧ d.adcRuns p = true then
    let cur := sOf 24 (d.get pg CDC.APPLIED_D)
    let room := max 1 (d.get pg CDC.TRACK_MAXSTEP) - d.get pg CDC.TRACK_USED
    let step := clampI (-(room : Int)) room (est - cur)
    let d := d.put pg CDC.EST (sTo 24 est)
    let lim : Int := 4 * (d.cdcDmax p : Int)
    let goal := clampI (-lim) lim (cur + step)
    if step = 0 ∨ (goal = cur ∧ d.flag pg CDC.STATUS_CLAMP = true) then d
    else
      let d := d.when (goal != cur) fun d => (d.bump pg CDC.TRACK_USED (goal - cur).natAbs).bump pg CDC.TRACK_STEPS 1
      d.cdcApply p (cur + step)
  else d

/-- MODE applies, at a take of the CDC page or when the port starts: AUTO searches, FIXED and SET_TRACK apply CDC_CD_SET,
BYPASS has H(f) = 1, which is no dispersion (R132). (DEDUCED: log 58) -/
def Dev.cdcMode (d : Dev) (p : Port) : Dev :=
  let pg := pgCDC p
  let mode := d.get pg CDC.CTL_MODE
  if mode = 0 then d.srchStart p 0
  else
    let d := d.putb pg CDC.WANTED false
    if mode = 3 then (d.cdcApply p 0).putb pg CDC.STATUS_LOCK false
    else (d.cdcApply p (sOf 24 (d.get pg CDC.CD_SET_D))).putb pg CDC.STATUS_LOCK true

/-- The take of a commit of the CDC page: a search that runs is abandoned, and the new MODE applies; in another MODE than
AUTO the search step of acquisition has nothing to wait for (R132, R152, R165). (DEDUCED: log 46) -/
def Dev.cdcTake (d : Dev) (p : Port) : Dev :=
  let d := (d.srchDrop p).cdcMode p
  d.when (d.get (pgCDC p) CDC.CTL_MODE != 0 && d.flag (pgCRV p) CRV.STATUS_ACQ && d.get (pgCRV p) CRV.STATUS_ACQ_STEP == 2)
    (·.put (pgCRV p) CRV.STATUS_ACQ_STEP 3)

/-! ### Polarisation equaliser -/

/-- The subcarrier is in frame alignment (LOCK, R248, R249). -/
def Dev.aligned (d : Dev) (p : Port) (s : Nat) : Bool := d.get (pgLFR p) (LFR.ALIGN_STATE.at s) == 5

/-- The equaliser state of a subcarrier (R159). -/
def Dev.eqState (d : Dev) (p : Port) (s : Fin 8) : Nat := d.get (pgSUBC p s) SUBC.STATUS_EQ_STATE

/-- The port's equaliser state changed. -/
def Dev.eqUpd (d : Dev) (p : Port) (f : EqState → EqState) : Dev := { d with eq := d.eq.upd p f }

/-- An equaliser state entered, with the copies in MIMO STATUS and the counts and events of R155, R156, R159 and R160. -/
def Dev.eqEnter (d : Dev) (p : Port) (s : Fin 8) (st : Nat) : Dev :=
  let pg := pgSUBC p s
  let d := (((d.put pg SUBC.STATUS_EQ_STATE st).put pg SUBC.WIN_RUN 0).putb pg SUBC.CONVERGED false).put pg SUBC.TRACK_FRAMES 0
  let d := (d.putBit (pgMIMO p) MIMO.STATUS_CONV s.val (st == 2 || st == 3)).putBit (pgMIMO p) MIMO.STATUS_FROZEN s.val (st == 4)
  if st = 5 then ((d.bump pg SUBC.EQ_FALLBACKS 1).ev pg 1).ev (pgMIMO p) 3
  else if st = 3 then
    let d := d.ev pg 0
    d.when ((List.finRange 8).all fun t => decide (d.rxK p ≤ t.val) || d.eqState p t == 3) (·.ev (pgMIMO p) 0)
  else d

/-- The taps of a subcarrier replaced: all zero but those given. -/
def Dev.tapsSet (d : Dev) (p : Port) (s : Fin 8) (l : List (Nat × Nat × Nat)) : Dev :=
  d.eqUpd p fun e =>
    let base := e.taps.filter (fun x => x.1 / 128 != s.val)
    { e with taps := l.foldl (fun m x => FMap.set m (s.val * 128 + x.1) (x.2.1 + 65536 * x.2.2)) base }

/-- The centre taps of a seed: the identity (256) for seed 0, a linear rotation by 45° (256 cos 45° = 181) for seed 1 and
by 90° for seed 2, whose sense the spec leaves open, and free values for the conversion of seed 3, to which it gives no
phases (R139). (DESIGN CHOICE: log 62) -/
def seedTaps (seed : Nat) : List (Nat × Nat × Nat) :=
  let rot (c s : Nat) : List (Nat × Nat × Nat) :=
    let n := (1024 - s) % 1024
    [(15, c, 0), (47, if Config.seedTurn then s else n, 0), (79, if Config.seedTurn then n else s, 0), (111, c, 0)]
  if seed = 0 then rot 256 0
  else if seed = 1 then rot 181 181
  else if seed = 2 then rot 0 256
  else (List.range 4).map fun f => (32 * f + 15, Config.seedTap f % 1024, Config.seedTap (f + 4) % 1024)

/-- BLIND from a seed; with seed 0 it is counted (R139, R155). (DEDUCED: log 266) -/
def Dev.eqBlind (d : Dev) (p : Port) (s : Fin 8) (seed : Nat) : Dev :=
  let d := ((d.eqEnter p s 1).put (pgSUBC p s) SUBC.EQ_STAT_SEED seed).tapsSet p s (seedTaps seed)
  let d := d.eqUpd p fun e => { e with trims := AMap.erase e.trims s.val }
  d.when (seed == 0) (·.bump (pgMIMO p) MIMO.REINITS 1)

/-- BLIND with seed 0; a subcarrier whose FREEZE bit stands set goes on to FROZEN (R139, R155). (DEDUCED: log 206) -/
def Dev.eqInit (d : Dev) (p : Port) (s : Fin 8) : Dev :=
  let d := d.eqBlind p s 0
  d.when (bitOf (d.get (pgMIMO p) MIMO.CTL_FREEZE) s.val) (·.eqEnter p s 4)

/-- The subcarrier's equaliser hears that frame alignment has come: a converged BLIND goes to PILOT, HOLD to TRACK (R139). -/
def Dev.eqAlign (d : Dev) (p : Port) (s : Fin 8) : Dev :=
  if d.eqState p s = 1 ∧ d.flag (pgSUBC p s) SUBC.CONVERGED = true then d.eqEnter p s 2
  else if d.eqState p s = 5 then d.eqEnter p s 3
  else d

/-- The subcarrier's equaliser hears that frame alignment is lost: PILOT and TRACK go to HOLD (R139). -/
def Dev.eqLost (d : Dev) (p : Port) (s : Fin 8) : Dev :=
  if d.eqState p s = 2 ∨ d.eqState p s = 3 then d.eqEnter p s 5 else d

/-- A tap component negated and time-reversed in the singularity correction; −512 has no negation in 10 bits, and the
spec states no result there: a free value. (DESIGN CHOICE: log 63) -/
def negTap (x : Nat) : Nat := if x = 512 then Config.tapNeg % 1024 else (1024 - x) % 1024

/-- The singularity correction: h_yx becomes the negated conjugate time-reverse of h_xy, h_yy the conjugate
time-reverse of h_xx (R140).  A filter's taps run from 0 to 30. -/
def EqState.fixSingular (e : EqState) (s : Nat) : EqState :=
  let at_ (f t : Nat) : Nat := FMap.get e.taps (s * 128 + 32 * f + t)
  let put (m : FMap) (f t re im : Nat) : FMap := FMap.set m (s * 128 + 32 * f + t) (re + 65536 * im)
  { e with taps := (List.range 31).foldl (fun m t =>
      let a := at_ 1 (30 - t)
      let b := at_ 0 (30 - t)
      put (put m 2 t (negTap (a % 65536)) (a / 65536)) 3 t (b % 65536) (negTap (b / 65536))) e.taps }

/-- MIMO_WINDOW: in BLIND four windows in a row with the CMA error variance below 0.25 are convergence; in BLIND and HOLD
with SING_EN a cross-correlation above 0.9 is corrected (R139, R140). -/
def mimoWindowDo (p : Port) (s : Fin 8) (var xcorr : Nat) (d : Dev) : Dev := d.lineDo p fun d =>
  let pg := pgSUBC p s
  let st := d.eqState p s
  let d := if (st = 1 ∨ st = 5) ∧ d.flag (pgMIMO p) MIMO.CTL_SING_EN = true ∧ 900 < xcorr then
      (((d.eqUpd p (·.fixSingular s.val)).bump (pgMIMO p) MIMO.SINGULAR 1).ev (pgMIMO p) 1).ev pg 2
    else d
  if st = 1 ∧ d.flag pg SUBC.CONVERGED = false then
    let run := if var < 250 then d.get pg SUBC.WIN_RUN + 1 else 0
    if 4 ≤ run then
      if d.aligned p s then d.eqEnter p s 2 else (d.put pg SUBC.WIN_RUN 4).putb pg SUBC.CONVERGED true
    else d.put pg SUBC.WIN_RUN run
  else d

/-- MIMO_SEED_TIMEOUT: the next seed, with DIVERGE after seed 3 (R139). (DEDUCED: log 61) -/
def seedTimeoutDo (p : Port) (s : Fin 8) (d : Dev) : Dev := d.lineDo p fun d =>
  let pg := pgSUBC p s
  if d.eqState p s = 1 ∧ d.flag pg SUBC.CONVERGED = false then
    let seed := (d.get pg SUBC.EQ_STAT_SEED + 1) % 4
    ((d.eqBlind p s seed).bump (pgMIMO p) MIMO.SEEDS 1).when (seed == 0) (·.ev (pgMIMO p) 2)
  else d

/-- MIMO_PILOT_DONE: PILOT goes to TRACK (R139). -/
def pilotDoneDo (p : Port) (s : Fin 8) (d : Dev) : Dev := d.lineDo p fun d =>
  if d.eqState p s = 2 then d.eqEnter p s 3 else d

/-- MIMO_HOLD_TIMEOUT: HOLD goes to BLIND from the current taps (R139). -/
def holdTimeoutDo (p : Port) (s : Fin 8) (d : Dev) : Dev := d.lineDo p fun d =>
  if d.eqState p s = 5 then d.eqEnter p s 1 else d

/-- FREEZE: a write of MIMO_CTL; each bit set freezes its subcarrier, each cleared releases it to TRACK when aligned, else
to BLIND from the current taps (R139). -/
def freezeWrite (p : Port) (w : Word) (d : Dev) : Dev := d.hostLine p fun d =>
  let d := d.putWs (pgMIMO p)
    [MIMO.CTL_MU_CMA, MIMO.CTL_MU_DD, MIMO.CTL_MU_TRK, MIMO.CTL_SING_EN, MIMO.CTL_FREEZE] w
  (List.finRange 8).foldl (fun d (s : Fin 8) =>
    let on := bitOf (d.get (pgMIMO p) MIMO.CTL_FREEZE) s.val
    let st := d.eqState p s
    if on && st != 0 && st != 4 then d.eqEnter p s 4
    else if !on && st == 4 then d.eqEnter p s (if d.aligned p s then 3 else 1)
    else d) d

/-- REINIT: the named subcarriers have their FREEZE bit cleared and return to BLIND with seed 0; one at or above K stays in
OFF (R139, R152). (DEDUCED: log 217) -/
def reinitWrite (p : Port) (w : Word) (d : Dev) : Dev := d.hostLine p fun d =>
  (List.finRange 8).foldl (fun d (s : Fin 8) =>
    if bitOf w.toNat s.val then
      (d.putBit (pgMIMO p) MIMO.CTL_FREEZE s.val false).when (decide (s.val < d.rxK p)) (·.eqInit p s)
    else d) d

/-- The subcarriers below K that are in OFF leave it, or those outside OFF restart, in BLIND with seed 0; the others go to
OFF (R139, R152, R634). -/
def Dev.eqRestart (d : Dev) (p : Port) (off : Bool) : Dev :=
  (List.finRange 8).foldl (fun d (s : Fin 8) =>
    if s.val < d.rxK p then (if off == (d.eqState p s == 0) then d.eqInit p s else d)
    else if d.eqState p s = 0 then d else d.eqEnter p s 0) d

/-- The step exponent in force (R139, R155): MU_CMA in BLIND, MU_DD in PILOT, rising by one per 64 frames to MU_TRK in
TRACK, MU_TRK in HOLD. -/
def Dev.eqStep (d : Dev) (p : Port) (s : Fin 8) : Nat :=
  let pg := pgMIMO p
  let dd := max 4 (d.get pg MIMO.CTL_MU_DD)
  let trk := max dd (d.get pg MIMO.CTL_MU_TRK)
  let st := d.eqState p s
  if st = 1 then max 4 (d.get pg MIMO.CTL_MU_CMA)
  else if st = 2 then dd
  else if st = 3 then min trk (dd + d.get (pgSUBC p s) SUBC.TRACK_FRAMES / 64)
  else trk

/-- A received carrier frame passes: tracking room renewed, TRACK frames counted (R135, R139). -/
def Dev.eqFrame (d : Dev) (p : Port) : Dev :=
  let d := d.put (pgCDC p) CDC.TRACK_USED 0
  (List.finRange 8).foldl (fun d (s : Fin 8) =>
    if d.eqState p s = 3 then d.bumpSat (pgSUBC p s) SUBC.TRACK_FRAMES 1 else d) d

/-- A subcarrier's taps shifted by one position, so that the output does not change when the delay trim moves (R163). -/
def EqState.shiftTaps (e : EqState) (s : Nat) (up : Bool) : EqState :=
  let base := e.taps.filter (fun x => x.1 / 128 != s)
  { e with taps := (List.range 4).foldl (fun m f => (List.range 31).foldl (fun m t =>
      let src := if up then t + 1 else t - 1
      let v := if up then (if t = 30 then 0 else FMap.get e.taps (s * 128 + 32 * f + src))
        else (if t = 0 then 0 else FMap.get e.taps (s * 128 + 32 * f + src))
      FMap.set m (s * 128 + 32 * f + t) v) m) base }

/-- The filters of the live profile: in Trestle only the 11 taps 10 to 20 of each exist (R137, R159). -/
def Dev.tapsLive (d : Dev) (p : Port) : Dev :=
  if d.rxTrestle p then d.eqUpd p fun e =>
    { e with taps := e.taps.filter fun x => decide (10 ≤ x.1 % 32) && decide (x.1 % 32 ≤ 20) }
  else d

/-- The gradient accumulated for one tap over the 16 symbols of an update, symbols flagged by a converter flip left out
(R138, R152). -/
def gradAt (grads : List (Bool × List (Fin 128 × Int × Int))) (k : Nat) : Int × Int :=
  grads.foldl (fun a g =>
    if g.1 then a
    else g.2.foldl (fun a x => if x.1.val = k then (a.1 + x.2.1, a.2 + x.2.2) else a) a) (0, 0)

/-- A tap part `h` after a step of 2^-`k` times the gradient `g`, both in 2^-8: exact where the format holds the result;
between two codes one of them, and beyond ±10 bits a free value, since the spec states neither (R137, R138). (DESIGN CHOICE: log 218) -/
def tapStep (h g : Int) (k : Nat) : Nat :=
  let n : Int := (2 ^ k : Nat)
  let v := h + g / n + (if g % n = 0 then 0 else ((Config.tapRound h g k % 2 : Nat) : Int))
  if -512 ≤ v ∧ v ≤ 511 then sTo 10 v else Config.tapOver v % 1024

/-- One update of a subcarrier's taps (R138). -/
def EqState.update (e : EqState) (s : Nat) (grads : List (Bool × List (Fin 128 × Int × Int))) (k : Nat) : EqState :=
  { e with taps := (List.range 128).foldl (fun m i =>
      let g := gradAt grads i
      if i % 32 = 31 ∨ g = (0, 0) then m
      else
        let v := FMap.get m (s * 128 + i)
        FMap.set m (s * 128 + i) (tapStep (sOf 10 (v % 65536)) g.1 k + 65536 * tapStep (sOf 10 (v / 65536)) g.2 k)) e.taps }

/-- The tap energy of a subcarrier's four filters, and its moment about the centre tap in T/2 (R159). -/
def EqState.energy (e : EqState) (s : Nat) : Int × Int :=
  (List.range 128).foldl (fun (a : Int × Int) i =>
    let v := FMap.get e.taps (s * 128 + i)
    let w := sOf 10 (v % 65536) * sOf 10 (v % 65536) + sOf 10 (v / 65536) * sOf 10 (v / 65536)
    (a.1 + w, a.2 + w * ((i % 32 : Nat) - 15 : Int))) (0, 0)

/-- The tap-energy centroid as CENTROID shows it, to the nearest T/2; taps that are all 0 have none, and a free value stands
(R159). (DESIGN CHOICE: log 219) -/
def centroidOf (en : Int × Int) (free : Nat) : Nat :=
  if en.1 = 0 then free % 256 else sTo 8 ((2 * en.2 + en.1) / (2 * en.1))

/-- MIMO_TAP_UPDATE: the gradient accumulated over 16 symbols is applied in BLIND (until converged), PILOT, TRACK and HOLD
with the step in force; sixteen updates in a row with the centroid beyond ±1 T/2 move the delay trim toward the centre
(R138, R139, R163, R183). -/
def tapUpdateDo (p : Port) (s : Fin 8) (grads : List (Bool × List (Fin 128 × Int × Int))) (d : Dev) : Dev := d.lineDo p fun d =>
  let pg := pgSUBC p s
  let st := d.eqState p s
  if st = 0 ∨ st = 4 ∨ (st = 1 ∧ d.flag pg SUBC.CONVERGED = true) then d
  else
    let k := d.eqStep p s
    let d := ((d.eqUpd p (·.update s.val grads k)).tapsLive p).bump pg SUBC.EQ_UPDATES 1
    let en := (d.eq.get p).energy s.val
    let d := d.put pg SUBC.EQ_STAT_CENTROID (centroidOf en d.free)
    let d := d.when (en.1 == 0) (·.used)
    let run := if en.1 < en.2 ∨ en.2 < -en.1 then d.get pg SUBC.CENTROID_RUN + 1 else 0
    if 16 ≤ run then
      let up := decide (en.1 < en.2)
      let d := d.put pg SUBC.CENTROID_RUN 0
      (d.eqUpd p fun e =>
        let t := (AMap.find? e.trims s.val).getD 0
        { (e.shiftTaps s.val up) with trims := AMap.insert e.trims s.val (if up then t + 1 else t - 1) }).tapsLive p
    else d.put pg SUBC.CENTROID_RUN run

/-- SNAP: all taps copied to the window at one update instant (R159). -/
def snapWrite (p : Port) (s : Fin 8) (d : Dev) : Dev := d.hostLine p fun d =>
  let pg := pgSUBC p s
  let e := d.eq.get p
  let d := (List.range 128).foldl (fun d i =>
    let v := FMap.get e.taps (s.val * 128 + i)
    (d.put pg (SUBC.TAPS_RE.at i) (v % 65536)).put pg (SUBC.TAPS_IM.at i) (v / 65536)) d
  d.putb pg SUBC.EQ_SNAP_STAT_READY true

/-- The tap memory across a change of profile: Girder taps 10–20 become the Trestle taps; back, the outer taps start at 0
(R152). -/
def Dev.tapsProfile (d : Dev) (p : Port) : Dev :=
  (d.eqUpd p fun e =>
    { e with taps := e.taps.filter fun x => decide (10 ≤ x.1 % 32) && decide (x.1 % 32 ≤ 20) }).put
      (pgMIMO p) MIMO.CFG_NTAP (if d.rxTrestle p then 11 else 31)

/-! ### Nonlinearity compensation -/

/-- The internal address of a byte of a port's triplet table. -/
def tripAddr (p : Port) (off : Nat) : Nat := memBase (4 + p.val) + off

/-- A triplet entry counts: V set, M and N not −512, |M + N| at most 511, SC below K (R145, R146). -/
def entryValid (k v : Nat) : Bool :=
  let m := sOf 10 (bitsOf v 32 10)
  let n := sOf 10 (bitsOf v 48 10)
  bitOf v 63 && m != -512 && n != -512 && decide ((m + n).natAbs ≤ 511) && decide (bitsOf v 60 3 < k)

/-- NLC_TBL_STAT.VALID (R146): the entries whose top byte is listed and that count. -/
def Dev.tblValid (d : Dev) (p : Port) : Nat :=
  let mem := d.memFixed
  mem.countP fun c =>
    decide (tripAddr p 0 ≤ c.1) && decide (c.1 < tripAddr p 983040) && c.1 % 8 == 7 &&
      entryValid (d.rxK p) (memReadN mem 8 (c.1 - 7))

/-- STATUS.ACTIVE and, in Trestle, TBL_OPEN follow the live EN and profile (R149, R151, R157). -/
def Dev.nlcStatus (d : Dev) (p : Port) : Dev :=
  let pg := pgNLC p
  let en := d.flag pg NLC.CTL_EN
  let tr := d.rxTrestle p
  let d := d.putb pg NLC.STATUS_ACTIVE (en && !tr)
  if tr then d.putb pg NLC.STATUS_TBL_OPEN true
  else if en then d.putb pg NLC.STATUS_TBL_OPEN false else d

/-- The take of a commit of the NLC page; in Trestle a take that turns EN on raises NLC_IGNORED (R149, R151). (DEDUCED: log 220) -/
def Dev.nlcTake (d : Dev) (p : Port) (was : Bool) : Dev :=
  let d := d.nlcStatus p
  d.when (!was && d.flag (pgNLC p) NLC.CTL_EN && d.rxTrestle p) (·.ev (pgNLC p) 3)

/-- A write of bytes of an entry of the triplet table: accepted while TBL_OPEN, otherwise dropped and counted (R148).  A
rewritten entry is read again, and a write during a CRC leaves its result undefined (R147, R150). -/
def Dev.tripPut (d : Dev) (p : Port) (w mask data req : Nat) : Dev :=
  let pg := pgNLC p
  if d.flag pg NLC.STATUS_TBL_OPEN then
    let d := d.directWrite (4 + p.val) w mask data req
    let d := d.when (d.wordSyn (4 + p.val) w == 0) (·.eqUpd p fun e => { e with zeroed := FMap.set e.zeroed w 0 })
    d.when (d.flag pg NLC.STATUS_SUM_BUSY) (·.putb pg NLC.SUM_DIRTY true)
  else (d.bump pg NLC.WR_DROP 1).ev pg 0

/-- TRIPLET_WRITE: a 32-bit write of half an entry (R148). (DEDUCED: log 64) -/
def tripWrite (p : Port) (woff : Nat) (w : Word) (d : Dev) : Dev :=
  d.tripPut p (woff / 2) (if woff % 2 = 0 then 0x0F else 0xF0) (w.toNat * 2 ^ (32 * (woff % 2))) 0

/-- TBL_OPEN: the last symbol before the take of EN = 0 has left (R149). -/
def tblOpenDo (p : Port) (d : Dev) : Dev := d.lineDo p fun d =>
  d.when (!d.flag (pgNLC p) NLC.CTL_EN) (·.putb (pgNLC p) NLC.STATUS_TBL_OPEN true)

/-- SUM_START starts or restarts the CRC (R150). -/
def sumStartDo (p : Port) (d : Dev) : Dev := d.hostLine p fun d =>
  (d.putb (pgNLC p) NLC.STATUS_SUM_BUSY true).putb (pgNLC p) NLC.SUM_DIRTY false

/-- One bit step of the CRC-32 of IEEE 802.3, reflected. -/
def crc32Step (c : Nat) : Nat := if c % 2 = 0 then c / 2 else (c / 2) ^^^ 0xEDB88320

/-- The CRC-32 of `n` bytes of memory from an address (R150). -/
def crc32Mem (m : List Host.Cell) (a n : Nat) : Nat :=
  ((List.range n).foldl (fun c i =>
    (List.range 8).foldl (fun c _ => crc32Step c) (c ^^^ (memRead m (a + i)).toNat)) 0xFFFFFFFF) ^^^ 0xFFFFFFFF

/-- SUM_DONE: the CRC over all entries, undefined after a write during the computation (R150). -/
def sumDoneDo (p : Port) (d : Dev) : Dev := d.lineDo p fun d =>
  let pg := pgNLC p
  if d.flag pg NLC.STATUS_SUM_BUSY then
    let dirty := d.flag pg NLC.SUM_DIRTY
    let v := if dirty then d.free else crc32Mem d.memFixed (tripAddr p 0) 983040
    let d := d.when dirty (·.used)
    ((d.put pg NLC.TBL_CRC_CRC v).putb pg NLC.STATUS_SUM_BUSY false).ev pg 1
  else d

/-- TBL_ECC: the entry counts as zero until rewritten; it is counted, recorded and reported (R147). -/
def tblEccDo (p : Port) (e : Nat) (d : Dev) : Dev := d.lineDo p fun d =>
  let pg := pgNLC p
  (((d.eqUpd p fun x => { x with zeroed := FMap.set x.zeroed e 1 }).bump pg NLC.ECC_ZERO 1).put pg NLC.ECC_LAST_INDEX e).ev pg 2

/-- The coefficient the NLC uses for an entry of subcarrier `s`, in 2^-31: the 10-bit parts times GAIN/128 and
2^-(9 + SCALE), zero while the entry reads with an uncorrectable error, counts as zero or is skipped (R144, R146, R147). -/
def Dev.nlcCoef (d : Dev) (p : Port) (e : Nat) : Int × Int :=
  let v := memReadN d.memFixed 8 (tripAddr p (8 * e))
  if FMap.get (d.eq.get p).zeroed e = 0 ∧ eccClass (d.wordSyn (4 + p.val) e) < 3 ∧ entryValid (d.rxK p) v = true then
    let g : Int := (d.get (pgNLC p) NLC.CTL_GAIN * 2 ^ (15 - d.get (pgNLC p) (NLC.SCALE.at (bitsOf v 60 3))) : Nat)
    (sOf 10 (bitsOf v 0 10) * g, sOf 10 (bitsOf v 10 10) * g)
  else (0, 0)

/-! ### The commands -/

def execCdcCoefReady (p : Port) (s : State) : Host.Outcome State Fault Refusal := s.run (coefReadyDo p)

/-- START: a write of CDC_SRCH_STEP whose START bit is 1. -/
def execStart (p : Port) (w : Word) (s : State) : Host.Outcome State Fault Refusal :=
  s.run (srchStartWrite p (w ||| 0x80000000#32))

def execSrchRetry (p : Port) (s : State) : Host.Outcome State Fault Refusal := s.run (srchRetryDo p)

def execMimoTapUpdate (p : Port) (sc : Fin 8) (grads : List (Bool × List (Fin 128 × Int × Int))) (s : State) :
    Host.Outcome State Fault Refusal :=
  s.run (tapUpdateDo p sc grads)

def execMimoWindow (p : Port) (sc : Fin 8) (var xcorr : Nat) (s : State) : Host.Outcome State Fault Refusal :=
  s.run (mimoWindowDo p sc var xcorr)

def execMimoSeedTimeout (p : Port) (sc : Fin 8) (s : State) : Host.Outcome State Fault Refusal := s.run (seedTimeoutDo p sc)

def execMimoPilotDone (p : Port) (sc : Fin 8) (s : State) : Host.Outcome State Fault Refusal := s.run (pilotDoneDo p sc)

def execMimoHoldTimeout (p : Port) (sc : Fin 8) (s : State) : Host.Outcome State Fault Refusal := s.run (holdTimeoutDo p sc)

def execFreeze (p : Port) (w : Word) (s : State) : Host.Outcome State Fault Refusal := s.run (freezeWrite p w)

def execReinit (p : Port) (w : Word) (s : State) : Host.Outcome State Fault Refusal := s.run (reinitWrite p w)

def execSnap (p : Port) (sc : Fin 8) (s : State) : Host.Outcome State Fault Refusal := s.run (snapWrite p sc)

/-- TRIPLET_WRITE: a write of the window; dropped while the line die is gated, when its table cannot be reached (R38, R152). -/
def execTripletWrite (p : Port) (woff : Fin 245760) (w : Word) (s : State) : Host.Outcome State Fault Refusal :=
  s.run (fun d => d.lineDo p (tripWrite p woff.val w))

def execTblOpen (p : Port) (s : State) : Host.Outcome State Fault Refusal := s.run (tblOpenDo p)

def execSumStart (p : Port) (s : State) : Host.Outcome State Fault Refusal := s.run (sumStartDo p)

def execSumDone (p : Port) (s : State) : Host.Outcome State Fault Refusal := s.run (sumDoneDo p)

def execTblEcc (p : Port) (e : Fin 122880) (s : State) : Host.Outcome State Fault Refusal := s.run (tblEccDo p e.val)

end Sys2Proof.Machine
end

