-- ==== Sys2Proof/Machine/Crv.lean ====
section
/-! DEFINITION.  Carrier and timing recovery: acquisition, frequency, pilots and cycle slips (R161–R172), and the LLR
codes of the demapper (R176, R177). -/

namespace Sys2Proof.Machine

/-! ### Model fields -/

/-- Consecutive acquisition failures (R165). -/
def CRV.FAIL_RUN : Fld := hid 0 16 0
/-- The next start waits 100 ms (R165). -/
def CRV.RETRYING : Fld := hid 4 1 0
/-- The timing loop has locked since the die was last powered, so CRV_TIM_OFS holds a measured value. (DEDUCED: log 26) -/
def CRV.TIM_SEEN : Fld := hid 12 1 0
/-- Slips of the port in the monitor window (R184). -/
def CRV.WIN_SLIPS : Fld := hid 8 32 0
/-- Pilots in a row, per polarisation, with the rms error below 0.2 rad (R171). -/
def SUBC.OK_RUN : Fld := ⟨0x1040, 0, 5, .ro, 0, 4, 2, false⟩
/-- Slips of the subcarrier in the monitor window (R188). -/
def SUBC.WIN_SLIPS : Fld := hid 0x50 16 0
/-- The next word of the slip trace to fill, 64 when full (R188). -/
def SUBC.TRACE_AT : Fld := hid 0x54 7 64
/-- The subcarrier has had CR_LOCK since the monitor window began (R178). -/
def SUBC.WIN_LOCKED : Fld := hid 0x58 1 0

/-! ### Acquisition (R165, R634, R635) -/

/-- One bin in kHz times the FFT size: 1.2 × baud (R164). -/
def Dev.binNum (d : Dev) (p : Port) : Int := (d.rxBaud p * 1200 : Nat)

/-- The FFT size in force. -/
def Dev.fft (d : Dev) (p : Port) : Int := (fftSize (d.rxTrestle p) : Nat)

/-- A subcarrier leaves CR_LOCK (R171). -/
def Dev.crUnlock (d : Dev) (p : Port) (s : Fin 8) : Dev :=
  let pg := pgSUBC p s
  let d := ((d.put pg (SUBC.OK_RUN.at 0) 0).put pg (SUBC.OK_RUN.at 1) 0).putb pg SUBC.WIN_LOCKED false
  if d.flag pg SUBC.STATUS_CR_LOCK then (d.putb pg SUBC.STATUS_CR_LOCK false).ev pg 4 else d

/-- FO_LOCK clears with FO_LOST (R165, R183). -/
def Dev.foLost (d : Dev) (p : Port) : Dev :=
  if d.flag (pgCRV p) CRV.STATUS_FO_LOCK then (d.putb (pgCRV p) CRV.STATUS_FO_LOCK false).ev (pgCRV p) 1 else d

/-- TIM_LOCK clears with TIM_LOST (R635). -/
def Dev.timDrop (d : Dev) (p : Port) : Dev :=
  if d.flag (pgCRV p) CRV.STATUS_TIM_LOCK then (d.putb (pgCRV p) CRV.STATUS_TIM_LOCK false).ev (pgCRV p) 3 else d

/-- The loops of R161 reset: the phase tracks and the pilots they rest on, and the timing loop (R634). -/
def Dev.loopsReset (d : Dev) (p : Port) : Dev :=
  d.eqUpd p fun e =>
    { e with tracks := [], phases := [], pilotWin := [], tim := 0, timInt := 0 }

/-- Acquisition starts at step 1 with its loops reset and the equalisers restarted, when ADC lanes run (R165, R634). (DEDUCED: log 60) (DEDUCED: log 221) -/
def Dev.acqStart (d : Dev) (p : Port) : Dev :=
  let pg := pgCRV p
  let d := (((d.foLost p).timDrop p).eqRestart p false).loopsReset p
  let d := (List.finRange 8).foldl (fun d s => (d.crUnlock p s).putb (pgSUBC p s) SUBC.STATUS_PILOT_OK false) d
  if d.adcRuns p then
    ((d.putb pg CRV.STATUS_ACQ true).put pg CRV.STATUS_ACQ_STEP 1).bump pg CRV.REACQS 1 |>.putb pg CRV.RETRYING false
  else (d.putb pg CRV.STATUS_ACQ false).put pg CRV.STATUS_ACQ_STEP 0

/-- A restart that is no failure ends the run of failures (R165). -/
def Dev.acqRestart (d : Dev) (p : Port) : Dev := (d.put (pgCRV p) CRV.FAIL_RUN 0).acqStart p

/-- A failed step: counted, the search of an unfinished step 2 given up; the fourth in a row raises ACQ_FAIL, and from then
on a restart waits 100 ms (R165, R628). -/
def Dev.acqFail (d : Dev) (p : Port) : Dev :=
  let pg := pgCRV p
  let n := d.get pg CRV.FAIL_RUN + 1
  let d := d.when (d.get pg CRV.STATUS_ACQ_STEP == 2 && d.flag (pgCDC p) CDC.STATUS_SEARCH) (·.srchDrop p)
  let d := (d.bump pg CRV.ACQ_FAILS 1).bumpSat pg CRV.FAIL_RUN 1
  let d := d.when (n == 4) (·.ev pg 5)
  if n < 4 then d.acqStart p
  else
    let d := (d.foLost p).timDrop p
    ((d.putb pg CRV.STATUS_ACQ false).put pg CRV.STATUS_ACQ_STEP 0).putb pg CRV.RETRYING true

/-- The ADC lanes of a port deliver samples: acquisition runs, and a waiting dispersion search starts (R136, R165). (DEDUCED: log 55) -/
def Dev.adcStarted (d : Dev) (p : Port) : Dev :=
  if d.adcRuns p then
    let d := d.acqRestart p
    d.when (d.flag (pgCDC p) CDC.WANTED) (·.srchStart p 0)
  else d

/-- The port starts, with its first ADC lane enabled: MODE applies and acquisition runs (R132, R133, R165).
 -/
def Dev.portStart (d : Dev) (p : Port) : Dev := ((d.srchDrop p).cdcMode p).acqRestart p

/-- The anchor is frame-aligned: step 4 goes to step 5 and the pilot positions are known (R165). -/
def Dev.acqAligned (d : Dev) (p : Port) : Dev :=
  let d := d.when (d.flag (pgCRV p) CRV.STATUS_ACQ && d.get (pgCRV p) CRV.STATUS_ACQ_STEP == 4)
    (·.put (pgCRV p) CRV.STATUS_ACQ_STEP 5)
  (List.finRange 8).foldl (fun d (s : Fin 8) =>
    if s.val < d.rxK p then d.putb (pgSUBC p s) SUBC.STATUS_PILOT_OK true else d) d

/-- The anchor leaves LOCK while FO_LOCK is 1: acquisition returns to step 5 (R635). -/
def Dev.foAnchorLost (d : Dev) (p : Port) : Dev :=
  let d := (List.finRange 8).foldl (fun d s => d.putb (pgSUBC p s) SUBC.STATUS_PILOT_OK false) d
  if d.flag (pgCRV p) CRV.STATUS_FO_LOCK then
    ((d.foLost p).putb (pgCRV p) CRV.STATUS_ACQ true).put (pgCRV p) CRV.STATUS_ACQ_STEP 5
  else d

/-- REACQ: FO_LOCK falls, no failure is counted, the run of failures ends (R165, R183). -/
def reacqDo (p : Port) (d : Dev) : Dev := d.hostLine p fun d => d.acqRestart p

/-- The offset rounded to whole bins, half a bin away from zero (R164). -/
def roundBins (est binNum fft : Int) : Int :=
  if 0 ≤ est then (2 * est * fft + binNum) / (2 * binNum) else -((-2 * est * fft + binNum) / (2 * binNum))

/-- COARSE_FO_DONE: beyond ±FO_WIN it is a failure; otherwise it is applied, and the dispersion search follows in CDC
MODE 0 (R164, R165). -/
def coarseDone (p : Port) (est : Int) (d : Dev) : Dev := d.lineDo p fun d =>
  let pg := pgCRV p
  if d.flag pg CRV.STATUS_ACQ = false ∨ d.get pg CRV.STATUS_ACQ_STEP ≠ 1 then d
  else
    let win : Int := (clampN 1 50 (d.get pg CRV.CTL_FO_WIN) * 100000 : Nat)
    if win < est ∨ est < -win then d.acqFail p
    else
      let d := (d.put pg CRV.FO_COARSE_BINS (sTo 16 (roundBins est (d.binNum p) (d.fft p)))).put pg CRV.FO_TOTAL_FO (sTo 24 est)
      if d.get (pgCDC p) CDC.CTL_MODE = 0 then
        (d.put pg CRV.STATUS_ACQ_STEP 2).when (!d.flag (pgCDC p) CDC.STATUS_SEARCH) (·.srchStart p 0)
      else d.put pg CRV.STATUS_ACQ_STEP 3

/-- SRCH_DONE: the search whose candidates are all evaluated ends; on success step 2 of acquisition is done, and when it has
failed for good that step has failed (R133, R134, R165). (DEDUCED: log 59) -/
def srchDoneDo (p : Port) (d : Dev) : Dev := d.lineDo p fun d =>
  match (d.eq.get p).srch with
  | none => d
  | some r =>
    if !r.ahead.isEmpty then d
    else
      let d := d.srchEnd p r
      if d.flag (pgCRV p) CRV.STATUS_ACQ = true ∧ d.get (pgCRV p) CRV.STATUS_ACQ_STEP = 2 ∧ d.flag (pgCDC p) CDC.STATUS_SEARCH = false then
        if r.good then d.put (pgCRV p) CRV.STATUS_ACQ_STEP 3 else d.acqFail p
      else d

/-- TIM_LOCK: step 3 is done and the subcarrier equalisers leave OFF (R139, R165). -/
def timLockDo (p : Port) (d : Dev) : Dev := d.lineDo p fun d =>
  let pg := pgCRV p
  let d := (d.when (!d.flag pg CRV.STATUS_TIM_LOCK) fun d => (d.putb pg CRV.STATUS_TIM_LOCK true).ev pg 2).putb pg CRV.TIM_SEEN true
  if d.flag pg CRV.STATUS_ACQ && d.get pg CRV.STATUS_ACQ_STEP == 3 then
    let d := (d.put pg CRV.STATUS_ACQ_STEP 4).eqRestart p true
    d.when (d.aligned p 0) (·.acqAligned p)
  else d

/-- TIM_LOST: the loop condition fails (R635). -/
def timLostDo (p : Port) (d : Dev) : Dev := d.lineDo p fun d => d.timDrop p

/-- ACQ_TIMEOUT: acquisition not complete in 50 ms is a failed step (R165, R628, R635). -/
def acqTimeoutDo (p : Port) (d : Dev) : Dev := d.lineDo p fun d =>
  if d.flag (pgCRV p) CRV.STATUS_ACQ then d.acqFail p else d

/-- ACQ_RETRY: the next attempt after a fourth or later failure (R165). -/
def acqRetryDo (p : Port) (d : Dev) : Dev := d.lineDo p fun d =>
  if d.flag (pgCRV p) CRV.RETRYING then d.acqStart p else d

/-! ### Tracking -/

/-- Acquisition has come to step `n` (R165). -/
def Dev.acqAt (d : Dev) (p : Port) (n : Nat) : Bool :=
  d.flag (pgCRV p) CRV.STATUS_ACQ && decide (n ≤ d.get (pgCRV p) CRV.STATUS_ACQ_STEP)

/-- The fine loop at a CDC block boundary: the total offset, from step 4 of acquisition on; and while FO_LOCK is 1 a bin move beyond
0.6 bin, and FO_RANGE beyond ±2.5 GHz of the reference or ±5 GHz (R165–R167). -/
def Dev.foBlock (d : Dev) (p : Port) (fine : Int) : Dev :=
  let pg := pgCRV p
  if !d.flag pg CRV.STATUS_FO_LOCK && !d.acqAt p 4 then d
  else if !d.flag pg CRV.STATUS_FO_LOCK then
    d.put pg CRV.FO_TOTAL_FO (sTo 24 (sOf 16 (d.get pg CRV.FO_COARSE_BINS) * d.binNum p / d.fft p + fine))
  else
    let bins := sOf 16 (d.get pg CRV.FO_COARSE_BINS)
    let bn := d.binNum p
    let n := d.fft p
    let total := bins * bn / n + fine
    let mv : Int := if 6 * bn < 10 * fine * n then 1 else if 10 * fine * n < -(6 * bn) then -1 else 0
    let d := d.put pg CRV.FO_TOTAL_FO (sTo 24 total)
    let d := if mv = 0 then d else (d.put pg CRV.FO_COARSE_BINS (sTo 16 (bins + mv))).bump pg CRV.BIN_MOVES 1
    let ref := sOf 24 (d.get pg CRV.FO_REF_FO)
    if 2500000 < (total - ref).natAbs ∨ 5000000 < total.natAbs then (d.ev pg 4).acqRestart p else d

/-- The bandwidth of the timing loop in kHz (R162, R184). -/
def Dev.timBw (d : Dev) (p : Port) : Nat := [100, 300, 1000, 3000].getD (d.get (pgCRV p) CRV.CTL_TIM_BW) 100

/-- The error of the port's timing loop: the sum of the clock-tone phases of the active subcarriers (R162). -/
def Dev.timError (d : Dev) (p : Port) (phase : Nat → Int) : Int :=
  ((List.range (d.rxK p)).map phase).foldl (· + ·) 0

/-- The timing loop over a block, from step 3 of acquisition on: its error, filtered in the bandwidth of TIM_BW, moves the instant of
the interpolators.  The spec gives the bandwidth and no loop filter (R162, R165). (DESIGN CHOICE: log 275) -/
def Dev.timBlock (d : Dev) (p : Port) (clk : List Int) : Dev :=
  if d.flag (pgCRV p) CRV.STATUS_TIM_LOCK || d.acqAt p 3 then
    let r := Config.timLoop (d.timBw p) (d.timError p fun s => clk.getD s 0) (d.eq.get p).timInt
    d.eqUpd p fun e => { e with tim := e.tim + r.1, timInt := r.2 }
  else d

/-- CDC_BLOCK_BOUNDARY: a complete coefficient set takes effect, a search goes on, tracking steps, the timing loop runs, the
frequency bin moves (R127, R133, R135, R162, R164, R166, R183). -/
def blockBoundary (p : Port) (fine est : Int) (tones : List (Bool × Nat)) (clk : List Int) (d : Dev) : Dev := d.lineDo p fun d =>
  ((((d.coefBlock p).srchBlock p tones).cdcTrack p est).timBlock p clk).foBlock p fine

/-! ### Pilots -/

/-- A pilot-derived phase `dev` away from the carried track declares a cycle slip: beyond π/4, the residual within π/8 of
a multiple of π/2; phases in 2π/65,536 (R172). -/
def isSlip (dev : Int) : Bool :=
  let r := dev % 16384
  decide (8192 < dev.natAbs) && (decide (r ≤ 4096) || decide (12288 ≤ r))

/-- The frame and the interval of the subframe between pilot `n` of a frame and the pilot before: interval j follows pilot j, and the
last one of the frame before comes before pilot 0 (R168, R172). -/
def slipAt (k frame n : Nat) : Nat × Nat := if n = 0 then ((frame + 4095) % 4096, 2048 / k - 2) else (frame, n - 1)

/-- A slip at pilot `n` of a frame: with CS_ERASE the 63 symbols since the last pilot are erased; the slip is counted and reported and
the trace window opened (R172, R188). (DEDUCED: log 276) -/
def Dev.slip (d : Dev) (p : Port) (s : Fin 8) (pol : Bool) (frame n phase : Nat) : Dev :=
  let pg := pgSUBC p s
  let d := ((d.bump pg SUBC.SLIPS 1).bump (pgCRV p) CRV.SLIPS 1).ev pg 5
  let d := (d.bumpSat pg SUBC.WIN_SLIPS 1).bumpSat (pgCRV p) CRV.WIN_SLIPS 1
  let d := d.when (d.flag (pgCRV p) CRV.CTL_CS_ERASE) fun d =>
    let at_ := slipAt (d.rxK p) frame n
    (d.bump pg SUBC.ERASED 63).eqUpd p fun e => { e with slips := (at_.1, s.val * 2 + b2n pol, at_.2) :: e.slips }
  let h := (AMap.find? (d.eq.get p).phases (s.val * 2 + b2n pol)).getD []
  let put (d : Dev) (i v : Nat) : Dev :=
    (d.put pg (SUBC.SLIP_TRACE_PHASE.at i) v).putb pg (SUBC.SLIP_TRACE_POL.at i) pol
  let d := (List.range 32).foldl (fun d i => put d i (h.getD (31 - i) 0)) d
  (put d 32 phase).put pg SUBC.TRACE_AT 33

/-- CR_LOCK of a subcarrier entered; on the anchor it is step 6 of acquisition (R165, R171). -/
def Dev.crLock (d : Dev) (p : Port) (s : Fin 8) : Dev :=
  let pg := pgSUBC p s
  let d := (d.putb pg SUBC.STATUS_CR_LOCK true).ev pg 3
  let c := pgCRV p
  if s = 0 ∧ d.flag c CRV.STATUS_ACQ = true ∧ d.get c CRV.STATUS_ACQ_STEP = 5 then
    let d := ((d.putb c CRV.STATUS_FO_LOCK true).put c CRV.FO_REF_FO (d.get c CRV.FO_TOTAL_FO)).ev c 0
    ((d.putb c CRV.STATUS_ACQ false).put c CRV.STATUS_ACQ_STEP 0).put c CRV.FAIL_RUN 0
  else d

/-- The track carried to a pilot: that of the pilot before, moved by the blind search; the first pilot starts it (R172). (DEDUCED: log 240) -/
def EqState.carried (e : EqState) (k phase drift : Nat) : Nat :=
  match AMap.find? e.tracks k with
  | none => phase
  | some t => (t + drift) % 65536

/-- PILOT: phase history and trace, decision errors, slip detection while the subcarrier is frame-aligned, with the track re-anchored to
the pilot, and the entry to and exit from CR_LOCK (R169, R171, R172, R183, R188). (DEDUCED: log 207) (DEDUCED: log 267) -/
def pilotDo (p : Port) (s : Fin 8) (pol : Bool) (frame n phase : Nat) (ok wrong : Bool) (drift : Nat) (d : Dev) : Dev :=
  d.lineDo p fun d =>
  let pg := pgSUBC p s
  if !d.flag pg SUBC.STATUS_PILOT_OK then d
  else
    let d := d.when wrong (·.bump pg SUBC.PILOT_ERR 1)
    let at_ := (d.eq.get p).carried (s.val * 2 + b2n pol) phase drift
    let slip := isSlip (sOf 16 ((phase + 65536 - at_) % 65536)) && d.aligned p s.val
    let d := if slip then d.slip p s pol frame n phase
      else
        let i := d.get pg SUBC.TRACE_AT
        if i < 64 && d.flag pg (SUBC.SLIP_TRACE_POL.at 32) == pol then
          ((d.put pg (SUBC.SLIP_TRACE_PHASE.at i) phase).putb pg (SUBC.SLIP_TRACE_POL.at i) pol).put pg SUBC.TRACE_AT (i + 1)
        else d
    let k := s.val * 2 + b2n pol
    let d := d.eqUpd p fun e =>
      { e with
        phases := AMap.insert e.phases k ((phase :: (AMap.find? e.phases k).getD []).take 32)
        tracks := AMap.insert e.tracks k (if slip then phase else at_)
        pilotWin := AMap.insert e.pilotWin s.val ((wrong :: (AMap.find? e.pilotWin s.val).getD []).take 256) }
    let f := SUBC.OK_RUN.at (b2n pol)
    let d := d.put pg f (if ok then min 16 (d.get pg f + 1) else 0)
    let w := (AMap.find? (d.eq.get p).pilotWin s.val).getD []
    if d.flag pg SUBC.STATUS_CR_LOCK then
      if w.length = 256 ∧ 64 < w.countP id then
        (d.crUnlock p s).eqUpd p fun e => { e with pilotWin := AMap.erase e.pilotWin s.val }
      else d
    else if d.get pg (SUBC.OK_RUN.at 0) = 16 ∧ d.get pg (SUBC.OK_RUN.at 1) = 16 then d.crLock p s
    else d

/-- A subcarrier loses frame alignment: CR_LOCK ends with its phase tracks, and its equaliser falls back (R139, R171). -/
def Dev.subcLost (d : Dev) (p : Port) (s : Fin 8) : Dev :=
  ((d.crUnlock p s).eqUpd p fun e => { e with tracks := AMap.erase (AMap.erase e.tracks (s.val * 2)) (s.val * 2 + 1) }).eqLost p s

/-! ### LLR codes -/

/-- The 6-bit LLR from λ × S in 1/16 units, rounded to nearest with half away from zero, held to ±31 (R176). -/
def llr6 (num : Int) : Int :=
  let r := if 0 ≤ num then (2 * num + 16) / 32 else -((-2 * num + 16) / 32)
  clampI (-31) 31 r

/-- The magnitude code of |L6| (R177). -/
def llrCode (a : Nat) : Nat :=
  if a ≤ 2 then a else if a ≤ 4 then 3 else if a ≤ 7 then 4 else if a ≤ 11 then 5 else if a ≤ 17 then 6 else 7

/-- The compressed 4-bit LLR: sign in bit 3, code in bits 2 to 0 (R177). -/
def llr4 (l : Int) : Nat := (if l < 0 then 8 else 0) + llrCode l.natAbs

/-- Twice the reconstruction of a magnitude code (R177). -/
def llrRecon2 (c : Nat) : Nat := [0, 2, 4, 7, 12, 19, 29, 44].getD c 0

/-! ### The commands -/

def execSrchDone (p : Port) (s : State) : Host.Outcome State Fault Refusal := s.run (srchDoneDo p)

def execCdcBlockBoundary (p : Port) (fine cdEst : Int) (tones : List (Bool × Nat)) (clk : List Int) (s : State) :
    Host.Outcome State Fault Refusal :=
  s.run (blockBoundary p fine cdEst tones clk)

def execReacq (p : Port) (s : State) : Host.Outcome State Fault Refusal := s.run (reacqDo p)

def execCoarseFoDone (p : Port) (est : Int) (s : State) : Host.Outcome State Fault Refusal := s.run (coarseDone p est)

def execTimLock (p : Port) (s : State) : Host.Outcome State Fault Refusal := s.run (timLockDo p)

def execTimLost (p : Port) (s : State) : Host.Outcome State Fault Refusal := s.run (timLostDo p)

def execAcqTimeout (p : Port) (s : State) : Host.Outcome State Fault Refusal := s.run (acqTimeoutDo p)

def execAcqRetry (p : Port) (s : State) : Host.Outcome State Fault Refusal := s.run (acqRetryDo p)

def execPilot (p : Port) (sc : Fin 8) (pol : Bool) (frame : BitVec 12) (n : BitVec 11) (phase : BitVec 16) (rmsOk wrong : Bool)
    (drift : BitVec 16) (s : State) : Host.Outcome State Fault Refusal :=
  s.run (pilotDo p sc pol frame.toNat n.toNat phase.toNat rmsOk wrong drift.toNat)

/-- CONVERTER_PLL_SETTLE: the direction's PLL has settled; on receive the ADCs deliver samples again and a fresh
acquisition follows (R87, R165). -/
def execConverterPllSettle (p : Port) (rx : Bool) (s : State) : Host.Outcome State Fault Refusal :=
  s.run fun d => d.lineDo p fun d =>
    if rx then
      if d.flag (pgADC p) ADC.RETUNE then
        let d := d.putb (pgADC p) ADC.RETUNE false
        (d.put (pgADC p) ADC.STATUS_RUN (d.get (pgADC p) ADC.LANE_CTL_EN)).adcStarted p
      else d
    else d.putb (pgDAC p) DAC.RETUNE false

end Sys2Proof.Machine
end

