-- ==== Sys2Proof/Machine/Txs.lean ====
section
/-! DEFINITION.  Rate mode, entropy and format of both directions (R18, R19, R174, R191–R194), the distribution matcher
(R195–R200), pre-compensation limits (R205), test signals (R211) and predistortion (R209, R210). -/

namespace Sys2Proof.Machine

/-! ### Model fields -/

/-- LONG as sampled when the transmit framer last started (R202). -/
def TXS.LONG_LIVE : Fld := hid 4 1 0
/-- Samples of the tone sent since test pattern 2 took effect, less whole repetitions of it (R211). -/
def TXS.TONE_AT : Fld := hid 8 48 0

/-! ### Rate modes and entropy -/

/-- The net rate in 100 Gb/s, symbol rate in MBd and Trestle profile of mode codes 0–8 (R18, R191). -/
def modeRow (code : Nat) : Option (Nat × Nat × Bool) :=
  [(32, 300000, false), (24, 300000, false), (16, 300000, false), (16, 240000, false), (12, 240000, false),
   (8, 150000, false), (4, 100000, false), (16, 300000, true), (8, 150000, true)][code]?

/-- A rate configuration: mode code, ENT_SRC, ENT, custom net rate, symbol rate in MBd, profile. -/
structure RateCfg where
  code : Nat
  src : Bool
  ent : Nat
  net : Nat
  mbd : Nat
  trestle : Bool
deriving DecidableEq, Repr

/-- The code sent in headers: 9–14 go as 15 (R174, R191). -/
def sentCode (c : Nat) : Nat := if 9 ≤ c then 15 else c

/-- The coded rate factor times 10,000 (R19). -/
def codedFactor (trestle : Bool) : Nat := if trestle then 12566 else 11887

/-- The entropy of R19 in 1/256 bit: the smallest for which payload symbol rate × E is not below the coded line rate;
`net` in 100 Gb/s.  The payload rate is baud × 63/64 × 2,047/2,048 × 2. -/
def entropy19 (net mbd : Nat) (trestle : Bool) : Nat :=
  cdiv (net * codedFactor trestle * 2560 * 131072) (mbd * 257922)

/-- ENT_SRC = 1 applies ENT in the configurations computed as code 15 (R192). -/
def RateCfg.direct (c : RateCfg) : Bool := (modeRow c.code).isNone && c.src

/-- The net rate of the configuration. -/
def RateCfg.netRate (c : RateCfg) : Nat := match modeRow c.code with | some m => m.1 | none => c.net

/-- E × 256, held to the limits 1.50 and 7.50 (R192). (DEDUCED: log 72) -/
def RateCfg.e256 (c : RateCfg) : Nat :=
  clampN 384 1920 (if c.direct then c.ent else entropy19 c.netRate c.mbd c.trestle)

/-- A configuration conflict (R194). -/
def RateCfg.conflict (c : RateCfg) : Bool :=
  match modeRow c.code with
  | some m => c.mbd != m.2.1 || c.trestle != m.2.2
  | none =>
    decide (c.code ≠ 15) ||
    (let e := entropy19 c.net c.mbd c.trestle
     if c.src then decide (c.ent < e) else decide (e < 384) || decide (1920 < e))

/-- The live transmit configuration (R192, R214). -/
def Dev.txCfg (d : Dev) (p : Port) : RateCfg :=
  ⟨d.get (pgTXS p) TXS.RATE_MODE, d.flag (pgTXS p) TXS.RATE_ENT_SRC, clampN 384 1920 (d.get (pgTXS p) TXS.RATE_ENT),
   clampN 4 32 (d.get (pgTXS p) TXS.NET), d.txBaud p, d.flag (pgFEC p) FEC.CTL_TX_PROFILE⟩

/-- The live receive configuration (R174, R186). -/
def Dev.rxCfg (d : Dev) (p : Port) : RateCfg :=
  ⟨d.get (pgDMP p) DMP.RATE_MODE, d.flag (pgDMP p) DMP.RATE_ENT_SRC, clampN 384 1920 (d.get (pgDMP p) DMP.RATE_ENT),
   clampN 4 32 (d.get (pgDMP p) DMP.NET), d.rxBaud p, d.rxTrestle p⟩

/-- The format of an entropy: 0 HQPSK, 1 PCS-16QAM, 2 PCS-64QAM, 3 PCS-256QAM (R193). -/
def formatOf (e : Nat) : Nat := if e < 512 then 0 else if e < 960 then 1 else if e < 1408 then 2 else 3

/-- The number of amplitudes of a format (R193). -/
def ampCount (fmt : Nat) : Nat := [1, 2, 4, 8].getD fmt 1

/-- k, or n_b under HQPSK (R196, R198). -/
def matcherK (e : Nat) : Nat := if e < 512 then 2 * (512 - e) else 2 * (e - 512)

/-! ### The composition ROM (R197) -/

/-- Fixed-point scale of the exponentials and logarithms of the ROM. -/
def fxOne : Nat := 2 ^ 160

/-- exp(−j/4,096) in fixed point, from its series. -/
def expNeg (j : Nat) : Nat :=
  let step (st : Int × Int) (i : Nat) : Int × Int :=
    let t := -(st.2 * (j : Int)) / (4096 * ((i : Int) + 1))
    (st.1 + t, t)
  ((List.range 120).foldl step ((fxOne : Int), (fxOne : Int))).1.toNat

/-- The weights of amplitudes 1, 3, 5, …: with ν = j/4,096 and a² = 1 + 8t they are in the ratio q^t, q = exp(−ν), t the
triangular numbers. -/
def ampWeights (n j : Nat) : List Nat :=
  let q := expNeg j
  ((List.range n).foldl (fun (st : List Nat × Nat × Nat) _ =>
      (st.1 ++ [st.2.1], st.2.1 * st.2.2 / fxOne, st.2.2 * q / fxOne)) ([], fxOne, q)).1

/-- The rank of an amplitude for the remaining counts: how many have a larger fractional part, or an equal one and a smaller
amplitude (R197). -/
def fracRank (fr : List Nat) (i : Nat) : Nat :=
  (List.range fr.length).countP fun k =>
    decide (fr.getD i 0 < fr.getD k 0) || (decide (fr.getD k 0 = fr.getD i 0) && decide (k < i))

/-- The counts of the amplitudes for one value of j (R197). -/
def countsAt (n j : Nat) : List Nat :=
  let w := ampWeights n j
  let tot := w.foldl (· + ·) 0
  let base := w.map fun x => 1024 * x / tot
  let fr := w.map fun x => 1024 * x % tot
  let left := 1024 - base.foldl (· + ·) 0
  (List.range n).map fun i => base.getD i 0 + (if fracRank fr i < left then 1 else 0)

/-- n! -/
def factorial : Nat → Nat
  | 0 => 1
  | n + 1 => (n + 1) * factorial n

/-- The bits a composition holds: the floor of log2 of its multinomial coefficient (R197). -/
def compBits (c : List Nat) : Nat := Nat.log2 (factorial 1024 / (c.map factorial).foldl (· * ·) 1)

/-- The first composition, j falling, that holds k bits (R197). -/
def compFrom (n k : Nat) : Nat → List Nat
  | 0 => countsAt n 0
  | j + 1 => if k ≤ compBits (countsAt n (j + 1)) then countsAt n (j + 1) else compFrom n k j

/-- The composition of an entropy: counts of amplitudes 1, 3, 5, …; under HQPSK the matcher is bypassed and no counts are
reported (R197, R198). (DEDUCED: log 73) -/
def composition (e : Nat) : List Nat :=
  if formatOf e = 0 then [] else compFrom (ampCount (formatOf e)) (matcherK e) 65535

/-- log2 of a number from 1 to 1,024 in units of 2^-48, by repeated squaring. -/
def log2Fx (n : Nat) : Nat :=
  let k := Nat.log2 n
  ((List.range 48).foldl (fun (st : Nat × Nat) _ =>
      let y := st.2 * st.2 / 2 ^ 96
      if 2 ^ 97 ≤ y then (2 * st.1 + 1, y / 2) else (2 * st.1, y)) (k, n * 2 ^ 96 / 2 ^ k)).1

/-- TXS_LOSS: amplitude entropy less k/1,024, in 2^-16 bit, to the nearest unit (R200, R214). -/
def rateLoss (e : Nat) : Nat :=
  let c := composition e
  if c.isEmpty then 0
  else
    let h := 10 * 2 ^ 48 - (c.map fun n => n * log2Fx n).foldl (· + ·) 0 / 1024
    satN 16 ((h - matcherK e * 2 ^ 38 + 2 ^ 31) / 2 ^ 32)

/-! ### Matching and labels -/

/-- The number of sequences with the given amplitude counts. -/
def multinomial (c : List Nat) : Nat :=
  factorial (c.foldl (· + ·) 0) / (c.map factorial).foldl (· * ·) 1

/-- One amplitude index fewer. -/
def takeOne (c : List Nat) (i : Nat) : List Nat := (List.range c.length).map fun k => c.getD k 0 - (if k = i then 1 else 0)

/-- The sequence of rank `u` of a composition, smaller amplitudes first, as amplitude indices (R196). -/
def unrank : Nat → List Nat → Nat → List Nat
  | 0, _, _ => []
  | n + 1, c, u =>
    let r := (List.range c.length).foldl (fun (st : Option Nat × Nat) i =>
      match st.1 with
      | some _ => st
      | none =>
        let m := if c.getD i 0 = 0 then 0 else multinomial (takeOne c i)
        if st.2 < m then (some i, st.2) else (none, st.2 - m)) (none, u)
    let i := r.1.getD 0
    i :: unrank n (takeOne c i) r.2

/-- The rank of a sequence of amplitude indices (R196, R225). -/
def rankOf (c : List Nat) : List Nat → Nat
  | [] => 0
  | x :: t =>
    (((List.range x).filter fun i => c.getD i 0 != 0).map fun i => multinomial (takeOne c i)).foldl (· + ·) 0 +
      rankOf (takeOne c x) t

/-- The Gray label of an amplitude index (R199). -/
def grayLabel (i : Nat) : Nat := i ^^^ (i / 2)

/-- The matcher blocks one carrier frame completes on each subcarrier and polarisation: payload symbols run on through 512
frames in blocks of 512 (R195). -/
def blocksInFrame (k frame : Nat) : Nat :=
  let n := 131072 / k - 64 - (2048 / k - 1)
  let f := frame % 512
  n * (f + 1) / 512 - n * f / 512

/-! ### Pre-compensation -/

/-- D_pre_max in ps/nm (R205). -/
def preMax (long : Bool) (mbd : Nat) : Nat :=
  let m := if long then 3584 else 768
  min 50000 (100 * (m * 10 ^ 17 / (986616 * mbd ^ 2 * 100)))

/-- TXS_PRE_LIMIT (R205). -/
def Dev.preLimit (d : Dev) (p : Port) : Nat := preMax (d.flag (pgTXS p) TXS.LONG_LIVE) (d.txBaud p)

/-- EN is live and |D| exceeds D_pre_max (R205). -/
def Dev.preOver (d : Dev) (p : Port) : Bool :=
  d.flag (pgTXS p) TXS.CD_PRE_EN &&
    decide (4 * d.preLimit p < (sOf 24 (d.get (pgTXS p) TXS.CD_PRE_D)).natAbs)

/-- The pre-compensation applied, 0.25 ps/nm (R204, R205). -/
def Dev.preApplied (d : Dev) (p : Port) : Int :=
  if d.flag (pgTXS p) TXS.CD_PRE_EN then
    let lim : Int := (4 * d.preLimit p : Nat)
    clampI (-lim) lim (sOf 24 (d.get (pgTXS p) TXS.CD_PRE_D))
  else 0

/-! ### What takes and frames do -/

/-- A flag follows a condition, with an event when it rises and one when it falls. -/
def Dev.follow (d : Dev) (pg : Nat) (f : Fld) (b : Bool) (up down : Option Nat) : Dev :=
  let was := d.flag pg f
  let d := d.putb pg f b
  let raise (o : Option Nat) (d : Dev) : Dev := match o with | none => d | some e => d.ev pg e
  if b && !was then raise up d else if !b && was then raise down d else d

/-- CONFLICT, PRE_CLAMP and the receive conflict follow the live configuration, with their events (R174, R194, R205). -/
def Dev.rateCheck (d : Dev) (p : Port) : Dev :=
  let d := d.follow (pgTXS p) TXS.STATUS_CONFLICT (d.txCfg p).conflict (some 0) (some 1)
  let d := d.follow (pgTXS p) TXS.STATUS_PRE_CLAMP (d.preOver p) (some 6) none
  d.follow (pgDMP p) DMP.STATUS_CONFLICT (d.rxCfg p).conflict (some 4) none

/-- TXS_TEST.PAT takes effect; 3 acts as 0.  With PAT = 2 sub-DAC attempts in progress are discarded (R211, R213). (DEDUCED: log 74) -/
def Dev.patApply (d : Dev) (p : Port) : Dev :=
  let pg := pgTXS p
  let v := d.get pg TXS.TEST_PAT
  let v := if v = 3 then 0 else v
  let was := d.get pg TXS.PAT_LIVE
  let d := (d.put pg TXS.PAT_LIVE v).putb pg TXS.STATUS_TEST (v != 0)
  let d := d.when (v != 0 && v != was) (·.ev pg 7)
  let d := d.when (v != was) (·.put pg TXS.TONE_AT 0)
  d.when (v == 2) fun d => d.convUpd p fun c => { c with dacMeas := [] }

/-- A carrier frame sent on a lane clipped `n` samples (R207). -/
def Dev.clipLane (d : Dev) (p : Port) (lane n : Nat) : Dev :=
  let d := d.bump (pgTXS p) (TXS.CLIP.at lane) n
  d.when (decide (d.get (pgTXS p) TXS.CLIP_CTL_THR < n)) (·.ev (pgTXS p) (2 + lane))

/-- The transmit subcarrier count. -/
def Dev.txK (d : Dev) (p : Port) : Nat := kOf (d.get (pgTXS p) TXS.SC_CTL_NSC)

/-- A carrier frame is sent: matcher blocks and conflict frames (R194, R195, R214). -/
def Dev.txsFrame (d : Dev) (p : Port) (frame : Nat) : Dev :=
  let pg := pgTXS p
  if d.flag pg TXS.STATUS_CONFLICT then d.bump pg TXS.CONFLICT_FRAMES 1
  else if d.get pg TXS.PAT_LIVE = 0 then d.bump pg TXS.BLOCKS (2 * d.txK p * blocksInFrame (d.txK p) frame)
  else d

/-- A word of the predistortion tables as sample n of the frame met it: what it was before the first write after that sample, `writes`
holding how many samples of the frame had gone at each (R210). -/
def Dev.pdWord (d : Dev) (p : Port) (writes : List Nat) (n i : Nat) : Nat :=
  let old := ((d.conv.get p).pdOld.zip writes).filterMap fun e => if n < e.2 then AMap.find? e.1 i else none
  old.headD (d.get (pgTXS p) (TXS.PD_ENTRY.at i))

/-- The output code of a lane for the clipped input code of sample n of a frame, from −128 to 127 (R209, R210). -/
def Dev.pdOut (d : Dev) (p : Port) (lane : Fin 4) (writes : List Nat) (n : Nat) (c : Int) : Int :=
  if d.flag (pgTXS p) (TXS.LANE_PD_EN.at lane.val) then
    let i := (c + 128).toNat
    sOf 8 (bitsOf (d.pdWord p writes n (64 * lane.val + i / 4)) (8 * (i % 4)) 8)
  else c

/-- Words of the predistortion tables are about to change: while frames are sent, the samples before still meet the old ones (R210). (DEDUCED: log 277) -/
def Dev.pdNote (d : Dev) (p : Port) (l : List Nat) : Dev :=
  d.when (d.txRun p) (·.convUpd p fun c =>
    { c with pdOld := c.pdOld ++ [l.map fun i => (i, d.get (pgTXS p) (TXS.PD_ENTRY.at i))] })

/-- TXS_PD_WRITE: the four entries of the word change together (R210). -/
def pdWrite (p : Port) (i : Nat) (w : Word) (d : Dev) : Dev :=
  d.hostLine p fun d => (d.pdNote p [i]).putW (pgTXS p) (TXS.PD_ENTRY.at i) w

/-- A write of TXS_TEST: PAT takes effect at once while the transmit counter does not run (R211). -/
def testWrite (p : Port) (w : Word) (d : Dev) : Dev := d.hostLine p fun d =>
  (d.putWs (pgTXS p) [TXS.TEST_PAT, TXS.TEST_TONE] w).when (!d.txRun p) (·.patApply p)

def execTxsPdWrite (p : Port) (i : Fin 256) (w : Word) (s : State) : Host.Outcome State Fault Refusal :=
  s.run (pdWrite p i.val w)

end Sys2Proof.Machine
end

