-- ==== Sys2Proof/Machine/Fec.lean ====
section
/-! DEFINITION.  Forward error correction: the codes, the statistics and the encoder's controls (R216–R243), and the monitor
latch (R178–R180). -/

namespace Sys2Proof.Machine

/-! ### Model fields -/

/-- Carrier frames of the monitor window gone by (R178). -/
def DMP.WIN_FRAMES : Fld := hid 0 21 0
/-- The index of the received carrier frame under way, from the anchor's headers; 4,096 while none is known (R223). -/
def LFR.FRAME_POS : Fld := hid 32 13 4096
/-- Within the monitor window: coded bits corrected, coded bits in converged codewords, iterations, codewords, and
uncorrectable units (R239). -/
def FEC.WIN_CORR : Fld := hid 4 64 0
def FEC.WIN_BITS : Fld := hid 8 64 0
def FEC.WIN_ITERS : Fld := hid 12 64 0
def FEC.WIN_CWS : Fld := hid 16 64 0
def FEC.WIN_UNC : Fld := hid 20 64 0
/-- Sign bits changed and decoded in corrected codewords of the window, by subcarrier (R179). -/
def FEC.WIN_SIGN_CHG : Fld := ⟨0x1040, 0, 64, .ro, 0, 4, 8, false⟩
def FEC.WIN_SIGN : Fld := ⟨0x1080, 0, 64, .ro, 0, 4, 8, false⟩
/-- BIP-16 mismatches within the monitor window (R278). -/
def LFR.WIN_SBIP : Fld := hid 0 48 0

/-! ### The codes -/

/-- A code of the family of R217: block size Z, base rows m, information columns kb, and the greatest magnitudes of a check's message
and of a posterior in its decoder. -/
structure Ldpc where
  z : Nat
  m : Nat
  kb : Nat
  msgMax : Nat
  postMax : Nat
deriving DecidableEq, Repr

/-- The inner code of a profile (R217, R226). -/
def innerCode (trestle : Bool) : Ldpc := if trestle then ⟨96, 12, 52, 63, 127⟩ else ⟨96, 8, 56, 63, 127⟩

/-- The shift of a base entry, none for a zero entry (R217). -/
def Ldpc.shift (l : Ldpc) (r c : Nat) : Option Nat :=
  if c < l.kb then
    let q := c / l.m
    let r1 := c % l.m
    if r = r1 ∨ r = (r1 + 1 + q) % l.m ∨ r = (r1 + 1 + (q + 3) % (l.m - 1)) % l.m then
      some (((r + 1) * (c * c + 5 * c + 3) + 7 * r) % l.z)
    else none
  else if c = l.kb then
    if r = 0 ∨ r = l.m - 1 then some 1 else if r = l.m / 2 then some 0 else none
  else
    let t := c - l.kb
    if r = t - 1 ∨ r = t then some 0 else none

/-- Base columns. -/
def Ldpc.cols (l : Ldpc) : Nat := l.kb + l.m

/-- The parity check of row Z r + i over a codeword's bits (R217, R218, R227). -/
def Ldpc.checkRow (l : Ldpc) (bit : Nat → Bool) (r i : Nat) : Bool :=
  (List.range l.cols).foldl (fun a c =>
    match l.shift r c with
    | none => a
    | some s => a != bit (l.z * c + (i + s) % l.z)) false

/-- A zero syndrome (R227). -/
def Ldpc.zeroSyndrome (l : Ldpc) (bit : Nat → Bool) : Bool :=
  (List.range l.m).all fun r => (List.range l.z).all fun i => !l.checkRow bit r i

/-- Where bit b of outer codeword o stands: inner codeword and information bit (R220). -/
def outerPlace (o b : Nat) : Nat × Nat := ((b + o) % 8, 24 * (b / 8) + o)

/-- FLOOR of the Girder decoder (R228): the smaller of MAX_ITER and the capacity of 8,437.5 codeword-iterations per µs
over the codeword rate; 4 in Trestle. -/
def Dev.fecFloor (d : Dev) (p : Port) : Nat :=
  let c := d.rxCfg p
  if c.trestle then 4
  else min (clampN 1 16 (d.get (pgFEC p) FEC.CTL_MAX_ITER)) (84375 * 6144 / (c.netRate * codedFactor false * 100))

/-- The port sends its carrier frames: outside a retune of the transmit converters, where frames are counted but not sent, and
outside test pattern 2, which replaces the whole signal (R87, R211). -/
def Dev.framesSent (d : Dev) (p : Port) : Bool := !d.flag (pgDAC p) DAC.RETUNE && d.get (pgTXS p) TXS.PAT_LIVE != 2

/-- The encoder sends units: the framer runs and its frames are sent, and payload is neither replaced in a conflict nor by a test
signal (R87, R194, R211, R241). -/
def Dev.encActive (d : Dev) (p : Port) : Bool :=
  d.txRun p && !d.flag (pgTXS p) TXS.STATUS_CONFLICT && d.get (pgTXS p) TXS.PAT_LIVE == 0 && !d.flag (pgDAC p) DAC.RETUNE

/-- Injection acts (R240, R241). -/
def Dev.injActive (d : Dev) (p : Port) : Bool := d.flag (pgFEC p) FEC.INJ_EN && d.encActive p

/-! ### The decoder -/

/-- The bit layer of a port changed. -/
def Dev.fecUpd (d : Dev) (p : Port) (f : FecState → FecState) : Dev := { d with fec := d.fec.upd p f }

/-- The complete units at the head of the pool: Trestle codewords, and Girder groups to their eighth codeword (R223, R241). -/
def wholeUnits (l : List Codeword) : List Codeword := (l.reverse.dropWhile fun c => !c.trestle && c.word != 7).reverse

/-- What the decoder has when it stops: complete units stay and are released, what is incomplete is discarded without counting
(R223, R241). -/
def FecState.stopped (f : FecState) : FecState :=
  let l := wholeUnits f.pool
  { f with fill := none, rxAt := 0, pool := l, words := if l.isEmpty then [] else f.words }

/-- The anchor loses lock: the decoder stops (R223, R243). -/
def Dev.decStop (d : Dev) (p : Port) : Dev :=
  let d := (d.putb (pgDMP p) DMP.STATUS_ACTIVE false).putb (pgFEC p) FEC.STATUS_HOLD false
  d.when (d.flag (pgFEC p) FEC.STATUS_DEC_ACTIVE) fun d =>
    ((d.putb (pgFEC p) FEC.STATUS_DEC_ACTIVE false).fecUpd p FecState.stopped).ev (pgFEC p) 7

/-- A receive take changed the profile: outputs are held or paused (R236, R237, R243). -/
def Dev.rxProfileTake (d : Dev) (p : Port) : Dev :=
  (d.when (d.flag (pgFEC p) FEC.STATUS_DEC_ACTIVE) (·.putb (pgFEC p) FEC.STATUS_HOLD true)).ev (pgFEC p) 5

/-- Codeword buffers occupied: from the first input of a codeword to its release (R230, R242). (DEDUCED: log 70) -/
def Dev.poolOcc (d : Dev) (p : Port) : Nat :=
  let f := d.fec.get p
  f.pool.length + (if f.fill.isSome then 1 else 0) + f.held.length

/-- The highest occupancy follows (R242). -/
def Dev.poolPeak (d : Dev) (p : Port) : Dev :=
  d.put (pgFEC p) FEC.POOL_PEAK (max (d.poolOcc p) (d.get (pgFEC p) FEC.POOL_PEAK))

/-- An uncorrectable unit that began in a receive frame (R239, R242). (DEDUCED: log 234) -/
def Dev.uncUnit (d : Dev) (p : Port) (frame word : Nat) : Dev :=
  let pg := pgFEC p
  ((d.put pg FEC.LAST_UNC_FRAME frame).put pg FEC.LAST_UNC_WORD word).bump pg FEC.WIN_UNC 1

/-- The counts of an inner codeword of either profile (R179, R239). -/
def Dev.innerCount (d : Dev) (p : Port) (conv : Bool) (bin iters : Nat) (corr : List (Nat × Nat))
    (sign : List (Nat × Nat × Nat)) : Dev :=
  let pg := pgFEC p
  let d := ((((d.bump pg FEC.INNER_CW 1).bump pg FEC.BITS 6144).bump pg FEC.WIN_CWS 1).bump pg FEC.WIN_ITERS iters).bump pg
    (FEC.ITER_HIST.at (if conv then bin else 17)) 1
  if conv then
    let d := corr.foldl (fun d x => (d.bump pg (FEC.CORR.at x.1) x.2).bump pg FEC.WIN_CORR x.2) (d.bump pg FEC.WIN_BITS 6144)
    sign.foldl (fun d x => (d.bump pg (FEC.WIN_SIGN_CHG.at x.1) x.2.1).bump pg (FEC.WIN_SIGN.at x.1) x.2.2) d
  else d

/-- The counts of the outer decoding of a complete group: the bits corrected in each word, none for an uncorrectable one (R231,
R239). -/
def Dev.outerCount (d : Dev) (p : Port) (frame : Nat) (l : List (Option Nat)) : Dev :=
  let pg := pgFEC p
  (List.range l.length).foldl (fun d i =>
    let d := d.bump pg FEC.OUTER_CW 1
    match l.getD i none with
    | some n => d.bump pg FEC.OUTER_CORR n
    | none => ((d.bump pg FEC.OUTER_UNC 1).uncUnit p frame i).ev pg 1) d

/-- PEAK_CLR clears PEAK (R242); from then on it follows the occupancy. -/
def peakClrDo (p : Port) (d : Dev) : Dev := d.hostLine p (·.put (pgFEC p) FEC.POOL_PEAK 0)

/-- A host write of FEC_INJ; INJ_ON when EN becomes 1 (R240, R243). (DEDUCED: log 75) -/
def injWrite (p : Port) (w : Word) (d : Dev) : Dev := d.hostLine p fun d =>
  let was := d.flag (pgFEC p) FEC.INJ_EN
  let d := d.putWs (pgFEC p) [FEC.INJ_NBIT, FEC.INJ_EVERY, FEC.INJ_EN] w
  let d := d.when (!d.flag (pgFEC p) FEC.INJ_EN) (·.fecUpd p fun f => { f with injAt := none })
  d.when (!was && d.flag (pgFEC p) FEC.INJ_EN) (·.ev (pgFEC p) 8)

/-! ### The monitor latch -/

/-- Fixed-point scale of `pow10`. -/
def pwOne : Nat := 2 ^ 400

/-- 10^(1/2,000) in fixed point. -/
def pwRoot : Nat :=
  2585224515134906711422943570485992056886823946080930199145039514225173097288860163905664508772059270679529143730991691792

/-- 10^(m/2,000) in fixed point. -/
def pow10 (m : Nat) : Nat :=
  ((List.range 17).foldl (fun (st : Nat × Nat) i =>
    (if bitOf m i then st.1 * st.2 / pwOne else st.1, st.2 * st.2 / pwOne)) (pwOne, pwRoot)).1

/-- The estimated OSNR in 0.01 dB, to the nearest unit: SNR in 0.01 dB, SNR_TRX in 0.1 dB; 0xFFFF when SNR is not below
SNR_TRX (R180). (DEDUCED: log 66) -/
def osnr (snr trx mbd : Nat) : Nat :=
  if 10 * trx ≤ snr then 0xFFFF
  else
    let den := pwOne * pwOne / pow10 (2 * snr) - pwOne * pwOne / pow10 (20 * trx)
    let fits (n : Nat) : Bool := decide (n < 0xFFFF) && decide (pow10 (2 * n - 1) * den * 12500 ≤ mbd * pwOne * pwOne)
    (List.range 16).foldl (fun n i => let c := n + 2 ^ (15 - i); if fits c then c else n) 0

/-- A ratio in units of 2^-32; with nothing counted the spec states no value and it is a free one (R179, R239). -/
def Dev.ratio32 (d : Dev) (num den : Nat) : Nat × Dev :=
  if den = 0 then (d.free, d.used) else (satN 32 (num * 2 ^ 32 / den), d)

/-- The latch of one subcarrier (R178–R180, R188). (DEDUCED: log 65) (DEDUCED: log 67) -/
def Dev.monSub (d : Dev) (p : Port) (s : Fin 8) (m : Mon) : Dev :=
  let pg := pgSUBC p s
  let f := pgFEC p
  let d := (d.put pg SUBC.MON_SNR_SNR m.snr.toNat).put pg SUBC.MON_OSNR_OSNR
    (osnr m.snr.toNat (d.get (pgDMP p) DMP.SNR_TRX_SNR) (d.rxBaud p))
  let d := d.put pg SUBC.MON_FO_FO (sTo 24 (sOf 24 (d.get (pgCRV p) CRV.FO_TOTAL_FO) + m.fo))
  let d := d.put pg SUBC.MON_CD_CD (sTo 24 (sOf 24 (d.get (pgCDC p) CDC.APPLIED_D) + m.cd))
  let d := (d.put pg SUBC.MON_DGD_DGD m.dgd.toNat).put pg SUBC.MON_SOP_RATE m.sop.toNat
  let r := d.ratio32 (d.get f (FEC.WIN_SIGN_CHG.at s.val)) (d.get f (FEC.WIN_SIGN.at s.val))
  let d := (r.2.put pg SUBC.MON_BER_FEC_BER r.1).put pg SUBC.MON_BER_PILOT_BER m.berPilot.toNat
  let d := ((d.put pg SUBC.CR_STAT_PH_ERR m.phErr.toNat).put pg SUBC.EQ_STAT_PDL m.pdl.toNat).put pg SUBC.EQ_STAT_MSE m.mse.toNat
  let thr := d.get (pgDMP p) DMP.SNR_THR_SNR
  let d := d.when (decide (d.get (pgDMP p) DMP.BER_THR_BER < d.get pg SUBC.MON_BER_FEC_BER)) (·.ev (pgDMP p) 1)
  let d := d.when (decide (m.snr.toNat < 10 * thr)) (·.ev (pgDMP p) 2)
  let k := 8 * (s.val % 4)
  let fl := if s.val < 4 then DMP.SCALE_LIVE_LO_S else DMP.SCALE_LIVE_HI_S
  let sc := max 1 m.scale.toNat
  let old := d.get (pgDMP p) fl
  d.when (d.flag (pgDMP p) DMP.CTL_SCALE_AUTO) (·.put (pgDMP p) fl (old - bitsOf old k 8 * 2 ^ k + sc * 2 ^ k))

/-- The ends of the window on every subcarrier: sequence, validity, slips (R178, R188). -/
def Dev.monSeq (d : Dev) (p : Port) (valid : Bool) : Dev :=
  (List.finRange 8).foldl (fun d (s : Fin 8) =>
    let pg := pgSUBC p s
    let d := d.bump pg SUBC.MON_SEQ_SEQ 1
    let d := d.putb pg SUBC.STATUS_MON_VALID (valid && d.flag pg SUBC.WIN_LOCKED)
    let d := (d.put pg SUBC.CR_STAT_SLIPS (d.get pg SUBC.WIN_SLIPS)).put pg SUBC.WIN_SLIPS 0
    d.put pg SUBC.WIN_LOCKED (d.get pg SUBC.STATUS_CR_LOCK)) d

/-- The FEC statistics of the window (R239, R243). (DEDUCED: log 68) (DEDUCED: log 271) -/
def Dev.fecLatch (d : Dev) (p : Port) : Dev :=
  let pg := pgFEC p
  let d := d.bump pg FEC.MON_SEQ_SEQ 1
  let r := d.ratio32 (d.get pg FEC.WIN_CORR) (d.get pg FEC.WIN_BITS)
  let d := r.2.put pg FEC.BER_PRE_BER r.1
  let n := d.get pg FEC.WIN_CWS
  let d := if n = 0 then (d.put pg FEC.MEAN_ITER_MEAN d.free).used
    else d.put pg FEC.MEAN_ITER_MEAN (satN 12 (d.get pg FEC.WIN_ITERS * 256 / n))
  let d := d.when (decide (d.get pg FEC.UNC_THR_THR < d.get pg FEC.WIN_UNC)) (·.ev pg 2)
  let lim := if d.rxTrestle p then 11 else 20
  let d := d.when (decide (lim * 2 ^ 32 < d.get pg FEC.BER_PRE_BER * 1000)) (·.ev pg 4)
  let d := [FEC.WIN_CORR, FEC.WIN_BITS, FEC.WIN_ITERS, FEC.WIN_CWS, FEC.WIN_UNC].foldl (fun d f => d.put pg f 0) d
  (List.range 8).foldl (fun d i => (d.put pg (FEC.WIN_SIGN_CHG.at i) 0).put pg (FEC.WIN_SIGN.at i) 0) d

/-- The port-wide ends of the window: MON_LATCH, SLIP_RATE, SBIP_RATE (R178, R184, R187, R278, R279). -/
def Dev.portLatch (d : Dev) (p : Port) : Dev :=
  let d := (d.bump (pgDMP p) DMP.MON_SEQ_SEQ 1).ev (pgDMP p) 0
  let d := d.when (decide (2 ^ d.get (pgCRV p) CRV.CTL_SLIP_THR < d.get (pgCRV p) CRV.WIN_SLIPS)) (·.ev (pgCRV p) 6)
  let d := d.put (pgCRV p) CRV.WIN_SLIPS 0
  let d := d.when (decide (d.get (pgLFR p) LFR.SBIP_THR_THR < d.get (pgLFR p) LFR.WIN_SBIP)) (·.ev (pgLFR p) 16)
  d.put (pgLFR p) LFR.WIN_SBIP 0

/-- The LLR statistics of the window: the histogram, and SCALE_CLAMP when more than 1 % of the L6 values were clamped (R186,
R187). -/
def Dev.llrLatch (d : Dev) (p : Port) : Dev :=
  let f := d.fec.get p
  let d := (List.range 16).foldl (fun d i => d.put (pgDMP p) (DMP.LLR_HIST_COUNT.at i) (satN 32 (FMap.get f.hist i))) d
  let d := d.when (decide (f.l6 < 100 * f.clamped)) (·.ev (pgDMP p) 3)
  d.fecUpd p fun f => { f with hist := [], l6 := 0, clamped := 0 }

/-- The frames of a monitor window (R178, R186). -/
def Dev.monWindow (d : Dev) (p : Port) : Nat := 2 ^ clampN 4 20 (d.get (pgDMP p) DMP.MON_CTL_WIN)

/-- A received carrier frame passes for the monitors (R178). -/
def Dev.monFrame (d : Dev) (p : Port) : Dev := d.bumpSat (pgDMP p) DMP.WIN_FRAMES 1

/-- MON_LATCH, once the window's frames have gone by (R178, R187, R239). -/
def monLatchDo (p : Port) (m : List (Fin 8 × Mon)) (d : Dev) : Dev := d.lineDo p fun d =>
  if d.get (pgDMP p) DMP.WIN_FRAMES < d.monWindow p then d
  else
    let d := d.put (pgDMP p) DMP.WIN_FRAMES 0
    let d := m.foldl (fun d x => if x.1.val < d.rxK p then d.monSub p x.1 x.2 else d) d
    (((d.llrLatch p).monSeq p true).fecLatch p).portLatch p

/-- A receive commit changing symbol rate or K: every monitor latches with MON_VALID = 0; what the cut window gives is not
stated, so the values are free (R183). (DEDUCED: log 69) -/
def Dev.monAbort (d : Dev) (p : Port) : Dev :=
  let fs := [SUBC.MON_SNR_SNR, SUBC.MON_OSNR_OSNR, SUBC.MON_FO_FO, SUBC.MON_CD_CD, SUBC.MON_DGD_DGD, SUBC.MON_SOP_RATE, SUBC.MON_BER_FEC_BER,
    SUBC.MON_BER_PILOT_BER, SUBC.CR_STAT_PH_ERR]
  let d := (List.finRange 8).foldl (fun d (s : Fin 8) =>
    fs.foldl (fun d f => (d.put (pgSUBC p s) f d.free).used) d) d
  ((((d.put (pgDMP p) DMP.WIN_FRAMES 0).llrLatch p).monSeq p false).fecLatch p).portLatch p

/-- The scale with SCALE_AUTO = 0, from the take (R176, R183). -/
def Dev.scaleTake (d : Dev) (p : Port) : Dev :=
  let pg := pgDMP p
  d.when (!d.flag pg DMP.CTL_SCALE_AUTO) fun d =>
    let v := max 1 (d.get pg DMP.CTL_SCALE) * 0x01010101
    (d.put pg DMP.SCALE_LIVE_LO_S v).put pg DMP.SCALE_LIVE_HI_S v

/-! ### The commands -/

def execPeakClr (p : Port) (s : State) : Host.Outcome State Fault Refusal := s.run (peakClrDo p)

/-- INJ_ON: a write of FEC_INJ whose EN bit is 1. -/
def execInjOn (p : Port) (w : Word) (s : State) : Host.Outcome State Fault Refusal :=
  s.run (injWrite p (w ||| 0x80000000#32))

def execMonLatch (p : Port) (m : List (Fin 8 × Mon)) (s : State) : Host.Outcome State Fault Refusal := s.run (monLatchDo p m)

end Sys2Proof.Machine
end

