-- ==== Sys2Proof/Machine/Datapath.lean ====
section
/-! DEFINITION.  The data path as functions: what the rules compute of samples, symbols and bits that no command carries
one by one (headers, pilots, matcher blocks, the codes and their decoding, scrambling, decks).  Bits are lists, first sent
first. -/

namespace Sys2Proof.Machine

/-- The `n` bits of a value, most significant first. -/
def bitsMsb (n v : Nat) : List Bool := (List.range n).map fun i => v.testBit (n - 1 - i)

/-- The value of bits, most significant first. -/
def ofBits (l : List Bool) : Nat := l.foldl (fun a b => 2 * a + b2n b) 0

/-- Bit by bit sum over GF(2). -/
def xorBits (a b : List Bool) : List Bool := List.zipWith (· != ·) a b

/-- The pseudorandom sequence of x^a + x^b + 1: each bit is the sum of those `a` and `b` places before it, and the first
`a` bits are those of the seed, most significant first (R168, R211, R247, R260). (PRESUMED: log 77) -/
def prbs (a b : Nat) : Nat → Nat → List Bool
  | 0, _ => []
  | n + 1, r => r.testBit (a - 1) :: prbs a b n ((2 * r + b2n (r.testBit (a - 1) != r.testBit (b - 1))) % 2 ^ a)

/-! ### Samples and symbols -/

/-- The PAM-4 level of two bits on a hanger port (R421). -/
def pam4 : Bool → Bool → Int
  | false, false => -3
  | false, true => -1
  | true, true => 1
  | true, false => 3

/-- A QPSK level: 0 is positive (R168, R245). -/
def qpskLevel (b : Bool) : Int := if b then -1 else 1

/-- Symbols of a subframe per polarisation (R244). -/
def subframeSymbols (k : Nat) : Nat := 131072 / k

/-- A symbol index that carries a pilot (R168). -/
def isPilot (i : Nat) : Bool := decide (64 ≤ i) && i % 64 == 0

/-- The payload symbol indices of a subframe, in order (R195, R244). -/
def payloadSymbols (k : Nat) : List Nat := (List.range (subframeSymbols k)).filter fun i => decide (64 ≤ i) && !isPilot i

/-- The pilots of subcarrier `s` and polarisation `pol` (0 X, 1 Y): the I and Q levels, first pilot first (R168). -/
def pilots (k s pol : Nat) : List (Int × Int) :=
  let n := 2048 / k - 1
  let b := prbs 15 14 (2 * n) (1 + 2 * s + pol)
  (List.range n).map fun i => (qpskLevel (b.getD (2 * i) false), qpskLevel (b.getD (2 * i + 1) false))

/-! ### Subframe headers (R245–R247) -/

/-- The sync words of the anchor (R247). -/
def syncX : Nat := 0xB3C41F7A92E5

/-- The sync word of the Y polarisation (R247). -/
def syncY : Nat := 0x6D18E4A35C2F

/-- The training bits of a subcarrier on a polarisation: 64 of the 128, with the sync word on the anchor (R245, R247). -/
def trainingBits (s pol : Nat) : List Bool :=
  let t := (prbs 15 14 128 (0x5A00 + s)).drop (64 * pol)
  if s = 0 then bitsMsb 48 (if pol = 0 then syncX else syncY) ++ (t.take 64).drop 48 else t.take 64

/-- The header field of a subframe (R246). -/
def headerField (frame span sc mode : Nat) : Nat :=
  frame % 2 ^ 12 * 2 ^ 36 + span % 2 ^ 16 * 2 ^ 20 + sc % 16 * 2 ^ 16 + mode % 16 * 2 ^ 12

/-- The header field followed by its CRC-16 (R245, R246). -/
def headerWord (frame span sc mode : Nat) : Nat :=
  let h := headerField frame span sc mode
  h * 2 ^ 16 + crc16 (beBytes 6 h)

/-- What the receiver reads from a header field and CRC: nothing when the CRC fails (R246). -/
def headerRead (w : Nat) : Option LineHdr :=
  if crc16 (beBytes 6 (w / 2 ^ 16)) = w % 2 ^ 16 then
    some ⟨BitVec.ofNat _ (bitsOf w 52 12), BitVec.ofNat _ (bitsOf w 36 16), BitVec.ofNat _ (bitsOf w 32 4), BitVec.ofNat _ (bitsOf w 28 4)⟩
  else none

/-- The section overhead carriage: BIP-16, BEI, BDI and five SCC bytes (R251). -/
def sohWord (bip bei : Nat) (bdi : Bool) (scc : List Nat) : Nat :=
  bip % 2 ^ 16 * 2 ^ 48 + bei % 32 * 2 ^ 43 + b2n bdi * 2 ^ 42 + beVal (scc.take 5)

/-- The 128 bits of a header on the X and on the Y polarisation, symbol by symbol, I before Q (R245). -/
def headerBits (frame span sc mode soh : Nat) : List Bool × List Bool :=
  (trainingBits sc 0 ++ bitsMsb 64 (headerWord frame span sc mode), trainingBits sc 1 ++ bitsMsb 64 soh)

/-- The section BIP-16 of a frame's bits (R253). -/
def bip16 (l : List Bool) : Nat :=
  (List.range 16).foldl (fun a i =>
    a + b2n ((List.range (l.length / 16 + 1)).foldl (fun x n => x != l.getD (16 * n + i) false) false) * 2 ^ i) 0

/-! ### Distribution matching and symbol mapping (R195–R199) -/

/-- The amplitudes and signs of a PCS block of `2 e` bits, as I and Q of its 512 symbols (R195, R196). -/
def pcsBlock (e : Nat) (bits : List Bool) : List (Int × Int) :=
  let k := matcherK e
  let a := unrank 1024 (composition e) (ofBits (bits.take k))
  let v (i : Nat) : Int := qpskLevel (bits.getD (k + i) false) * (2 * a.getD i 0 + 1 : Nat)
  (List.range 512).map fun i => (v (2 * i), v (2 * i + 1))

/-- The symbols of an HQPSK block: first the BPSK ones, then the QPSK ones (R198). -/
def hqpskBlock (e : Nat) (bits : List Bool) : List (Int × Int) :=
  let nb := 2 * (512 - e)
  (List.range 512).map fun i =>
    if i < nb then (qpskLevel (bits.getD i false), qpskLevel (bits.getD i false))
    else (qpskLevel (bits.getD (nb + 2 * (i - nb)) false), qpskLevel (bits.getD (nb + 2 * (i - nb) + 1) false))

/-- The block of a format by entropy (R193). -/
def matcherBlock (e : Nat) (bits : List Bool) : List (Int × Int) := if formatOf e = 0 then hqpskBlock e bits else pcsBlock e bits

/-- The label of a real level: sign, then the Gray label of its amplitude in `w` bits (R199). -/
def levelLabel (w : Nat) (v : Int) : List Bool := decide (v < 0) :: bitsMsb w (grayLabel ((v.natAbs - 1) / 2))

/-- The max-log LLR of a label bit over the points of a dimension: best log probability with the bit 0 less the best with
the bit 1, in the unit of the measure given (R175). -/
def maxLog (points : List (List Bool × Int)) (bit : Nat) : Int :=
  let best (v : Bool) : Option Int := (points.filter fun x => x.1.getD bit false == v).foldl (fun m x =>
    match m with
    | none => some x.2
    | some y => some (max y x.2)) none
  (best false).getD 0 - (best true).getD 0

/-! ### Encoding (R216–R222, R260) -/

/-- Rotation of a block of bits to the left (R217). -/
def rotBits (n : Nat) (l : List Bool) : List Bool := l.drop n ++ l.take n

/-- The contribution of the information columns to the checks of a base row (R217). -/
def Ldpc.infoSum (l : Ldpc) (blocks : List (List Bool)) (r : Nat) : List Bool :=
  (List.range l.kb).foldl (fun a c =>
    match l.shift r c with
    | none => a
    | some n => xorBits a (rotBits n (blocks.getD c []))) (List.replicate l.z false)

/-- The parity blocks of a codeword, each from the check of the row above it; the first is the sum of all rows, in
which every other parity column cancels (R217, R218). -/
def Ldpc.parityBlocks (l : Ldpc) (blocks : List (List Bool)) : List (List Bool) :=
  let sums := (List.range l.m).map (l.infoSum blocks)
  let p0 := sums.foldl xorBits (List.replicate l.z false)
  let step (st : List (List Bool) × List Bool) (t : Nat) : List (List Bool) × List Bool :=
    let own := xorBits (sums.getD t []) (if t = 0 then rotBits 1 p0 else if t = l.m / 2 then xorBits st.2 p0 else st.2)
    (st.1 ++ [own], own)
  p0 :: ((List.range (l.m - 1)).foldl step ([], [])).1

/-- Blocks of Z bits. -/
def Ldpc.blocksOf (l : Ldpc) (bits : List Bool) : List (List Bool) := (List.range l.kb).map fun c => (bits.drop (l.z * c)).take l.z

/-- The coded bits of the information bits: systematic (R218). -/
def Ldpc.encode (l : Ldpc) (info : List Bool) : List Bool :=
  let b := l.blocksOf info
  (b ++ l.parityBlocks b).flatten

/-- The 6,144 bits of an inner codeword (R218). -/
def innerEncode (trestle : Bool) (info : List Bool) : List Bool := (innerCode trestle).encode info

/-- Multiplication in GF(2^11) with x^11 + x^2 + 1 (R219). -/
def gfMul (a b : Nat) : Nat :=
  (List.range 11).foldl (fun r i =>
    let r := if r.testBit 10 then (2 * r) ^^^ 0x805 else 2 * r
    if b.testBit (10 - i) then r ^^^ a else r) 0

/-- Powers of the primitive element (R219). -/
def gfPow : Nat → Nat
  | 0 => 1
  | n + 1 => gfMul 2 (gfPow n)

/-- The minimal polynomial of α^i: the product of x + α^(i 2^k), as bits of a number (R219). -/
def minPoly (i : Nat) : Nat :=
  let poly := ((List.range 11).foldl (fun (st : List Nat × Nat) _ =>
    let shifted := 0 :: st.1
    let scaled := st.1.map (gfMul st.2) ++ [0]
    (List.zipWith (· ^^^ ·) shifted scaled, gfMul st.2 st.2)) ([1], gfPow i)).1
  (List.range 12).foldl (fun a k => a + poly.getD k 0 * 2 ^ k) 0

/-- Product of polynomials over GF(2). -/
def polyMul (a b : Nat) : Nat := (List.range 64).foldl (fun r i => if b.testBit i then r ^^^ (a * 2 ^ i) else r) 0

/-- The generator of the outer code (R219). -/
def outerGen : Nat := polyMul (polyMul (minPoly 1) (minPoly 3)) (minPoly 5)

/-- The remainder of a polynomial, given bit by bit from the top, by a polynomial of degree 33. -/
def polyRem (g : Nat) (l : List Bool) : Nat :=
  l.foldl (fun r b => let r := 2 * r + b2n b; if r.testBit 33 then r ^^^ g else r) 0

/-- The 1,792 bits of an outer codeword (R219). -/
def outerEncode (info : List Bool) : List Bool :=
  info ++ bitsMsb 33 (polyRem outerGen (info ++ List.replicate 33 false))

/-- Information bit `n` of inner codeword `w` of a group: the bit of the outer codeword that `outerPlace` puts there
(R220). -/
def groupBit (outer : List (List Bool)) (w n : Nat) : Bool :=
  (outer.getD (n % 24) []).getD (8 * (n / 24) + (w + 8 - n % 24 % 8) % 8) false

/-- The coded bits of a Girder group of 42,216 frame-stream bits (R216, R220). -/
def groupEncode (bits : List Bool) : List Bool :=
  let outer := (List.range 24).map fun o => outerEncode ((bits.drop (1759 * o)).take 1759)
  ((List.range 8).map fun w => innerEncode false ((List.range 5376).map (groupBit outer w))).flatten

/-- Frame-stream bits and coded bits of a unit (R216). -/
def unitBits (trestle : Bool) : Nat × Nat := if trestle then (4992, 6144) else (42216, 49152)

/-- The coded bits of a unit (R220, R221). -/
def unitEncode (trestle : Bool) (bits : List Bool) : List Bool :=
  if trestle then innerEncode true bits else groupEncode bits

/-- The coded-stream bits of a span: eight runs of 512 frames, whose payload symbols make whole blocks of 2 E bits each on
every subcarrier and polarisation (R195, R222). -/
def spanBits (k e : Nat) : Nat := 8 * (131072 / k - 64 - (2048 / k - 1)) * (2 * k) * (2 * e)

/-- Whole units of a span, and its decks (R222, R260). -/
def spanUnits (trestle : Bool) (k e : Nat) : Nat := spanBits k e / (unitBits trestle).2

/-- Whole decks of a span (R260). -/
def spanDecks (trestle : Bool) (k e : Nat) : Nat := spanUnits trestle k e * (unitBits trestle).1 / 65536

/-- The frame stream scrambled, or descrambled, from the start of a span (R260). -/
def scramble (l : List Bool) : List Bool := xorBits l (prbs 23 18 l.length (2 ^ 23 - 1))

/-! ### Decoding (R224–R227) -/

/-- Twice the sum of the reconstructions of the two sign LLRs of a BPSK bit, before it is compressed again (R224). -/
def bpskSum2 (a b : Nat) : Int :=
  let v (x : Nat) : Int := if 8 ≤ x then -(llrRecon2 (x % 8) : Int) else llrRecon2 x
  v a + v b

/-- Positions by received magnitude, largest first, ties to the lower position (R225). -/
def byMagnitude (mags : List Nat) : List Nat :=
  let place (p : Nat) (l : List Nat) : List Nat :=
    l.takeWhile (fun q => decide (mags.getD p 0 ≤ mags.getD q 0)) ++ p ::
      l.dropWhile (fun q => decide (mags.getD p 0 ≤ mags.getD q 0))
  (List.range mags.length).foldl (fun l p => place p l) []

/-- Amplitude indices in the order they are given out: the largest first, each as often as the composition holds it. -/
def largestFirst (comp : List Nat) : List Nat :=
  ((List.range comp.length).reverse.map fun i => List.replicate (comp.getD i 0) i).flatten

/-- The dematcher's decision: the amplitude index of each position (R225). -/
def dematch (comp mags : List Nat) : List Nat :=
  let order := byMagnitude mags
  let give := largestFirst comp
  (List.range mags.length).map fun p => give.getD (order.idxOf p) 0

/-- The 4-bit inputs of the rank bits of a block: the sign from the rank, the magnitude code from FEC_UREL, by agreement
with the demapper's own decisions (R224, R225). (DEDUCED: log 269) -/
def rankInputs (comp mags own : List Nat) (k agree disagree : Nat) : List Nat :=
  let dec := dematch comp mags
  let code := if dec == own then agree else disagree
  (bitsMsb k (rankOf comp dec)).map fun b => 8 * b2n b + code

/-- The coded bits that a check covers (R217). -/
def Ldpc.checkBits (l : Ldpc) (row : Nat) : List Nat :=
  (List.range l.cols).filterMap fun c => (l.shift (row / l.z) c).map fun n => l.z * c + (row % l.z + n) % l.z

/-- The check's message to its edge `j`: the product of the other signs, and the smallest other magnitude less the offset (R226).
In the inner codes messages are in units of 0.5 and saturate at 31.5; an edge's input is at most 95 in magnitude. -/
def Ldpc.checkMsg (l : Ldpc) (offset : Nat) (ins : List Int) (j : Nat) : Int :=
  let others := ins.eraseIdx j
  let mags := others.map Int.natAbs
  let mag := min l.msgMax (mags.foldl min (mags.headD 0) - offset)
  if (others.filter (· < 0)).length % 2 = 1 then -(mag : Int) else mag

/-- One check of a layer: posteriors and its messages before and after (R226). (DEDUCED: log 78) -/
def Ldpc.checkStep (l : Ldpc) (offset : Nat) (st : Array Int × Array (List Int)) (row : Nat) : Array Int × Array (List Int) :=
  let es := l.checkBits row
  let old := st.2.getD row []
  let ins := (List.range es.length).map fun j => st.1.getD (es.getD j 0) 0 - old.getD j 0
  let new := (List.range es.length).map (l.checkMsg offset ins)
  let lim : Int := l.postMax
  let post := (List.range es.length).foldl (fun (a : Array Int) j =>
    a.setIfInBounds (es.getD j 0) (clampI (-lim) lim (ins.getD j 0 + new.getD j 0))) st.1
  (post, st.2.setIfInBounds row new)

/-- One iteration visits the layers in order (R226). -/
def Ldpc.iterate (l : Ldpc) (offset : Nat) (st : Array Int × Array (List Int)) : Array Int × Array (List Int) :=
  (List.range (l.z * l.m)).foldl (l.checkStep offset) st

/-- The hard decisions have a zero syndrome (R227). -/
def Ldpc.syndromeZero (l : Ldpc) (post : Array Int) : Bool := l.zeroSyndrome fun b => decide (post.getD b 0 < 0)

/-- A decoder's state before its first iteration. -/
def Ldpc.start (l : Ldpc) (inputs : List Int) : Array Int × Array (List Int) :=
  (inputs.toArray, (List.replicate (l.z * l.m) ([] : List Int)).toArray)

/-- The decoder of an inner codeword, from `n` iterations left: in Girder it stops at a zero syndrome, in Trestle it runs
on and keeps the first iteration with one.  It answers the posteriors, the iterations run and that first iteration
(R226, R227). -/
def decodeFrom (trestle : Bool) (offset : Nat) :
    Nat → Nat → Option Nat → Array Int × Array (List Int) → Array Int × Nat × Option Nat
  | 0, done, first, st => (st.1, done, first)
  | n + 1, done, first, st =>
    if !trestle && first.isSome then (st.1, done, first)
    else
      let st := (innerCode trestle).iterate offset st
      let first := match first with
        | some f => some f
        | none => if (innerCode trestle).syndromeZero st.1 then some (done + 1) else none
      decodeFrom trestle offset n (done + 1) first st

/-- Decoding of the 6,144 inputs of an inner codeword (R226, R227). -/
def innerDecode (trestle : Bool) (offset maxIter : Nat) (inputs : List Nat) : Array Int × Nat × Option Nat :=
  let l := innerCode trestle
  let st := l.start (inputs.map fun x => if 8 ≤ x then -(llrRecon2 (x % 8) : Int) else (llrRecon2 x : Int))
  decodeFrom trestle offset (if trestle then 4 else maxIter) 0 (if l.syndromeZero st.1 then some 0 else none) st

/-! ### Hanger codewords (R421, R423, R425) -/

/-- The LDPC code of the hanger links; the spec limits no value of its decoder (R425). (DESIGN CHOICE: log 242) -/
def hangerCode : Ldpc := ⟨32, 8, 24, 2 ^ 64, 2 ^ 64⟩

/-- Ten iterations over a hanger codeword, with the syndrome tested after each: the information bits where it was first zero
(R425). -/
def hangerFrom : Nat → Option (List Bool) → Array Int × Array (List Int) → Option (List Bool)
  | 0, got, _ => got
  | n + 1, got, st =>
    let st := hangerCode.iterate 0 st
    let now := if hangerCode.syndromeZero st.1 then some ((List.range 768).map fun b => decide (st.1.getD b 0 < 0)) else none
    hangerFrom n (if got.isSome then got else now) st

/-- A hanger codeword decoded from soft values, positive for 0: its 768 information bits when it converges (R425). -/
def hangerDecode (inputs : List Int) : Option (List Bool) := hangerFrom 10 none (hangerCode.start inputs)

/-- The information bytes of the codewords of a packet, when all converge (R425, R426). -/
def hangerBytes (words : List (List Int)) : Option (List Nat) :=
  let l := words.map hangerDecode
  if l.all (·.isSome) then
    some (l.flatMap fun w => (List.range 96).map fun b => ofBits (((w.getD []).drop (8 * b)).take 8))
  else none

/-- The PAM-4 levels of bits, two to a symbol, first bit most significant (R421). -/
def pam4Symbols (l : List Bool) : List Int := (List.range (l.length / 2)).map fun i => pam4 (l.getD (2 * i) false) (l.getD (2 * i + 1) false)

/-- The symbols of a hanger packet: preamble of outer levels, header, codewords (R421, R423, R425). -/
def hangerSymbols (header : Nat) (payload : List Nat) : List Int :=
  let pre := (bitsMsb 64 0xE4B17C0A935D26F8).map fun b => if b then (3 : Int) else -3
  let words := (List.range (payload.length / 96)).map fun w =>
    hangerCode.encode (((payload.drop (96 * w)).take 96).flatMap fun v => bitsMsb 8 v)
  pre ++ pam4Symbols (bitsMsb 32 header) ++ words.flatMap pam4Symbols

/-! ### Decks (R261–R266) -/

/-- Slot and row of a deck byte (R261). -/
def deckPlace (b : Nat) : Nat × Nat := (b % 32, b / 32)

/-- The deck byte of data position `j` of a client with slots `s`, ascending (R263, R266). -/
def dataByte (s : List Nat) (j : Nat) : Nat := 32 * (4 + j / s.length) + s.getD (j % s.length) 0

/-- The deck byte of byte `i` of the overhead word (R263, R264). -/
def overheadByte (s : List Nat) (i : Nat) : Nat := 32 * i + s.headD 0

end Sys2Proof.Machine
end

