-- ==== Sys2Proof/Machine/Dsp.lean ====
section
/-! DEFINITION.  The receive and transmit signal chains as functions of samples and symbols, with the live registers that shape
them (R126–R128, R137, R142–R144, R161–R170, R190–R211).  Complex values are pairs of integers in a unit the docstring
names; what the spec gives no coefficients for is an opaque filter of Config. -/

namespace Sys2Proof.Machine

/-! ### Angles and complex values -/

/-- A complex value: real and imaginary part. -/
abbrev Cx := Int × Int

/-- Sum. -/
def Cx.add (a b : Cx) : Cx := (a.1 + b.1, a.2 + b.2)

/-- Product. -/
def Cx.mul (a b : Cx) : Cx := (a.1 * b.1 - a.2 * b.2, a.1 * b.2 + a.2 * b.1)

/-- Conjugate. -/
def Cx.conj (a : Cx) : Cx := (a.1, -a.2)

/-- Sum of a list. -/
def Cx.sum (l : List Cx) : Cx := l.foldl Cx.add (0, 0)

/-- π in units of 2^-128. -/
def piFx : Int := 1069028584064966747859680373161870783300

/-- The first `n` terms of the Taylor series with `t` the term at hand and x² given, in 2^-128. -/
def trigSeries (x2 : Int) : Nat → Nat → Int → Int
  | 0, _, _ => 0
  | n + 1, k, t => t + trigSeries x2 n (k + 2) (-(t * x2 / 2 ^ 128) / ((k + 1 : Int) * (k + 2)))

/-- The cosine and sine of `num`/`den` turns, in 2^-64: the series on the angle reduced to within half a turn. -/
def cosSin (num den : Int) : Cx :=
  let r := num % den
  let r := if den < 2 * r then r - den else r
  let x := 2 * piFx * r / den
  let x2 := x * x / 2 ^ 128
  (trigSeries x2 24 0 (2 ^ 128) / 2 ^ 64, trigSeries x2 24 1 x / 2 ^ 64)

/-- A value turned by `num`/`den` turns, in the value's unit times 2^-64. -/
def Cx.turn (a : Cx) (num den : Int) : Cx := Cx.mul a (cosSin num den)

/-- The integer nearest to a fraction, halves upward. -/
def nearest (num den : Int) : Int := (2 * num + den) / (2 * den)

/-! ### Dispersion compensation and subcarrier split (R126–R128) -/

/-- A lane sample after lane inversion (R120, R126). -/
def laneInv (inv lane : Nat) (v : Int) : Int := if bitOf inv lane then -v else v

/-- The streams X = lane 0 + j lane 1 and Y = lane 2 + j lane 3 of a port's four lane samples (R126). -/
def Dev.cdcStreams (d : Dev) (p : Port) (v : Fin 4 → Int) : Cx × Cx :=
  let x (i : Fin 4) : Int := laneInv (d.get (pgADC p) ADC.LANE_CTL_INV) i.val (v i)
  ((x 0, x 1), (x 2, x 3))

/-- The bin of an FFT index, counted from the carrier centre. -/
def binOf (n i : Nat) : Int := if 2 * i < n then i else (i : Int) - n

/-- The phase of H(f) = exp(−jπλ²Df²/c) at a bin in turns, as numerator and denominator: λ in 0.1 nm, D in 1/16 ps/nm, symbol
rate in MBd with 1.2 samples a symbol, `n` FFT points (R127). -/
def hTurns (lambda : Nat) (disp : Int) (mbd n : Nat) (bin : Int) : Int × Int :=
  (-(9 * (lambda : Int) ^ 2 * disp * (mbd : Int) ^ 2 * bin ^ 2), 2 * 299792458 * 10 ^ 13 * (n : Int) ^ 2)

/-- A frequency-domain coefficient in 12 bits: units of 2^-11, to the nearest, +1 held to 2,047 (R127). (DEDUCED: log 222) -/
def coef12 (v : Int) : Int := clampI (-2048) 2047 (nearest v (2 ^ 53))

/-- The coefficient of H(f) at a bin (R127). -/
def hCoef (lambda : Nat) (disp : Int) (mbd n : Nat) (bin : Int) : Cx :=
  let t := hTurns lambda disp mbd n bin
  let c := cosSin t.1 t.2
  (coef12 c.1, coef12 c.2)

/-- A carrier wavelength field as it acts, 0.1 nm (R153, R214). -/
def lambdaOf (w : Nat) : Nat := clampN 15240 15700 w

/-- The CDC's coefficient at FFT index `i`, for the dispersion and the wavelength of the set in the filter (R127, R132). -/
def Dev.cdcCoef (d : Dev) (p : Port) (i : Nat) : Cx :=
  let n := fftSize (d.rxTrestle p)
  hCoef (lambdaOf (d.get (pgCDC p) CDC.FILTER_LAMBDA)) (sOf 24 (d.get (pgCDC p) CDC.FILTER_D)) (d.rxBaud p) n (binOf n i)

/-- A block of the CDC in the frequency domain: the spectrum turned by the coarse rotation's whole bins and multiplied by the
coefficients, in 2^-11 (R127, R161, R164). -/
def Dev.cdcBlock (d : Dev) (p : Port) (spectrum : Nat → Cx) (i : Nat) : Cx :=
  let n : Int := (fftSize (d.rxTrestle p) : Nat)
  let k := (((i : Int) + sOf 16 (d.get (pgCRV p) CRV.FO_COARSE_BINS)) % n).toNat
  Cx.mul (spectrum k) (d.cdcCoef p i)

/-- The slots of the subcarriers (R128). -/
def slotOf (k s : Nat) : Nat :=
  (if k = 8 then [3, 4, 2, 5, 1, 6, 0, 7] else if k = 4 then [1, 2, 0, 3] else [0]).getD s 0

/-- A roll-off field as it acts, in hundredths (R153, R214). -/
def rolloffOf (w : Nat) : Nat := clampN 2 10 w

/-- The symbol rate of a subcarrier in Hz (R128). -/
def subcRate (mbd k : Nat) : Nat := mbd * 1000000 / k

/-- The spacing of adjacent subcarriers in Hz: (baud/K) × (1 + ρ) (R128). -/
def subcSpacing (mbd k rolloff : Nat) : Nat := mbd * (10000 / k) * (100 + rolloff)

/-- Twice the centre of subcarrier `s` from the carrier centre, in Hz (R128). -/
def subcCentre2 (mbd k rolloff s : Nat) : Int := (2 * (slotOf k s : Int) - (k - 1 : Int)) * (subcSpacing mbd k rolloff : Nat)

/-- Twice the centre of a received subcarrier in Hz (R128, R153). -/
def Dev.rxCentre2 (d : Dev) (p : Port) (s : Nat) : Int :=
  subcCentre2 (d.rxBaud p) (d.rxK p) (rolloffOf (d.get (pgCDC p) CDC.SC_CTL_ROLLOFF)) s

/-! ### Timing (R162) -/

/-- Sample `i` of the timing interpolator of a subcarrier: 8 taps of one of 64 phases, at the instant to which the timing loop has
moved; the delay trim delays it by whole T/2 (R162, R163).  The spec gives no tap values. (DESIGN CHOICE: log 223) -/
def EqState.interpolate (e : EqState) (s : Nat) (x : Int → Cx) (i : Int) : Cx :=
  let t := 64 * (i - (AMap.find? e.trims s).getD 0) + e.tim
  Cx.sum ((List.range 8).map fun k =>
    let w := Config.interpTap (t % 64).toNat k
    let v := x (t / 64 + k - 3)
    (w * v.1, w * v.2))

/-! ### Polarisation equaliser (R137) -/

/-- A tap of filter `f` of a subcarrier, in 2^-8 (R137). -/
def EqState.tap (e : EqState) (s f t : Nat) : Cx :=
  let v := FMap.get e.taps (s * 128 + 32 * f + t)
  (sOf 10 (v % 65536), sOf 10 (v / 65536))

/-- The butterfly's outputs for symbol `n` of a subcarrier from its T/2 samples, in 2^-8 of their unit; the centre tap meets
sample 2n (R137).  Taps outside the live profile are 0. (DEDUCED: log 224) -/
def EqState.butterfly (e : EqState) (s : Nat) (x y : Int → Cx) (n : Int) : Cx × Cx :=
  let fir (f : Nat) (v : Int → Cx) : Cx := Cx.sum ((List.range 31).map fun t => Cx.mul (e.tap s f t) (v (2 * n - t + 15)))
  (Cx.add (fir 0 x) (fir 1 y), Cx.add (fir 2 x) (fir 3 y))

/-! ### Nonlinearity compensation (R142–R144) -/

/-- The nearest level of a dimension to a value in 1/256: ±1, ±3, … of `n` amplitudes. -/
def sliceLevel (n : Nat) (v : Int) : Int :=
  let a := clampN 0 (n - 1) ((v.natAbs / 256) / 2)
  let a := (2 * a + 1 : Nat)
  if v < 0 then -(a : Int) else a

/-- The hard decision of a value in 1/256, in 1/256. -/
def hardDecision (n : Nat) (v : Cx) : Cx := (256 * sliceLevel n v.1, 256 * sliceLevel n v.2)

/-- A symbol as it enters the NLC's sum: the known value in a header or pilot position; else the hard decision of the MIMO output,
turned by the carrier phase of the pilot track, 2π/65,536 as numerator and denominator (R143, R170). (DEDUCED: log 225) -/
def nlcSymbol (n : Nat) (known : Option Cx) (y : Cx) (phase : Int × Int) : Cx :=
  match known with
  | some k => k
  | none =>
    let back := y.turn (-phase.1) (65536 * phase.2)
    let dec := (hardDecision n (back.1 / 2 ^ 64, back.2 / 2 ^ 64)).turn phase.1 (65536 * phase.2)
    (dec.1 / 2 ^ 64, dec.2 / 2 ^ 64)

/-- The offsets an entry acts at: (m, n) and (n, m), once when they are the same (R142). -/
def nlcPairs (m n : Int) : List (Int × Int) := if m = n then [(m, n)] else [(m, n), (n, m)]

/-- The perturbation an entry forms at symbol k, in 2^-31 of the cube of the symbols' unit, for X and Y (R142). -/
def nlcTerm (c : Cx) (m n : Int) (x y : Int → Cx) (k : Int) : Cx × Cx :=
  (nlcPairs m n).foldl (fun a o =>
    let s := Cx.add (Cx.mul (x (k + o.1)) (x (k + o.2))) (Cx.mul (y (k + o.1)) (y (k + o.2)))
    let z := k + o.1 + o.2
    (Cx.add a.1 (Cx.mul c (Cx.mul s (x z).conj)), Cx.add a.2 (Cx.mul c (Cx.mul s (y z).conj)))) ((0, 0), (0, 0))

/-- The subcarrier and the offsets of an entry of the triplet table (R145). -/
def Dev.nlcEntry (d : Dev) (p : Port) (e : Nat) : Nat × Int × Int :=
  let v := memReadN d.memFixed 8 (tripAddr p (8 * e))
  (bitsOf v 60 3, sOf 10 (bitsOf v 32 10), sOf 10 (bitsOf v 48 10))

/-- The perturbations dx and dy of symbol k of subcarrier `s`: the sum over the valid entries of the subcarrier (R142). -/
def Dev.nlcDelta (d : Dev) (p : Port) (s : Nat) (x y : Int → Cx) (k : Int) : Cx × Cx :=
  (List.range 122880).foldl (fun a e =>
    let r := d.nlcEntry p e
    if r.1 = s then
      let t := nlcTerm (d.nlcCoef p e) r.2.1 r.2.2 x y k
      (Cx.add a.1 t.1, Cx.add a.2 t.2)
    else a) ((0, 0), (0, 0))

/-- The NLC acts on a subcarrier: EN live in Girder and the equaliser in TRACK (R142, R143, R151). -/
def Dev.nlcActs (d : Dev) (p : Port) (s : Fin 8) : Bool := d.flag (pgNLC p) NLC.STATUS_ACTIVE && d.eqState p s == 3

/-- What the NLC hands on for payload symbol k of a subcarrier, in 2^-47 of 1/256, from the MIMO outputs `u` and
`v` and the symbols `x` and `y` of the sum, all in 1/256: unchanged while it does not act (R142, R143). -/
def Dev.nlcOut (d : Dev) (p : Port) (s : Fin 8) (u v : Cx) (x y : Int → Cx) (k : Int) : Cx × Cx :=
  let t := if d.nlcActs p s then d.nlcDelta p s.val x y k else ((0, 0), (0, 0))
  let out (a b : Cx) : Cx := (a.1 * 2 ^ 47 - b.1, a.2 * 2 ^ 47 - b.2)
  (out u t.1, out v t.2)

/-! ### Phase estimation (R169, R170) -/

/-- The pilots each side that a subcarrier's phase is averaged over (R169, R184, R188). -/
def Dev.pilotAvg (d : Dev) (p : Port) (s : Fin 8) : Nat :=
  if d.flag (pgSUBC p s) SUBC.CR_CTL_OVR_EN then d.get (pgSUBC p s) SUBC.CR_CTL_PILOT_AVG else d.get (pgCRV p) CRV.CTL_PILOT_AVG

/-- The half-window of the blind phase search of a subcarrier, 0 acting as 1 (R169, R184, R188). -/
def Dev.bpsHalf (d : Dev) (p : Port) (s : Fin 8) : Nat :=
  max 1 (if d.flag (pgSUBC p s) SUBC.CR_CTL_OVR_EN then d.get (pgSUBC p s) SUBC.CR_CTL_BPS_HALF else d.get (pgCRV p) CRV.CTL_BPS_HALF)

/-- The sum of the phases of the 2A + 1 pilots centred on pilot `i`, as their average times 2A + 1 (R169). -/
def pilotSum (a : Nat) (phase : Int → Int) (i : Int) : Int :=
  ((List.range (2 * a + 1)).map fun (k : Nat) => phase (i + k - a)).foldl (· + ·) 0

/-- The pilot phase of the symbol `m` places after pilot `i`, interpolated between the averaged phases on either side, 2π/65,536,
as numerator and denominator (R169). -/
def pilotPhase (a : Nat) (phase : Int → Int) (i : Int) (m : Nat) : Int × Int :=
  (pilotSum a phase i * (64 - m) + pilotSum a phase (i + 1) * m, 64 * (2 * a + 1))

/-- The 32 test phases about the pilot phase, evenly spaced over ±π/8, 2π/65,536 (R169). (DEDUCED: log 226) -/
def testPhase (j : Nat) : Int := 256 * (j : Int) - 3968

/-- The squared distance of a symbol in 1/256, turned back by a phase, to its nearest constellation point (R169). -/
def decDist (n : Nat) (v : Cx) (phase : Int × Int) : Int :=
  let b := v.turn (-phase.1) (65536 * phase.2)
  let b : Cx := (b.1 / 2 ^ 64, b.2 / 2 ^ 64)
  let h := hardDecision n b
  (b.1 - h.1) ^ 2 + (b.2 - h.2) ^ 2

/-- The test phase with the smallest sum of squared distances over the 2H + 1 symbols centred on the symbol, the first of equals
(R169). -/
def blindSearch (n h : Nat) (v : Int → Cx) (k : Int) (pilot : Int × Int) : Int :=
  let cost (j : Nat) : Int :=
    ((List.range (2 * h + 1)).map fun (i : Nat) => decDist n (v (k + i - h)) (pilot.1 + testPhase j * pilot.2, pilot.2)).foldl (· + ·) 0
  testPhase ((List.range 32).foldl (fun b j => if cost j < cost b then j else b) 0)

/-- The pilot phase of symbol k of a subcarrier, given its pilots' phases by index ÷ 64: what the NLC is handed (R169, R170). -/
def Dev.pilotTrack (d : Dev) (p : Port) (s : Fin 8) (phase : Int → Int) (k : Int) : Int × Int :=
  pilotPhase (d.pilotAvg p s) phase (k / 64) (k % 64).toNat

/-- The track of the blind phase search alone, 2π/65,536, from symbol `k0`: at each symbol the search goes on about the phase it
found last (R165 step 4, R172). -/
def blindTrack (n h : Nat) (v : Int → Cx) (k0 : Int) : Nat → Int
  | 0 => 0
  | m + 1 => let t := blindTrack n h v k0 m; t + blindSearch n h v (k0 + m) (t, 1)

/-- The offset in kHz that the fine loop takes from the slope of a phase track over `m` symbols (R165 step 4). -/
def fineOffset (rate m : Nat) (turn : Int) : Int := turn * (rate : Nat) / (65536 * 1000 * m : Nat)

/-- The phase the estimator takes off symbol k, 2π/65,536, as numerator and denominator: the interpolated pilot phase, or before the
pilot positions are known the track of the blind search, refined by the blind search (R165, R169). -/
def Dev.symbolPhase (d : Dev) (p : Port) (s : Fin 8) (n : Nat) (phase : Int → Int) (track : Int) (v : Int → Cx) (k : Int) : Int × Int :=
  let base := if d.flag (pgSUBC p s) SUBC.STATUS_PILOT_OK then d.pilotTrack p s phase k else (track, 1)
  (base.1 + blindSearch n (d.bpsHalf p s) v k base * base.2, base.2)

/-- A symbol after phase correction, in 2^-64 of its unit: what the demapper is given (R161). -/
def derotate (v : Cx) (phase : Int × Int) : Cx := v.turn (-phase.1) (65536 * phase.2)

/-! ### Levels and labels (R168, R174, R193, R199, R200) -/

/-- The mean square of a composition's amplitudes times 1,024; 1,024 under HQPSK (R200). -/
def meanSquare (e : Nat) : Nat :=
  let c := composition e
  if c.isEmpty then 1024 else ((List.range c.length).map fun i => c.getD i 0 * (2 * i + 1) ^ 2).foldl (· + ·) 0

/-- The integer square root, bit by bit from 2^31. -/
def isqrt (v : Nat) : Nat :=
  (List.range 32).foldl (fun r i => let c := r + 2 ^ (31 - i); if c * c ≤ v then c else r) 0

/-- The level of pilots and header symbols of an entropy, in 2^-16 of the amplitude unit, rounded down: the root of the mean
square of the payload's amplitudes (R168, R200). (DEDUCED: log 227) -/
def pilotLevel (e : Nat) : Nat := isqrt (meanSquare e * 2 ^ 22)

/-- The pilots of a subcarrier and polarisation at the level of an entropy, in 2^-16 of the amplitude unit (R168, R200). -/
def pilotsAt (e k s pol : Nat) : List Cx :=
  (pilots k s pol).map fun x => (x.1 * pilotLevel e, x.2 * pilotLevel e)

/-- The symbols of a header at the level of an entropy, in 2^-16 of the amplitude unit, X and Y (R200, R245). -/
def headerSymbols (e frame span sc mode soh : Nat) : List Cx × List Cx :=
  let b := headerBits frame span sc mode soh
  let sym (l : List Bool) : List Cx :=
    (List.range 64).map fun i => (qpskLevel (l.getD (2 * i) false) * pilotLevel e, qpskLevel (l.getD (2 * i + 1) false) * pilotLevel e)
  (sym b.1, sym b.2)

/-- The width of an amplitude label of a format (R193, R199). -/
def labelBits (fmt : Nat) : Nat := [0, 1, 2, 3].getD fmt 0

/-- The label of a payload symbol: I dimension before Q, sign before amplitude label (R199). -/
def symbolLabel (fmt : Nat) (v : Cx) : List Bool := levelLabel (labelBits fmt) v.1 ++ levelLabel (labelBits fmt) v.2

/-! ### Transmit payload (R194, R211) -/

/-- The payload symbols of a subframe in a conflict: QPSK of amplitude 1 with the signs of the pilot PRBS (R194). (DEDUCED: log 228) -/
def conflictFill (k s pol : Nat) : List Cx :=
  let n := (payloadSymbols k).length
  let b := prbs 15 14 (2 * n) (1 + 2 * s + pol)
  (List.range n).map fun i => (qpskLevel (b.getD (2 * i) false), qpskLevel (b.getD (2 * i + 1) false))

/-- The payload symbols of test pattern 1 from the start of a span: QPSK of amplitude 1 from the PRBS x^31 + x^28 + 1, whose seed
and order over subcarriers the spec leaves open (R211). (DESIGN CHOICE: log 229) -/
def patternFill (k s pol n : Nat) : List Cx :=
  let b := prbs 31 28 (2 * n) (Config.patSeed k s pol)
  (List.range n).map fun i => (qpskLevel (b.getD (2 * i) false), qpskLevel (b.getD (2 * i + 1) false))

/-- A payload position of a frame is filled by test pattern 1, by the fill of a conflict, or by the matcher (R194, R211, R213). -/
def Dev.payloadFill (d : Dev) (p : Port) (k s pol frame : Nat) (matcher : List Cx) : List Cx :=
  let n := (payloadSymbols k).length
  if d.get (pgTXS p) TXS.PAT_LIVE = 1 then (patternFill k s pol (n * (frame + 1))).drop (n * frame)
  else if d.flag (pgTXS p) TXS.STATUS_CONFLICT then conflictFill k s pol
  else matcher

/-- The symbols of a subframe: header, pilots among payload (R190, R194, R244). -/
def Dev.subframe (d : Dev) (p : Port) (s pol frame soh : Nat) (matcher : List Cx) : List Cx :=
  let k := d.txK p
  let e := (d.txCfg p).e256
  let hdr := headerSymbols e frame (d.txSpan p) s (sentCode (d.txCfg p).code) soh
  let pil := pilotsAt e k s pol
  let pay := (d.payloadFill p k s pol frame matcher).map fun x => (x.1 * 65536, x.2 * 65536)
  (if pol = 0 then hdr.1 else hdr.2) ++ (List.range (subframeSymbols k - 64)).map fun j =>
    let i := j + 64
    if isPilot i then pil.getD (i / 64 - 1) (0, 0) else pay.getD (j - i / 64) (0, 0)

/-! ### Synthesis (R201–R204) -/

/-- The points and the discarded samples of a synthesis block (R202). -/
def Dev.synPlan (d : Dev) (p : Port) : Nat × Nat := if d.flag (pgTXS p) TXS.LONG_LIVE then (8192, 4096) else (4096, 1024)

/-- The square of the root-raised-cosine gain at an offset from a subcarrier's centre, in 2^-64; offset and rate in Hz, roll-off in
hundredths (R201). -/
def rrcSquare (off rate rolloff : Nat) : Int :=
  let lo := (100 - rolloff) * rate
  let hi := (100 + rolloff) * rate
  if 200 * off ≤ lo then 2 ^ 64
  else if hi ≤ 200 * off then 0
  else (2 ^ 64 + (cosSin (200 * off - lo : Nat) (4 * rolloff * rate : Nat)).1) / 2

/-- A subcarrier gain field as it acts, /128 (R214). -/
def Dev.scGain (d : Dev) (p : Port) (s : Nat) : Nat := max 64 (d.get (pgTXS p) (TXS.SC_GAIN_GAIN.at s))

/-- The square of what the synthesiser gives subcarrier `s` at a frequency from the carrier centre, in 2^-64 / 2^14; subcarriers at
or above K carry nothing (R201). -/
def Dev.synSquare (d : Dev) (p : Port) (s : Nat) (hz : Int) : Int :=
  let k := d.txK p
  let ro := rolloffOf (d.get (pgTXS p) TXS.SC_CTL_ROLLOFF)
  if k ≤ s then 0
  else
    let off := (hz - subcCentre2 (d.txBaud p) k ro s / 2).natAbs
    rrcSquare off (subcRate (d.txBaud p) k) ro * (d.scGain p s : Int) ^ 2

/-- The pre-compensation coefficient at index `i` of a synthesis block: H(f) with the applied D while EN is live (R204, R205). -/
def Dev.preCoef (d : Dev) (p : Port) (i : Nat) : Cx :=
  let n := (d.synPlan p).1
  hCoef (lambdaOf (d.get (pgTXS p) TXS.LAMBDA)) (4 * d.preApplied p) (d.txBaud p) n (binOf n i)

/-- A block after pre-compensation, in 2^-11; untouched while EN is not live (R190, R204). -/
def Dev.preBlock (d : Dev) (p : Port) (spectrum : Nat → Cx) (i : Nat) : Cx :=
  if d.flag (pgTXS p) TXS.CD_PRE_EN then Cx.mul (spectrum i) (d.preCoef p i) else ((spectrum i).1 * 2 ^ 11, (spectrum i).2 * 2 ^ 11)

/-! ### Lanes (R206) -/

/-- A polarisation's I and Q after gain and phase correction, in 2^-64 / 4,096 of their unit: Q scaled by 1 + GAIN/4,096 and turned
against I by PHASE × 0.01° (R206, R214). (DEDUCED: log 230) -/
def Dev.iqCorrect (d : Dev) (p : Port) (pol : Fin 2) (v : Cx) : Cx :=
  let q := v.2 * (4096 + sOf 11 (d.get (pgTXS p) (TXS.IQ_GAIN.at pol.val)))
  let c := cosSin (clampI (-1000) 1000 (sOf 12 (d.get (pgTXS p) (TXS.IQ_PHASE.at pol.val)))) 36000
  (v.1 * 4096 * 2 ^ 64 - q * c.2, q * c.1)

/-- The delay of a lane in samples as numerator and denominator: SKEW × 0.1 ps × 1.2 × baud (R206). -/
def Dev.laneDelay (d : Dev) (p : Port) (lane : Nat) : Int × Int :=
  (sOf 10 (d.get (pgTXS p) (TXS.LANE_SKEW.at lane)) * 12 * d.txBaud p, 10 ^ 8)

/-- A lane's sample after skew: the whole samples of the delay, then the 5-tap filter of the fraction, to which the spec gives no taps
(R206). (DESIGN CHOICE: log 231) -/
def Dev.laneSkew (d : Dev) (p : Port) (lane : Nat) (x : Int → Int) (n : Int) : Int :=
  let t := d.laneDelay p lane
  Config.fracFilter (t.1 % t.2) t.2 ((List.range 5).map fun (k : Nat) => x (n - t.1 / t.2 + k - 2))

/-! ### Level, clipping and predistortion (R207–R211) -/

/-- The lane rms in DAC LSB as it acts (R214). -/
def Dev.rmsOf (d : Dev) (p : Port) : Nat := clampN 8 64 (d.get (pgTXS p) TXS.LEVEL_RMS)

/-- The clip level in LSB times `pwOne`: min(RMS × 10^(PAPR/200), 127), PAPR in 0.1 dB (R207, R214). -/
def Dev.clipLevel (d : Dev) (p : Port) : Nat :=
  min (d.rmsOf p * pow10 (10 * clampN 60 140 (d.get (pgTXS p) TXS.LEVEL_PAPR))) (127 * pwOne)

/-- The sum of squares of a frame's samples of a lane. -/
def power (x : List Int) : Nat := (x.map fun v => v.natAbs * v.natAbs).foldl (· + ·) 0

/-- The integer square root of a number below 2^128. -/
def isqrtBig (v : Nat) : Nat := (List.range 64).foldl (fun r i => let c := r + 2 ^ (63 - i); if c * c ≤ v then c else r) 0

/-- A lane's sample in units of 2^-16 LSB: scaled to the rms of the frame, with the lane's DC offset added; the root is rounded
down (R206, R207). (DEDUCED: log 232) -/
def Dev.laneLevel (d : Dev) (p : Port) (lane : Nat) (x : List Int) (v : Int) : Int :=
  let pw := power x
  let m : Int := if pw = 0 then 0 else (isqrtBig (v.natAbs * v.natAbs * x.length * (d.rmsOf p * 65536) ^ 2 / pw) : Nat)
  (if v < 0 then -m else m) + 16384 * sOf 7 (d.get (pgTXS p) (TXS.LANE_DC.at lane))

/-- A sample, in 2^-16 LSB, lies beyond the clip level (R207). -/
def Dev.clipped (d : Dev) (p : Port) (v : Int) : Bool := decide (d.clipLevel p * 65536 < v.natAbs * pwOne)

/-- The code of a clipped sample, to the nearest (R207). -/
def Dev.clipCode (d : Dev) (p : Port) (v : Int) : Int :=
  let lim : Int := (d.clipLevel p * 65536 / pwOne : Nat)
  clampI (-128) 127 (nearest (clampI (-lim) lim v) 65536)

/-- The tone of test pattern 2 at sample n since the pattern took effect: I and Q of each polarisation in 2^-64 of √2 × RMS LSB, at
TONE × 100 MHz (R211). -/
def Dev.tone (d : Dev) (p : Port) (n : Int) : Cx :=
  cosSin (sOf 8 (d.get (pgTXS p) TXS.TEST_TONE) * 1000 * n) (12 * d.txBaud p : Nat)

/-- The code a DAC converts: −128 as −127 (R98). -/
def dacCode (c : Int) : Int := max (-127) c

/-- The lane's output for sample n of a frame, in 450/127 mV: inverted where INV is live, digitally corrected by the sub-DAC of the
sample, converted with −128 as −127 (R97, R98, R122). (DEDUCED: log 233) -/
def Dev.dacOut (d : Dev) (p : Port) (lane : Fin 4) (n : Nat) (c : Int) : Int :=
  let v := laneInv (d.get (pgDAC p) DAC.LANE_CTL_INV) lane.val c
  let g := gainCorrect (((d.conv.get p).sub (lane.val * 16 + n % 16)).trim) v
  dacCode (clampI (-128) 127 (nearest g.1 g.2))

/-- The codes that a lane's frame of samples leaves the shaper with, and how many were clipped: levelled, clipped, predistorted
(R190, R207, R209). -/
def Dev.laneFrame (d : Dev) (p : Port) (lane : Fin 4) (writes : List Nat) (x : List Int) : List Int × Nat :=
  let v := x.map (d.laneLevel p lane.val x)
  (v.zipIdx.map fun s => d.pdOut p lane writes s.2 (d.clipCode p s.1), v.countP (d.clipped p))

/-- Sample n of a polarisation of a frame as the correction stages find it: the synthesised signal, or the tone of test pattern 2
instead (R190, R211). -/
def Dev.polSample (d : Dev) (p : Port) (f : TxFrame) (pol : Fin 2) (n : Int) : Cx :=
  if d.get (pgTXS p) TXS.PAT_LIVE = 2 then d.tone p (d.get (pgTXS p) TXS.TONE_AT + n)
  else if n < -32 then (0, 0)
  else (if pol.val = 0 then f.x else f.y).getD (n + 32).toNat (0, 0)

/-- The samples of a lane in a frame: I of its polarisation on even lanes and Q on odd ones, after gain and phase correction, delayed by
the lane's skew (R190, R206). -/
def Dev.laneSamples (d : Dev) (p : Port) (f : TxFrame) (lane : Fin 4) : List Int :=
  let one (n : Int) : Int :=
    let v := d.iqCorrect p (if lane.val < 2 then 0 else 1) (d.polSample p f (if lane.val < 2 then 0 else 1) n)
    if lane.val % 2 = 0 then v.1 else v.2
  (List.range (f.x.length - 64)).map fun (n : Nat) => d.laneSkew p lane.val one n

end Sys2Proof.Machine
end

