-- ==== Sys2Proof/Machine/Decoder.lean ====
section
/-! DEFINITION.  The demapper and the decoder at work (R174–R177, R187, R224–R232, R236, R237, R241), and the encoder with its
injection (R222, R240, R253, R260). -/

namespace Sys2Proof.Machine

/-! ### Demapping (R174–R177, R197, R199) -/

/-- ln 2 in 2^-48. -/
def ln2Fx : Nat := 195103586505167

/-- The log probability of a level at amplitude index `i` given the level received, in 2^-48, up to a common term: the prior of the
composition, and the squared distance over twice the noise variance; the level in 1/256, the variance in 2^-16 (R175, R197). (DEDUCED: log 79) -/
def levelMeasure (comp : List Nat) (noise : Nat) (y : Int) (i : Nat) (neg : Bool) : Int :=
  let x : Int := 256 * (2 * i + 1 : Nat)
  let dist := y - (if neg then -x else x)
  let prior : Nat := if comp.isEmpty then 0 else log2Fx (comp.getD i 0) * ln2Fx / 2 ^ 48
  (prior : Int) - dist * dist * 2 ^ 47 / (max 1 noise : Nat)

/-- The labelled points of a real dimension with their measures; an amplitude the composition does not hold is no point (R175). -/
def dimPoints (comp : List Nat) (fmt noise : Nat) (y : Int) : List (List Bool × Int) :=
  ((List.range (ampCount fmt)).filter fun i => comp.isEmpty || comp.getD i 0 != 0).flatMap fun i =>
    [false, true].map fun neg =>
      (levelLabel (labelBits fmt) (if neg then -((2 * i + 1 : Nat) : Int) else (2 * i + 1 : Nat)), levelMeasure comp noise y i neg)

/-- The integer nearest to a fraction, halves away from zero. -/
def roundAway (num : Int) (den : Nat) : Int :=
  let q : Int := ((2 * num.natAbs + den) / (2 * den) : Nat)
  if num < 0 then -q else q

/-- L6 of a label bit: λ × S / 16 rounded, held to ±31; a bit that no point carries has the other value for certain (R175, R176).
 -/
def bitL6 (points : List (List Bool × Int)) (scale bit : Nat) : Int :=
  if points.all fun x => x.1.getD bit false then -31
  else if points.all fun x => !x.1.getD bit false then 31
  else clampI (-31) 31 (roundAway (maxLog points bit * scale) (2 ^ 52))

/-- The scale of a subcarrier as it acts (R176). -/
def Dev.llrScale (d : Dev) (p : Port) (s : Fin 8) : Nat :=
  max 1 (bitsOf (d.get (pgDMP p) (if s.val < 4 then DMP.SCALE_LIVE_LO_S else DMP.SCALE_LIVE_HI_S)) (8 * (s.val % 4)) 8)

/-- The L6 values of a real dimension: sign bit, then amplitude label (R175, R176). -/
def Dev.dimL6 (d : Dev) (p : Port) (comp : List Nat) (fmt : Nat) (b : RxBlock) (y : Int) : List Int :=
  let pts := dimPoints comp fmt b.noise.toNat y
  (List.range (1 + labelBits fmt)).map (bitL6 pts (d.llrScale p b.sc))

/-- The amplitude index of a Gray label (R199). -/
def ofGray (l : List Bool) : Nat := (l.foldl (fun (a : Nat × Bool) b => (2 * a.1 + b2n (a.2 != b), a.2 != b)) (0, false)).1

/-- What the demapper delivers for a dimension: the compressed LLRs of its sign bit and of its amplitude label, all code 0 for an erased
symbol and in a conflict (R172, R174, R177). -/
def Dev.dimCodes (d : Dev) (p : Port) (erased : Bool) (l6 : List Int) : List Nat :=
  l6.map fun v => if erased || d.flag (pgDMP p) DMP.STATUS_CONFLICT then 0 else llr4 v

/-- Payload symbols of a subframe (R195). -/
def payloadCount (k : Nat) : Nat := 131072 / k - 64 - (2048 / k - 1)

/-- The frame and the place among a subframe's payload of symbol `i` of the block whose first coded bit is bit `at_` of the span: the
blocks of all subcarriers and polarisations come in turn, each of 2 E × 256 bits (R195). -/
def payloadPlace (k e at_ i : Nat) : Nat × Nat :=
  let q := 512 * (at_ / (2 * e) / (2 * k)) + i
  (q / payloadCount k, q % payloadCount k)

/-- Symbol `i` of a block lies in the interval of a slip that erases: 63 payload symbols follow each pilot (R168, R172). -/
def Dev.erased (d : Dev) (p : Port) (b : RxBlock) (i : Nat) : Bool :=
  let r := payloadPlace (d.rxK p) (d.rxCfg p).e256 (d.fec.get p).rxAt i
  (d.eq.get p).slips.contains (r.1, 2 * b.sc.val + b2n b.pol, r.2 / 63)

/-- The L6 values and the codes of a block's dimensions, I before Q, symbol by symbol (R175–R177, R199). -/
def Dev.demap (d : Dev) (p : Port) (b : RxBlock) : List (List Int × List Nat) :=
  let e := (d.rxCfg p).e256
  let comp := composition e
  let dim (i : Nat) (y : Int) : List Int × List Nat :=
    let l := d.dimL6 p comp (formatOf e) b y
    (l, d.dimCodes p (d.erased p b i) l)
  b.syms.zipIdx.flatMap fun x => [dim x.2 x.1.1, dim x.2 x.1.2]

/-! ### Decoder inputs (R224, R225) -/

/-- The code of a BPSK bit from the sum of its two reconstructions, given twofold: the bin that holds it, saturating at code 7; between
two bins one of them (R224). (DESIGN CHOICE: log 235) -/
def bpskCode (v : Int) : Nat :=
  let lo := llrCode (v.natAbs / 2)
  let hi := llrCode ((v.natAbs + 1) / 2)
  (if v < 0 then 8 else 0) + (if lo = hi then lo else if Config.bpskTie v.natAbs % 2 = 0 then lo else hi)

/-- The decoder inputs of a matcher block, each with whether it stands for a sign bit: rank bits from the dematcher and sign bits under
a PCS format; BPSK sums and sign bits under HQPSK (R224, R225). (DEDUCED: log 270) -/
def Dev.blockInputs (d : Dev) (p : Port) (b : RxBlock) (dims : List (List Int × List Nat)) : List (Nat × Bool) :=
  let e := (d.rxCfg p).e256
  let sign (i : Nat) : Nat := (dims.getD i ([], [])).2.headD 0
  if formatOf e = 0 then
    let nb := 2 * (512 - e)
    ((List.range nb).map fun i => (bpskCode (bpskSum2 (sign (2 * i)) (sign (2 * i + 1))), true)) ++
      (List.range (1024 - 2 * nb)).map fun i => (sign (2 * nb + i), true)
  else
    let mags := b.syms.flatMap fun x => [x.1.natAbs, x.2.natAbs]
    let own := dims.map fun x => ofGray (x.2.tail.map fun c => decide (8 ≤ c))
    ((rankInputs (composition e) mags own (matcherK e) (d.get (pgFEC p) FEC.UREL_AGREE) (d.get (pgFEC p) FEC.UREL_DISAGREE)).map
      fun c => (c, false)) ++ (List.range 1024).map fun i => (sign i, true)

/-- A block's inputs as cells of the codeword buffers. -/
def blockCells (b : RxBlock) (l : List (Nat × Bool)) : List Nat :=
  l.map fun x => x.1 + 16 * (2 * b.sc.val + b2n b.pol) + 256 * b2n x.2

/-- The LLR counts of the monitor window take a block (R186, R187). (DEDUCED: log 268) -/
def FecState.count (f : FecState) (dims : List (List Int × List Nat)) : FecState :=
  let codes := dims.flatMap (·.2)
  let l6 := dims.flatMap (·.1)
  { f with hist := codes.foldl (fun m c => FMap.set m c (FMap.get m c + 1)) f.hist, l6 := f.l6 + l6.length,
           clamped := f.clamped + l6.countP fun v => v.natAbs == 31 }

/-! ### Inner decoding (R226–R230) -/

/-- The inner decoder's answer for a codeword given `n` iterations: hard decisions, whether the syndrome is zero at the end, iterations
run, and the first of them with a zero syndrome (R226, R227). -/
def Codeword.decode (c : Codeword) (n : Nat) : List Bool × Bool × Nat × Nat :=
  let r := innerDecode c.trestle c.offset n (c.cells.map (· % 16))
  ((List.range 6144).map fun b => decide (r.1.getD b 0 < 0), (innerCode c.trestle).syndromeZero r.1, r.2.1, r.2.2.getD 0)

/-! ### The codeword buffers (R222, R223, R226, R230, R241) -/

/-- A codeword's last input arrives: it is in the pool, after as many iterations as it will need (R226, R227, R230). -/
def Codeword.complete (w : Codeword) (x turn : Nat) : Codeword :=
  let w := { w with cells := (x :: w.cells).reverse }
  { w with need := if w.trestle then 4 else (w.decode w.maxIter).2.2.1, stamp := turn }

/-- An input arrives: it opens a codeword with the parameters `c`, goes on with the one that fills, or completes it; inputs beyond the
last whole unit of the span, `lim`, are fill and are not decoded (R222, R224). -/
def FecState.input (c : Codeword) (lim : Nat) (f : FecState) (x : Nat) : FecState :=
  let n := f.rxAt + 1
  if lim ≤ f.rxAt then { f with rxAt := n }
  else
    let w := match f.fill with
      | some w => w
      | none => { c with word := if c.trestle then 0 else f.rxAt / 6144 % 8, first := f.rxAt == 0, arr := f.turn }
    if n % 6144 = 0 then { f with rxAt := n, fill := none, pool := f.pool ++ [w.complete x f.turn], turn := f.turn + 1 }
    else { f with rxAt := n, fill := some { w with cells := x :: w.cells }, turn := f.turn + b2n f.fill.isNone }

/-- The parameters with which a codeword begins now (R235, R236, R241). -/
def Dev.newCodeword (d : Dev) (p : Port) : Codeword :=
  ⟨[], d.rxTrestle p, clampN 1 16 (d.get (pgFEC p) FEC.CTL_MAX_ITER), d.get (pgFEC p) FEC.CTL_OFFSET, 0,
   d.get (pgLFR p) LFR.FRAME_POS, false, d.rxK p, (d.rxCfg p).e256, d.fecFloor p, 0, 0, 0, 0⟩

/-- A matcher block is demapped and its inputs enter the buffers (R174–R177, R224, R225). -/
def Dev.rxBlock (d : Dev) (p : Port) (b : RxBlock) : Dev :=
  let dims := d.demap p b
  let c := d.newCodeword p
  let lim := spanUnits c.trestle c.k c.e * (unitBits c.trestle).2
  let cells := blockCells b (d.blockInputs p b dims)
  d.fecUpd p fun f => cells.foldl (FecState.input c lim) (f.count dims)

/-- The blocks received since the last command that gave any, while the decoder runs (R223). -/
def Dev.rxBlocks (d : Dev) (p : Port) (l : List RxBlock) : Dev :=
  if d.flag (pgFEC p) FEC.STATUS_DEC_ACTIVE then (l.foldl (fun d b => d.rxBlock p b) d).poolPeak p else d

/-- A receive span begins: units are located from its first bit (R222, R223). -/
def Dev.rxUnits (d : Dev) (p : Port) : Dev :=
  (d.fecUpd p fun f => { f with fill := none, rxAt := 0 }).eqUpd p fun e => { e with slips := [] }

/-! ### The cores (R228, R229) -/

/-- The iterations a codeword of its own FLOOR must have before it yields (R228, R229). -/
def Codeword.least (c : Codeword) : Nat := min c.floor c.maxIter

/-- A Girder codeword that the cores still serve; with `first`, one that has not come to FLOOR (R228). -/
def Codeword.wants (first : Bool) (c : Codeword) : Bool :=
  !c.trestle && decide (c.iters < c.need) && (!first || decide (c.iters < c.least))

/-- The codeword served next: of those that have not come to FLOOR, or when there is none of the others, the one whose turn is longest
due (R228). -/
def nextServed (l : List Codeword) : Option Codeword :=
  let pick (first : Bool) : Option Codeword := (l.filter (·.wants first)).foldl (fun b c =>
    match b with
    | none => some c
    | some x => if c.stamp < x.stamp then some c else b) none
  (pick true).orElse fun _ => pick false

/-- The cores complete `n` codeword-iterations, one to a visit (R228). (DEDUCED: log 280) -/
def FecState.serve : Nat → FecState → FecState
  | 0, f => f
  | n + 1, f =>
    match nextServed f.pool with
    | none => f
    | some c => FecState.serve n
        { f with pool := f.pool.map (fun x => if x.arr = c.arr then { x with iters := x.iters + 1, stamp := f.turn } else x), turn := f.turn + 1 }

/-! ### What a decoded codeword counts (R179, R239) -/

/-- The coded bits changed, by subcarrier and polarisation (R239). -/
def Codeword.changed (c : Codeword) (hard : List Bool) : List (Nat × Nat) :=
  (List.range 16).map fun t => (t, (c.cells.zip hard).countP fun x => x.1 / 16 % 16 == t && x.2 != decide (8 ≤ x.1 % 16))

/-- The sign bits changed and decoded, by subcarrier (R179). -/
def Codeword.signs (c : Codeword) (hard : List Bool) : List (Nat × Nat × Nat) :=
  (List.range 8).map fun s =>
    let l := (c.cells.zip hard).filter fun x => x.1 / 32 % 8 == s && decide (256 ≤ x.1)
    (s, l.countP fun x => x.2 != decide (8 ≤ x.1 % 16), l.length)

/-- The information bits of a codeword's hard decisions (R218). -/
def Codeword.info (c : Codeword) (hard : List Bool) : List Bool := hard.take (96 * (innerCode c.trestle).kb)

/-! ### Outer decoding (R219, R220, R231) -/

/-- The inverse in GF(2^11): the 2,046th power. -/
def gfInv (a : Nat) : Nat :=
  ((List.range 10).foldl (fun (st : Nat × Nat) _ => let sq := gfMul st.1 st.1; (sq, gfMul st.2 sq)) (a, 1)).2

/-- The sum of α^(i e) over the exponents e of the set bits of an outer codeword (R219). -/
def outerSyndrome (i : Nat) (l : List Bool) : Nat :=
  l.foldl (fun a b => gfMul a (gfPow i) ^^^ b2n b) 0

/-- The error locator of up to three errors from the syndromes S1, S3, S5, as its coefficients from the constant up; none when no
locator of degree 3 or less fits (R231). -/
def locator (s1 s3 s5 : Nat) : Option (List Nat) :=
  let cube := gfMul s1 (gfMul s1 s1)
  let dd := cube ^^^ s3
  if dd = 0 then
    if s1 = 0 then (if s5 = 0 then some [1] else none)
    else if gfMul cube (gfMul s1 s1) = s5 then some [1, s1] else none
  else
    let s2 := gfMul (gfMul (gfMul s1 s1) s3 ^^^ s5) (gfInv dd)
    let s3' := dd ^^^ gfMul s1 s2
    some (if s3' = 0 then [1, s1, s2] else [1, s1, s2, s3'])

/-- The value of a polynomial over GF(2^11). -/
def gfEval (l : List Nat) (x : Nat) : Nat := l.reverse.foldl (fun a c => gfMul a x ^^^ c) 0

/-- The positions of the 1,792 sent bits at which the locator has a root: bit b is the coefficient of x^(1791 − b) (R219, R231). -/
def locatorRoots (l : List Nat) : List Nat :=
  ((List.range 1792).foldl (fun (st : List Nat × Nat) e =>
    (if gfEval l st.2 = 0 then (1791 - e) :: st.1 else st.1, gfMul st.2 (gfInv 2))) ([], 1)).1

/-- The outer decoder: the corrected word and its corrections, or nothing when it is uncorrectable (R231). -/
def outerDecode (l : List Bool) : Option (List Bool × Nat) :=
  match locator (outerSyndrome 1 l) (outerSyndrome 3 l) (outerSyndrome 5 l) with
  | none => none
  | some s =>
    let roots := if s.length = 1 then [] else locatorRoots s
    if roots.length + 1 = s.length then some (roots.foldl (fun w b => w.set b (!w.getD b false)) l, roots.length) else none

/-- Bits 0 to 1,791 of outer codeword `o` among the information bits of the eight inner codewords of a group (R220). -/
def outerWord (words : List (List Bool)) (o : Nat) : List Bool :=
  (List.range 1792).map fun b => let r := outerPlace o b; (words.getD r.1 []).getD r.2 false

/-! ### The decoded frame stream (R232, R260) -/

/-- A piece of decoded frame stream joins its span with its mark (R232). -/
def Seg.push (s : Seg) (l : List Bool) (marked : Bool) : Seg :=
  { s with bits := s.bits * 2 ^ l.length + ofBits l, len := s.len + l.length, marks := s.marks ++ [(l.length, marked)] }

/-- The span a unit belongs to: a new one for the first unit of a span. -/
def FecState.openSeg (f : FecState) (c : Codeword) : FecState :=
  if c.first || f.segs.isEmpty then { f with segs := f.segs ++ [⟨0, 0, [], 0, scrSeed, c.trestle, c.k, c.e⟩] } else f

/-- A piece of decoded frame stream leaves the decoder (R232). -/
def FecState.emitBits (f : FecState) (l : List Bool) (marked : Bool) : FecState :=
  match f.segs.reverse with
  | [] => f
  | s :: t => { f with segs := (s.push l marked :: t).reverse }

/-- A complete Girder group is decoded: the counts, and the 1,759 bits of each outer word, corrected, or uncorrected with their mark
(R231, R232). -/
def Dev.outerGroup (d : Dev) (p : Port) (c : Codeword) (words : List (List Bool)) : Dev :=
  let raw := (List.range 24).map (outerWord words)
  let dec := raw.map outerDecode
  let d := d.outerCount p c.frame (dec.map fun r => r.map (·.2))
  let pieces := raw.zip dec
  d.fecUpd p fun f => pieces.foldl (fun f x =>
    match x.2 with
    | some r => f.emitBits (r.1.take 1759) false
    | none => f.emitBits (x.1.take 1759) true) (f.openSeg c)

/-- A held Trestle codeword leaves the decoder (R232, R237). -/
def FecState.releaseHeld (f : FecState) : FecState :=
  match f.held with
  | [] => f
  | x :: t => ({ f with held := t }.openSeg x.1).emitBits x.2.1 x.2.2

/-- Held codewords that arrived before the codeword numbered `n` leave the decoder, in order (R237). -/
def FecState.releaseBefore (n : Nat) : Nat → FecState → FecState
  | 0, f => f
  | k + 1, f => if f.held.any (fun x => decide (x.1.arr < n)) then FecState.releaseBefore n k f.releaseHeld else f

/-- HOLD ends once nothing is held, and in Trestle once no Girder codeword is left (R237, R242). -/
def Dev.holdEnd (d : Dev) (p : Port) : Dev :=
  let f := d.fec.get p
  d.when (f.held.isEmpty && (!d.rxTrestle p || f.pool.all (·.trestle))) (·.putb (pgFEC p) FEC.STATUS_HOLD false)

/-- The groups of 16 inputs whose parity fails enter the decoder as code 0 (R520). -/
def Codeword.parity (groups : List Nat) (c : Codeword) : Codeword :=
  if groups.isEmpty then c
  else
    let w := { c with cells := c.cells.zipIdx.map fun (x : Nat × Nat) => if groups.contains (x.2 / 16) then x.1 / 16 * 16 else x.1 }
    { w with need := if w.trestle then 4 else (w.decode w.maxIter).2.2.1 }

/-- The oldest codeword of a profile in the pool, with those before it and those after it. -/
def splitPool (trestle : Bool) (l : List Codeword) : List Codeword × List Codeword :=
  let before := l.takeWhile (·.trestle != trestle)
  (before, l.drop before.length)

/-- Parity errors in the oldest codeword of a profile: its groups, LLR_PARITY and its count (R520, R546). (DEDUCED: log 298) -/
def Dev.llrParity (d : Dev) (p : Port) (trestle : Bool) (groups : List Nat) : Dev :=
  match (splitPool trestle (d.fec.get p).pool).2 with
  | [] => d
  | c :: rest =>
    if groups.isEmpty then d
    else
      let d := d.fecUpd p fun f => { f with pool := (splitPool trestle f.pool).1 ++ c.parity groups :: rest }
      (d.bump (pgTRSL p) TRSL.PAR_LLR groups.length).ev (pgTRSL p) 11

/-- CODEWORD_RELEASE: the cores have completed `n` iterations since the last one, and the oldest Girder codeword leaves with those it
has been given, FLOOR at the least and MAX_ITER at the most; with the eighth of a group the outer decoder follows, after Trestle
codewords held from before the group, and a pause ends (R26, R227–R232, R237). -/
def cwRelease (p : Port) (blocks : List RxBlock) (n : Nat) (parity : List Nat) (d : Dev) : Dev := d.lineDo p fun d =>
  let d := ((d.rxBlocks p blocks).llrParity p false parity).fecUpd p (FecState.serve n)
  match (d.fec.get p).pool with
  | [] => d
  | c :: rest =>
    if c.trestle then d
    else
      let pg := pgFEC p
      let r := c.decode (max c.least c.iters)
      let d := d.innerCount p r.2.1 r.2.2.1 r.2.2.1 (c.changed r.1) (c.signs r.1)
      let d := d.when (!r.2.1 && decide (r.2.2.1 < c.maxIter)) fun d => (d.bump pg FEC.CAPPED 1).ev pg 3
      let meta_ : Codeword := { c with cells := [] }
      let words := (if c.word = 0 then [] else (d.fec.get p).words) ++ [(meta_, c.info r.1)]
      let d := d.fecUpd p fun f => { f with pool := rest, words := if c.word = 7 then [] else words }
      if c.word = 7 ∧ words.length = 8 then
        let c0 := (words.headD (meta_, [])).1
        let d := d.fecUpd p fun f => f.releaseBefore c0.arr f.held.length
        (d.outerGroup p c0 (words.map (·.2))).holdEnd p
      else d

/-- TRESTLE_RELEASE: the oldest Trestle codeword is decoded; it is released unless Girder codewords before it are still in the decoder, and
held ones follow in order, two to each new one, until none is held (R227, R230, R232, R237). (DEDUCED: log 236) -/
def trRelease (p : Port) (blocks : List RxBlock) (parity : List Nat) (d : Dev) : Dev := d.lineDo p fun d =>
  let d := (d.rxBlocks p blocks).llrParity p true parity
  let pool := (d.fec.get p).pool
  match pool.find? (·.trestle) with
  | none => d
  | some c =>
    let pg := pgFEC p
    let r := c.decode 4
    let d := d.innerCount p r.2.1 r.2.2.2 4 (c.changed r.1) (c.signs r.1)
    let d := d.when (!r.2.1) fun d => (d.uncUnit p c.frame 0).ev pg 0
    let before := pool.takeWhile (!·.trestle)
    let d := d.fecUpd p fun f =>
      { f with pool := before ++ pool.drop (before.length + 1), held := f.held ++ [({ c with cells := [] }, c.info r.1, !r.2.1)] }
    if !before.isEmpty then d.poolPeak p
    else
      let d := (d.fecUpd p fun f => f.releaseHeld.releaseHeld).poolPeak p
      d.when ((d.fec.get p).held.isEmpty && d.rxTrestle p) (·.putb pg FEC.STATUS_HOLD false)

/-! ### Decks from the stream (R253, R260) -/

/-- The symbol of its matcher block that carries bit `r` of the block: the one with the bit's sign, or for a rank bit, which all carry,
the first (R196, R198). -/
def bitSymbol (e r : Nat) : Nat :=
  let k := matcherK e
  if formatOf e = 0 then (if r < k then r else k + (r - k) / 2) else if r < k then 0 else (r - k) / 2

/-- The carrier frame to which deck `n` of a span belongs: the one in which the first coded bit of the unit that holds the deck's first
bit is sent (R195, R196, R216, R253). (DEDUCED: log 237) -/
def deckFrame (trestle : Bool) (k e n : Nat) : Nat :=
  let at_ := 65536 * n / (unitBits trestle).1 * (unitBits trestle).2
  (payloadPlace k e at_ (bitSymbol e (at_ % (2 * e)))).1

/-- The parity of deck `n` of a span joins that of its frame; the first deck of a frame opens it (R253). -/
def joinBip (m : FMap) (trestle : Bool) (k e n v : Nat) : FMap :=
  let fr := deckFrame trestle k e n
  let first := n == 0 || deckFrame trestle k e (n - 1) != fr
  FMap.set m (fr % 4096) (if first then v else FMap.get m (fr % 4096) ^^^ v)

/-- The next `n` bits of x^a + x^b + 1 as a number, first bit most significant, and the state after them. -/
def prbsRun (a b n r : Nat) : Nat × Nat :=
  (List.range n).foldl (fun (st : Nat × Nat) _ =>
    (2 * st.1 + b2n (st.2.testBit (a - 1)), (2 * st.2 + b2n (st.2.testBit (a - 1) != st.2.testBit (b - 1))) % 2 ^ a)) (0, r)

/-- The BIP-16 of a deck's bits as a number, first bit most significant: bit i the parity of the bits j ≡ i mod 16 (R253). -/
def deckBip (v : Nat) : Nat :=
  let w := (List.range 4096).foldl (fun a i => a ^^^ (v / 2 ^ (16 * i) % 65536)) 0
  (List.range 16).foldl (fun a i => a + b2n (w.testBit (15 - i)) * 2 ^ i) 0

/-- Spans whose decks have all been taken go when a later one has begun (R260). -/
def dropSegs : List Seg → List Seg
  | a :: b :: t => if a.len < 65536 || decide (spanDecks a.trestle a.k a.e ≤ a.decks) then dropSegs (b :: t) else a :: b :: t
  | l => l

/-- The marks of the first `n` bits, and the rest. -/
def splitMarks : Nat → List (Nat × Bool) → List (Nat × Bool) × List (Nat × Bool)
  | _, [] => ([], [])
  | n, x :: t =>
    if n = 0 then ([], x :: t)
    else if x.1 ≤ n then let r := splitMarks (n - x.1) t; (x :: r.1, r.2)
    else ([(n, x.2)], (x.1 - n, x.2) :: t)

/-- A deck taken from the stream: its index in the span, its descrambled bits, its marks, and the bit layer after it; nothing while no
whole deck is there (R260).  Its parity joins that of its frame (R253). -/
def FecState.takeDeck (f : FecState) : Option (Nat × Nat × List (Nat × Bool) × FecState) :=
  match dropSegs f.segs with
  | [] => none
  | s :: t =>
    if s.len < 65536 || decide (spanDecks s.trestle s.k s.e ≤ s.decks) then none
    else
      let raw := s.bits / 2 ^ (s.len - 65536)
      let key := prbsRun 23 18 65536 s.scr
      let m := splitMarks 65536 s.marks
      let s' := { s with bits := s.bits % 2 ^ (s.len - 65536), len := s.len - 65536, marks := m.2, decks := s.decks + 1, scr := key.2 }
      some (s.decks, raw ^^^ key.1, m.1,
        { f with segs := s' :: t, rxBips := joinBip f.rxBips s.trestle s.k s.e s.decks (deckBip raw) })

/-- A byte of a deck (R261). -/
def deckByte (deck b : Nat) : Nat := deck / 256 ^ (8191 - b) % 256

/-- A byte of a deck contains a marked bit (R271). -/
def byteMarked (marks : List (Nat × Bool)) (b : Nat) : Bool :=
  let m := (splitMarks (8 * b) marks).2
  (splitMarks 8 m).1.any (·.2)

/-! ### Encoding (R220–R222, R240) -/

/-- The inversions of an injection into a codeword: its bits 0, 24, 48 and onward, NBIT of them (R240). -/
def injectBits (n : Nat) (l : List Bool) : List Bool :=
  (List.range (min n 256)).foldl (fun l i => l.set (24 * i) (!l.getD (24 * i) false)) l

/-- One inner codeword passes the injection, which takes one in every 2^EVERY, the first one after it is switched on (R240). (DEDUCED: log 238) -/
def Dev.injectWord (d : Dev) (p : Port) (w : List Bool) : List Bool × Dev :=
  if !d.injActive p then (w, d)
  else
    let at_ := ((d.fec.get p).injAt).getD 0
    let every := 2 ^ min 20 (d.get (pgFEC p) FEC.INJ_EVERY)
    let d := d.fecUpd p fun f => { f with injAt := some ((at_ + 1) % every) }
    let n := d.get (pgFEC p) FEC.INJ_NBIT
    if at_ = 0 then (injectBits n w, d.bump (pgFEC p) FEC.INJECTED n) else (w, d)

/-- The next unit of the frame stream is encoded and sent (R216, R220–R222, R240). -/
def Dev.sendUnit (d : Dev) (p : Port) : Dev :=
  let tr := d.flag (pgFEC p) FEC.CTL_TX_PROFILE
  let u := unitBits tr
  let f := d.fec.get p
  let rest := f.txLen - u.1
  let coded := unitEncode tr (bitsMsb u.1 (f.txBits / 2 ^ rest))
  let d := d.fecUpd p fun f => { f with txBits := f.txBits % 2 ^ rest, txLen := rest, txUnits := f.txUnits + 1 }
  let r := (List.range (u.2 / 6144)).foldl (fun (st : List Bool × Dev) i =>
    let x := st.2.injectWord p ((coded.drop (6144 * i)).take 6144)
    (st.1 ++ x.1, x.2)) ([], d)
  r.2.emit (.unit p tr (ofBits r.1))

/-- All whole units that the frame stream holds are sent; a deck completes at most 14. -/
def Dev.sendUnits (d : Dev) (p : Port) : Nat → Dev
  | 0 => d
  | n + 1 => if (d.fec.get p).txLen < (unitBits (d.flag (pgFEC p) FEC.CTL_TX_PROFILE)).1 then d else (d.sendUnit p).sendUnits p n

/-- A deck joins the frame stream, scrambled; its parity joins that of its frame; after the last deck of the span fill completes the last
whole unit, and fill is sent from there to the span boundary (R222, R253, R260). (DESIGN CHOICE: log 252) -/
def Dev.sendDeck (d : Dev) (p : Port) (n deck : Nat) : Dev :=
  let c := d.txCfg p
  let k := d.txK p
  let key := prbsRun 23 18 65536 (d.fec.get p).txScr
  let raw := deck ^^^ key.1
  let last := decide (n + 1 = spanDecks c.trestle k c.e256)
  let pad := if last then spanUnits c.trestle k c.e256 * (unitBits c.trestle).1 - 65536 * (n + 1) else 0
  let d := d.fecUpd p fun f =>
    { f with txBits := (f.txBits * 2 ^ 65536 + raw) * 2 ^ pad + ofBits ((List.range pad).map Config.fillBit), txLen := f.txLen + 65536 + pad,
             txScr := key.2, txBips := joinBip f.txBips c.trestle k c.e256 n (deckBip raw) }
  let d := d.sendUnits p 32
  let tail := spanBits k c.e256 - spanUnits c.trestle k c.e256 * (unitBits c.trestle).2
  d.when last (·.emit (.fill p tail (ofBits ((List.range tail).map Config.tailBit))))

/-- A transmit span begins: a new unit, and the scrambler from its seed (R222, R260). -/
def FecState.txSpan (f : FecState) : FecState := { f with txBits := 0, txLen := 0, txUnits := 0, txScr := scrSeed }

/-! ### The commands -/

def execCodewordRelease (p : Port) (blocks : List RxBlock) (iters : BitVec 16) (parity : List (Fin 384)) (s : State) :
    Host.Outcome State Fault Refusal :=
  s.run (cwRelease p blocks iters.toNat (parity.map (·.val)))

def execTrestleRelease (p : Port) (blocks : List RxBlock) (parity : List (Fin 384)) (s : State) : Host.Outcome State Fault Refusal :=
  s.run (trRelease p blocks (parity.map (·.val)))

end Sys2Proof.Machine
end

