-- ==== Sys2Proof/Machine/Pcs.lean ====
section
/-! DEFINITION.  The PCS of an Ethernet client (R291): RS(544,514), the scrambler, the PCS lanes and their alignment markers. -/

namespace Sys2Proof.Machine

/-! ### RS(544,514) -/

/-- Multiplication in GF(2^10) with x^10 + x^3 + 1. (PRESUMED: log 287) -/
def gf10Mul (a b : Nat) : Nat :=
  (List.range 10).foldl (fun r i =>
    let r := if r.testBit 9 then (2 * r) ^^^ 0x409 else 2 * r
    if b.testBit (9 - i) then r ^^^ a else r) 0

/-- α^n. -/
def gf10Pow (n : Nat) : Nat := (List.range (n % 1023)).foldl (fun r _ => gf10Mul r 2) 1

/-- The inverse of an element: its 1,022nd power. -/
def gf10Inv (a : Nat) : Nat := ((List.range 9).foldl (fun (st : Nat × Nat) _ =>
  let s := gf10Mul st.1 st.1
  (s, gf10Mul st.2 s)) (a, 1)).2

/-- A polynomial, its lowest coefficient first, at a point. -/
def gf10Eval (p : List Nat) (x : Nat) : Nat := p.foldr (fun c a => gf10Mul a x ^^^ c) 0

/-- Product of polynomials, lowest coefficient first. -/
def gf10PolyMul (p q : List Nat) : List Nat :=
  (List.range (p.length + q.length - 1)).map fun n =>
    (List.range (n + 1)).foldl (fun a i => a ^^^ gf10Mul (p.getD i 0) (q.getD (n - i) 0)) 0

/-- The generator: the product of x − α^i for i = 0 to 29. -/
def rsGen : List Nat := (List.range 30).foldl (fun g i => gf10PolyMul g [gf10Pow i, 1]) [1]

/-- One symbol into the encoder's 30 registers, highest power first. -/
def rsShift (gen reg : List Nat) (s : Nat) : List Nat :=
  let f := reg.headD 0 ^^^ s
  (List.range 30).map fun i => reg.getD (i + 1) 0 ^^^ gf10Mul f (gen.getD (29 - i) 0)

/-- The codeword of 514 symbols, first sent first: systematic, its 30 parity symbols last. -/
def rsEncode (msg : List Nat) : List Nat :=
  let gen := rsGen
  msg ++ msg.foldl (rsShift gen) (List.replicate 30 0)

/-- The 30 syndromes of a received word. -/
def rsSyndromes (w : List Nat) : List Nat := (List.range 30).map fun i =>
  let x := gf10Pow i
  w.foldl (fun a s => gf10Mul a x ^^^ s) 0

/-- One step of the search for the error locator: the locator and its length, the last one that failed, its discrepancy and how many
steps ago. -/
structure RsStep where
  loc : List Nat
  len : Nat
  old : List Nat
  dis : Nat
  ago : Nat
deriving DecidableEq, Repr

/-- The locator takes syndrome `n` into account. -/
def RsStep.next (t : RsStep) (syn : List Nat) (n : Nat) : RsStep :=
  let d := (List.range (t.len + 1)).foldl (fun a i => if i ≤ n then a ^^^ gf10Mul (t.loc.getD i 0) (syn.getD (n - i) 0) else a) 0
  if d = 0 then { t with ago := t.ago + 1 }
  else
    let k := gf10Mul d (gf10Inv t.dis)
    let sub := List.replicate t.ago 0 ++ t.old.map (gf10Mul k)
    let loc := (List.range (max t.loc.length sub.length)).map fun i => t.loc.getD i 0 ^^^ sub.getD i 0
    if 2 * t.len ≤ n then ⟨loc, n + 1 - t.len, t.loc, d, 1⟩ else { t with loc := loc, ago := t.ago + 1 }

/-- The received word with at most 15 symbols corrected, and how many were; none when it is uncorrectable (R291, R292). -/
def rsDecode (w : List Nat) : Option (List Nat × Nat) :=
  let syn := rsSyndromes w
  if syn.all (· == 0) then some (w, 0)
  else
    let t := (List.range 30).foldl (fun t n => RsStep.next t syn n) ⟨[1], 0, [1], 1, 1⟩
    let at_ := (List.range 544).filter fun j => gf10Eval t.loc (gf10Pow (1023 - (543 - j))) == 0
    let om := (gf10PolyMul syn t.loc).take 30
    let dloc := (List.range t.loc.length).map fun i => if i % 2 = 0 then t.loc.getD (i + 1) 0 else 0
    let fix := at_.map fun j =>
      let x := gf10Pow (1023 - (543 - j))
      (j, gf10Mul (gf10Mul (gf10Pow (543 - j)) (gf10Eval om x)) (gf10Inv (gf10Eval dloc x)))
    let v := fix.foldl (fun v e => v.set e.1 (v.getD e.1 0 ^^^ e.2)) w
    if at_.length = t.len ∧ t.len ≤ 15 ∧ (rsSyndromes v).all (· == 0) = true then some (v, t.len) else none

/-- The 20 blocks of 257 bits in the message of a codeword, its first symbol's most significant bit first. -/
def rsBlocks (w : List Nat) : List (BitVec 257) :=
  let bits := (w.take 514).flatMap (bitsMsb 10)
  (List.range 20).map fun i => BitVec.ofNat 257 (ofBits ((bits.drop (257 * i)).take 257))

/-- The message symbols of 20 blocks. -/
def blockSymbols (b : List (BitVec 257)) : List Nat :=
  let bits := b.flatMap fun x => bitsMsb 257 x.toNat
  (List.range 514).map fun i => ofBits ((bits.drop (10 * i)).take 10)

/-! ### Scrambling -/

/-- The self-synchronous scrambler x^58 + x^39 + 1: each bit adds the sent bits 39 and 58 before it. -/
def scramble58 : Nat → List Bool → List Bool
  | _, [] => []
  | r, b :: t =>
    let s := b != (r.testBit 38 != r.testBit 57)
    s :: scramble58 ((2 * r + b2n s) % 2 ^ 58) t

/-- The descrambler. -/
def descramble58 : Nat → List Bool → List Bool
  | _, [] => []
  | r, s :: t => (s != (r.testBit 38 != r.testBit 57)) :: descramble58 ((2 * r + b2n s) % 2 ^ 58) t

/-! ### PCS lanes and markers -/

/-- PCS lanes of a client type (R285): 8 of 200GbE, 16 of 400GbE, 32 of 800GbE, 16 of 1.6TbE. -/
def pcsLanes (t : Nat) : Nat := [0, 8, 16, 32, 16].getD t 0

/-- Symbols of two codewords sent in turn, dealt to the PCS lanes one by one. -/
def pcsDeal (n : Nat) (a b : List Nat) : List (List Nat) :=
  let s := (List.zipWith (fun x y => [x, y]) a b).flatten
  (List.range n).map fun l => (List.range (s.length / n)).map fun i => s.getD (n * i + l) 0

/-- The PCS lanes put into one stream again. -/
def pcsGather (lanes : List (List Nat)) : List Nat :=
  let n := lanes.length
  (List.range (n * (lanes.headD []).length)).map fun i => (lanes.getD (i % n) []).getD (i / n) 0

/-- The marker with which lane `l` of `lanes` begins, none where it has none: the lanes in the order their markers name, each from its
marker on, so that lanes arriving early wait for the last (R291). -/
def pcsDeskew (t : Nat) (lanes : List (List Nat)) : Option (List (List Nat)) :=
  let find (k : Nat) : Option (List Nat) := lanes.findSome? fun s =>
    (List.range s.length).findSome? fun i =>
      let m := Config.alignMarker t k
      if (s.drop i).take m.length = m then some (s.drop i) else none
  let l := (List.range (pcsLanes t)).map find
  if l.all Option.isSome then some (l.map (·.getD [])) else none

/-- The lanes without their markers (R291). -/
def pcsUnmark (t : Nat) (lanes : List (List Nat)) : List (List Nat) :=
  (List.range lanes.length).map fun k => (lanes.getD k []).drop (Config.alignMarker t k).length

/-- The lanes with regenerated markers in front (R291). -/
def pcsMark (t : Nat) (lanes : List (List Nat)) : List (List Nat) :=
  (List.range lanes.length).map fun k => Config.alignMarker t k ++ lanes.getD k []

/-- The egress of 40 blocks of 257 bits whose scrambler holds `r`: scrambled, encoded as two codewords and dealt over the PCS lanes,
with markers in front where they are due (R291). -/
def pcsEgress (t r : Nat) (marks : Bool) (blocks : List (BitVec 257)) : List (List Nat) :=
  let bits := scramble58 r (blocks.flatMap fun x => bitsMsb 257 x.toNat)
  let sym (k : Nat) : List Nat := (List.range 514).map fun i => ofBits ((bits.drop (10 * (2 * i + k))).take 10)
  let l := pcsDeal (pcsLanes t) (rsEncode (sym 0)) (rsEncode (sym 1))
  if marks then pcsMark t l else l

end Sys2Proof.Machine
end

