-- ==== Sys2Proof/Machine/Cli.lean ====
section
/-! DEFINITION.  Client lanes (R284–R308): host lanes, client configuration and its errors, ingress failure, the egress
replacement signal. -/

namespace Sys2Proof.Machine

/-! ### Model fields -/

/-- The client's ingress PCS has alignment lock (R293). -/
def CLI.PCS_LOCK : Fld := hid 0 1 0
/-- ERR 3 as the last transmit take found it (R286). -/
def CLI.ERR3 : Fld := hid 4 1 0
/-- Line encryption requires the replacement signal after a failure (R294, R321). -/
def CLI.ENC_REPL : Fld := hid 8 1 0
/-- After a take of encryption RX_EN: 1 until block sync, 2 until a complete multiframe with ENC = 0 (R318). -/
def CLI.ENC_WAIT : Fld := hid 12 2 0
/-- An Ethernet frame is open at egress (R295). -/
def CLI.EG_OPEN : Fld := hid 16 1 0
/-- Traffic waits for a control block or the beginning of a frame (R295). -/
def CLI.EG_WAIT : Fld := hid 20 1 0
/-- The receive joint has underflowed and has not reached the low mark again (R297). -/
def CLI.EG_UNF : Fld := hid 24 1 0
/-- Blocks that have left since an idle block was last inserted or deleted (R274). -/
def CLI.EG_SINCE : Fld := hid 32 20 0xFFFFF
/-- An error block has left in the frame open at egress, or in the last one (R302, R304). -/
def CLI.EG_ERR : Fld := hid 36 1 0
/-- 257B blocks of uncorrectable codewords that have still to enter the transmit joint (R292). -/
def CLI.RS_BAD : Fld := hid 40 16 0
/-- An ENC status bit of 1 came in this multiframe (R318). -/
def CLI.ENC_SEEN : Fld := hid 28 1 0
/-- The host SerDes is held in reset (R572). -/
def SYS.SDS_RST : Fld := hid 0 1 0

/-! ### Clients -/

/-- The lanes of a client, 0 while it is off (R285, R307). -/
def Dev.cliLanes (d : Dev) (c : Fin 32) : Nat :=
  let t := d.get (pgCLI c) CLI.CFG_TYPE
  if t = 5 then 2 ^ d.get (pgCLI c) CLI.CFG_NLANES else [0, 1, 2, 4, 8].getD t 0

/-- An Ethernet client (R285). -/
def Dev.cliEth (d : Dev) (c : Fin 32) : Bool :=
  let t := d.get (pgCLI c) CLI.CFG_TYPE
  decide (1 ≤ t) && decide (t ≤ 4)

/-- The port a client names. -/
def Dev.cliPort (d : Dev) (c : Fin 32) : Port := if d.flag (pgCLI c) CLI.CFG_PORT then 1 else 0

/-- Lane `l` is one of the client's. -/
def Dev.cliHas (d : Dev) (c : Fin 32) (l : Nat) : Bool :=
  let f := d.get (pgCLI c) CLI.CFG_FIRST_LANE
  decide (f ≤ l) && decide (l < f + d.cliLanes c)

/-- A lane is up (R288). -/
def Dev.laneUp (d : Dev) (l : Fin 32) : Bool :=
  d.flag (pgHLN l) HLN.STATUS_SIG_DET && d.flag (pgHLN l) HLN.STATUS_CDR_LOCK && d.flag (pgHLN l) HLN.STATUS_ADAPT_DONE

/-- The slots of a client in a port's live transmit table, ascending (R263). -/
def Dev.txSlots (d : Dev) (p : Port) (c : Nat) : List Nat :=
  (List.range 32).filter fun i =>
    d.flag (pgMAP p) (MAP.TXSLOT_EN.at i) && d.get (pgMAP p) (MAP.TXSLOT_CLIENT.at i) == c

/-- The slots of a client in a port's live receive table, ascending (R263). -/
def Dev.rxSlots (d : Dev) (p : Port) (c : Nat) : List Nat :=
  (List.range 32).filter fun i =>
    d.flag (pgMAP p) (MAP.RXSLOT_EN.at i) && d.get (pgMAP p) (MAP.RXSLOT_CLIENT.at i) == c

/-- A client has a slot dropped for want of truss capacity, so it is carried in none of its slots (R537). -/
def Dev.slotCut (d : Dev) (p : Port) (slots : List Nat) : Bool :=
  slots.any fun i => bitOf (d.get (pgTRS p) TRS.SLOT_DROP_SLOT) i

/-- The mapped rate in 10 kb/s (R285). -/
def Dev.mappedRate (d : Dev) (c : Fin 32) : Nat :=
  let t := d.get (pgCLI c) CLI.CFG_TYPE
  if t = 5 then 21250000 * d.cliLanes c else [0, 20078125, 40156250, 80312500, 160625000].getD t 0

/-- The frame-stream rate F without the constant factors: symbol rate × E × code rate × 49,152 (R262). -/
def RateCfg.fRate (c : RateCfg) : Nat := c.mbd * c.e256 * (if c.trestle then 39936 else 42216)

/-- The client's slots give less than its mapped rate × (1 + 200 ppm); encryption raises the rate by (B + 18)/B
(R262, R286, R314). -/
def Dev.underRate (d : Dev) (c : Fin 32) : Bool :=
  let p := d.cliPort c
  let n := (d.txSlots p c.val).length
  let b := if d.flag pgENC (ENC.TRIB_TX_BSIZE.at c.val) then 4096 else 16384
  let enc := d.flag pgENC (ENC.TRIB_TX_EN.at c.val)
  let need := d.mappedRate c * 10002 * (if enc then b + 18 else b)
  decide (n * 2016 * (d.txCfg p).fRate * 257922 * 10 ^ 9 * b < need * (65536 * 1000 * 131072 * 256 * 49152))

/-- Enabled in some direction (live). -/
def Dev.cliOn (d : Dev) (c : Fin 32) : Bool :=
  d.flag (pgCLI c) CLI.CTL_TX_EN || d.flag (pgCLI c) CLI.CTL_RX_EN

/-- Whether a client ends up disabled, with the lanes held by lower-numbered enabled clients given as a mask: error 1 or
2, else 0 (R286, R304). -/
def Dev.laneErr (d : Dev) (held : Nat) (c : Fin 32) : Nat :=
  let n := d.cliLanes c
  let f := d.get (pgCLI c) CLI.CFG_FIRST_LANE
  if n = 0 then 0 else if f % n ≠ 0 then 1
  else if (List.range n).any (fun i => bitOf held (f + i)) then 2 else 0

/-- ERR of every client, lowest number first (R286). (DEDUCED: log 80) -/
def Dev.cliErrs (d : Dev) : List Nat :=
  ((List.finRange 32).foldl (fun (st : List Nat × Nat) (c : Fin 32) =>
    let e := d.laneErr st.2 c
    if e ≠ 0 then (st.1 ++ [e], st.2)
    else
      let n := d.cliLanes c
      let p := d.cliPort c
      let mask := if d.cliOn c then (2 ^ n - 1) * 2 ^ d.get (pgCLI c) CLI.CFG_FIRST_LANE else 0
      let bare := n != 0 &&
        ((d.flag (pgCLI c) CLI.CTL_TX_EN && (d.txSlots p c.val).isEmpty) ||
         (d.flag (pgCLI c) CLI.CTL_RX_EN && (d.rxSlots p c.val).isEmpty))
      (st.1 ++ [if bare then 4 else if n != 0 && d.flag (pgCLI c) CLI.ERR3 then 3 else 0], st.2 ||| mask)) ([], 0)).1

/-! ### Egress replacement and ingress failure -/

/-- The case for the replacement signal (R294, R304): egress not live, no JC sync, no slots, CSF with CSF_ACT, the line
die gated, or line encryption. -/
def Dev.replNeeded (d : Dev) (c : Fin 32) : Bool :=
  let pg := pgCLI c
  let p := d.cliPort c
  let err := d.get pg CLI.STAT_ERR
  d.cliLanes c != 0 && err != 1 && err != 2 &&
    (!d.flag pg CLI.CTL_RX_EN || !d.flag (pgMAP p) (MAP.PATH_JC_SYNC.at c.val) || err == 4 ||
     (d.flag pg CLI.STATUS_CSF_RX && d.flag pg CLI.CTL_CSF_ACT) || !d.online p ||
     d.flag pg CLI.ENC_REPL || d.get pg CLI.ENC_WAIT != 0 || d.slotCut p (d.rxSlots p c.val))

/-- The replacement signal of a client (R294). -/
def Dev.replSignal (d : Dev) (c : Fin 32) : EgBlock :=
  if d.cliEth c then (if d.flag (pgCLI c) CLI.CTL_REPL then .idle else .localFault)
  else if d.flag (pgCLI c) CLI.CTL_REPL then .electricalIdle else .prbs31q

/-- An error block leaves on a client and is counted (R295–R297). -/
def Dev.egError (d : Dev) (c : Fin 32) : Dev := ((d.bump (pgCLI c) CLI.ERR_BLK_EG 1).putb (pgCLI c) CLI.EG_ERR true).emit (.egress c.val .error)

/-- A block that the joint does not have when it is due: an error block within a frame, idle otherwise; nothing while the replacement
signal is sent (R297). -/
def Dev.egMissing (d : Dev) (c : Fin 32) : Dev :=
  if d.flag (pgCLI c) CLI.STATUS_REPL then d else if d.flag (pgCLI c) CLI.EG_OPEN then d.egError c else d.emit (.egress c.val .idle)

/-- The entry is a frame that leaves on the client (R410). -/
def TlqEntry.onClient (e : TlqEntry) (c : Fin 32) : Bool := e.launched.isSome && !e.req.scc && e.req.num % 32 == c.val

/-- A launch on the client is cut short: its frame ends with an error block (R304). (DEDUCED: log 257) -/
def Dev.launchCut (d : Dev) (c : Fin 32) : Dev :=
  { d with tlq := d.tlq.map fun e => if e.onClient c then { e with cut := true } else e }

/-- The replacement signal starts, after one error block when a frame is open, or ends (R295). (DEDUCED: log 81) -/
def Dev.replCheck (d : Dev) (c : Fin 32) : Dev :=
  let pg := pgCLI c
  let need := d.replNeeded c
  if need && !d.flag pg CLI.STATUS_REPL then
    let d := (d.when (d.flag pg CLI.EG_OPEN) (·.egError c)).launchCut c
    ((d.putb pg CLI.EG_OPEN false).putb pg CLI.STATUS_REPL true).putb pg CLI.EG_WAIT true
  else d.putb pg CLI.STATUS_REPL need

/-- The ingress of a client has failed (R293). -/
def Dev.inFailed (d : Dev) (c : Fin 32) : Bool :=
  d.cliLanes c == 0 || (List.finRange 32).any (fun l => d.cliHas c l.val && !d.laneUp l) ||
    (d.cliEth c && !d.flag (pgCLI c) CLI.PCS_LOCK)

/-- CSF is being sent: a live transmit client whose ingress has failed, or in any case with CSF_FORCE (R293). -/
def Dev.csfTx (d : Dev) (c : Fin 32) : Bool :=
  d.flag (pgCLI c) CLI.CTL_CSF_FORCE || (d.flag (pgCLI c) CLI.STATUS_TX_LIVE && d.cliLanes c != 0 && d.inFailed c)

/-- IN_ALIGN follows the ingress, with IN_UP and IN_DOWN; an Ethernet client whose lane is down has no alignment lock
(R293, R308). -/
def Dev.ingress (d : Dev) (c : Fin 32) : Dev :=
  let pg := pgCLI c
  let cut := (List.finRange 32).any fun l => d.cliHas c l.val && !d.laneUp l
  let d := d.when (cut || !d.cliEth c) (·.putb pg CLI.PCS_LOCK false)
  let d := d.follow pg CLI.STATUS_IN_ALIGN (!d.inFailed c) (some 0) (some 1)
  d.putb pg CLI.STATUS_CSF_TX (d.csfTx c)

/-- Errors, live states, ingress and egress of every client follow the configuration; CFG_ERR when a client comes to an
error (R286, R307, R308). -/
def Dev.cliCheck (d : Dev) : Dev :=
  let errs := d.cliErrs
  (List.finRange 32).foldl (fun d (c : Fin 32) =>
    let pg := pgCLI c
    let e := errs.getD c.val 0
    let was := d.get pg CLI.STAT_ERR
    let d := (d.put pg CLI.STAT_ERR e).when (e != 0 && e != was) (·.ev pg 2)
    let ok := e != 1 && e != 2
    let d := (d.putb pg CLI.STATUS_TX_LIVE (ok && d.flag pg CLI.CTL_TX_EN)).putb pg CLI.STATUS_RX_LIVE
      (ok && d.flag pg CLI.CTL_RX_EN)
    (d.ingress c).replCheck c) d

/-- A transmit take: ERR 3 of every enabled client is tested (R286). -/
def Dev.rate3Check (d : Dev) : Dev :=
  (List.finRange 32).foldl (fun d (c : Fin 32) =>
    d.putb (pgCLI c) CLI.ERR3 (d.flag (pgCLI c) CLI.CTL_TX_EN && d.cliLanes c != 0 && d.underRate c)) d

/-! ### Host lanes -/

/-- The clients of a lane hear of a change of the lane; a launch on a client whose lane goes down is cut (R304). -/
def Dev.laneClients (d : Dev) (l : Fin 32) (down : Bool) : Dev :=
  (List.finRange 32).foldl (fun d (c : Fin 32) => if d.cliHas c l.val then (d.ingress c).when down (·.launchCut c) else d) d

/-- A lane's status bits set, with LANE_UP, LANE_DOWN and HLN_LOS (R288, R306). -/
def Dev.laneSet (d : Dev) (l : Fin 32) (sig cdr done : Bool) : Dev :=
  let pg := pgHLN l
  let was := d.laneUp l
  let d := ((d.putb pg HLN.STATUS_SIG_DET sig).putb pg HLN.STATUS_CDR_LOCK cdr).putb pg HLN.STATUS_ADAPT_DONE done
  let now := d.laneUp l
  let d := d.when (was && !now) fun d => (d.bump pg HLN.LOS 1).ev pg 0
  let d := d.when (now && !was) (·.ev pg 1)
  if was = now then d else d.laneClients l was

/-- The lane's receiver works: enabled, the SerDes out of reset (R288, R572). -/
def Dev.laneRx (d : Dev) (l : Fin 32) : Bool := d.flag (pgHLN l) HLN.CTL_RX_EN && !d.flag pgSYS SYS.SDS_RST

/-- SIG_DET: the receiver has signal and begins to adapt (R288). -/
def sigDetDo (l : Fin 32) (d : Dev) : Dev :=
  if d.laneRx l && !d.flag (pgHLN l) HLN.STATUS_SIG_DET then d.laneSet l true false false else d

/-- ADAPT_DONE: equaliser and CDR have settled (R288). -/
def adaptDoneDo (l : Fin 32) (snr : Nat) (d : Dev) : Dev :=
  if d.laneRx l && d.flag (pgHLN l) HLN.STATUS_SIG_DET then (d.put (pgHLN l) HLN.RX_SNR_SNR snr).laneSet l true true true else d

/-- LANE_DOWN: signal or CDR lock is lost (R306). -/
def laneDownDo (l : Fin 32) (signal : Bool) (d : Dev) : Dev :=
  d.laneSet l (!signal && d.flag (pgHLN l) HLN.STATUS_SIG_DET) false false

/-- What a lane transmits, and what its receiver hears, after a change of HLN_CTL or HLN_PRBS (R305). (DEDUCED: log 286) -/
def Dev.laneShow (d : Dev) (l : Fin 32) : Dev :=
  let pg := pgHLN l
  let gen := d.get pg HLN.PRBS_GEN
  let loop := d.get pg HLN.CTL_LOOP
  let src := if !d.flag pg HLN.STATUS_TX_ON then 0 else if gen ≠ 0 then 1 + gen else if loop = 2 then 5 else 1
  d.emit (.laneSignal l.val src (d.flag pg HLN.CTL_TX_INV) (loop == 1) (d.flag pg HLN.CTL_RX_INV))

/-- The checker of a lane has run on: it has checked some bits and found some errors, and is locked or not (R305). (DEDUCED: log 25) -/
def Dev.prbsRun (d : Dev) (l : Fin 32) : Dev :=
  let pg := pgHLN l
  if d.flag pg HLN.PRBS_CHK then
    let n := d.free
    let d := (d.bump pg HLN.PRBS_BITS n).used
    let e := d.free
    let d := (d.bump pg HLN.PRBS_ERR (e % (n + 1))).used
    (d.put pg HLN.STATUS_PRBS_LOCK (d.free % 2)).used
  else d

/-- A host write of HLN_PRBS: generator and checker (R305). -/
def hlnPrbsWrite (l : Fin 32) (w : Word) (d : Dev) : Dev :=
  let pg := pgHLN l
  let d := (d.prbsRun l).putWs pg [HLN.PRBS_GEN, HLN.PRBS_CHK] w
  (d.when (!d.flag pg HLN.PRBS_CHK) (·.putb pg HLN.STATUS_PRBS_LOCK false)).laneShow l

/-- A host write of HLN_CTL: RX_EN = 0 stops the receiver, ADAPT_RESTART restarts adaptation (R288, R305). -/
def hlnCtlWrite (l : Fin 32) (w : Word) (d : Dev) : Dev :=
  let pg := pgHLN l
  let d := d.putWs pg [HLN.CTL_TX_EN, HLN.CTL_RX_EN, HLN.CTL_TX_INV, HLN.CTL_RX_INV, HLN.CTL_LOOP] w
  let d := d.putb pg HLN.STATUS_TX_ON (d.flag pg HLN.CTL_TX_EN && !d.flag pgSYS SYS.SDS_RST)
  let d := d.laneShow l
  if !d.flag pg HLN.CTL_RX_EN then d.laneSet l false false false
  else if bitOf w.toNat 8 then d.laneSet l (d.flag pg HLN.STATUS_SIG_DET) (d.flag pg HLN.STATUS_CDR_LOCK) false
  else d

/-- The five transmit taps as written, c(−3) to c(+1) (R305). (DEDUCED: log 76) -/
def Dev.ffeRaw (d : Dev) (l : Fin 32) : List Int :=
  let pg := pgHLN l
  [sOf 6 (d.get pg HLN.TXFFE0_CM3), sOf 6 (d.get pg HLN.TXFFE0_CM2), sOf 6 (d.get pg HLN.TXFFE0_CM1),
   (d.get pg HLN.TXFFE1_C0 : Int), sOf 6 (d.get pg HLN.TXFFE1_CP1)]

/-- The sum of the tap magnitudes. -/
def ffeSum (t : List Int) : Nat := t.foldl (fun a x => a + x.natAbs) 0

/-- The taps in force: scaled by 64/sum, truncating toward zero, when the sum exceeds 64 (R289). -/
def ffeTaps (t : List Int) : List Int :=
  if 64 < ffeSum t then t.map fun x => Int.tdiv (x * 64) (ffeSum t : Int) else t

/-- HLN_TXFFE_WRITE: the taps written, scaled into force; FFE_CLAMP while they are scaled (R289). -/
def txffeWrite (l : Fin 32) (one : Bool) (w : Word) (d : Dev) : Dev :=
  let pg := pgHLN l
  let d := if one then d.putWs pg [HLN.TXFFE1_C0, HLN.TXFFE1_CP1] w
    else d.putWs pg [HLN.TXFFE0_CM3, HLN.TXFFE0_CM2, HLN.TXFFE0_CM1] w
  (d.putb pg HLN.STATUS_FFE_CLAMP (decide (64 < ffeSum (d.ffeRaw l)))).emit (.laneTaps l.val (ffeTaps (d.ffeRaw l)))

/-! ### Client commands -/

/-- CLI_CFG_WRITE: ignored with CFG_LOCK while an enable is live or pending (R287). -/
def cliCfgWriteDo (c : Fin 32) (w : Word) (d : Dev) : Dev :=
  let pg := pgCLI c
  if d.flag pg CLI.CTL_TX_EN || d.flag pg CLI.CTL_RX_EN || d.pget pg CLI.CTL_TX_EN != 0 || d.pget pg CLI.CTL_RX_EN != 0 then
    d.putb pg CLI.STAT_CFG_LOCK true
  else
    ((d.putWs pg [CLI.CFG_TYPE, CLI.CFG_NLANES, CLI.CFG_FIRST_LANE, CLI.CFG_PORT] w).putb pg CLI.PCS_LOCK false).cliCheck

/-- RS_CODEWORD: corrected symbols, or an uncorrectable codeword, whose 20 blocks enter the joint marked as errored (R292). -/
def rsCodewordDo (c : Fin 32) (corr : Option Nat) (frames : Nat) (d : Dev) : Dev :=
  let pg := pgCLI c
  if d.cliEth c then
    let d := d.bump pg CLI.FRAMES_IN frames
    match corr with
    | some n => d.bump pg CLI.RS_CORR n
    | none => (d.bump pg CLI.RS_UNC 1).bumpSat pg CLI.RS_BAD 20
  else d

/-- A 257B block whose synchronisation header is corrupted: it claims control blocks and names none, so that the far end decodes
error blocks (R292). (PRESUMED: log 285) -/
def erroredBlock (b : BitVec 257) : BitVec 257 := 0b01111#5 ++ b.extractLsb' 0 252

/-- The bits of a transparent client's mapped stream: 40-bit units, round-robin by lane (R285). -/
def roundRobin (lanes : List (List (BitVec 40))) : List Bool :=
  let n := (lanes.map (·.length)).foldl max 0
  ((List.range n).map fun i => (lanes.filterMap (·[i]?)).flatMap fun u => bitsMsb 40 u.toNat).flatten

/-- The bits of a client's mapped stream: its 257B blocks, those of an uncorrectable codeword marked, or its lane bits (R285, R292). -/
def Dev.mappedBits (d : Dev) (c : Fin 32) (x : Ingress) : List Bool :=
  if d.cliEth c then
    let n := d.get (pgCLI c) CLI.RS_BAD
    ((x.blocks.take n).map erroredBlock ++ x.blocks.drop n).flatMap fun b => bitsMsb 257 b.toNat
  else roundRobin (x.lanes.take (d.cliLanes c))

/-- So many blocks have entered the transmit joint. -/
def Dev.rsTaken (d : Dev) (c : Fin 32) (n : Nat) : Dev := d.put (pgCLI c) CLI.RS_BAD (d.get (pgCLI c) CLI.RS_BAD - n)

/-- PCS_ALIGNMENT_LOCK (R293). -/
def pcsLock (c : Fin 32) (lock : Bool) (skew : Nat) (d : Dev) : Dev :=
  let pg := pgCLI c
  ((d.putb pg CLI.PCS_LOCK lock).put pg CLI.STAT_SKEW skew).ingress c

/-! ### The commands -/

def execSigDet (l : Fin 32) (s : State) : Host.Outcome State Fault Refusal := s.run (sigDetDo l)

def execAdaptDone (l : Fin 32) (snr : BitVec 12) (s : State) : Host.Outcome State Fault Refusal :=
  s.run (adaptDoneDo l snr.toNat)

def execLaneDown (l : Fin 32) (signal : Bool) (s : State) : Host.Outcome State Fault Refusal := s.run (laneDownDo l signal)

/-- ADAPT_RESTART: a write of HLN_CTL whose ADAPT_RESTART bit is 1. -/
def execAdaptRestart (l : Fin 32) (w : Word) (s : State) : Host.Outcome State Fault Refusal :=
  s.run (hlnCtlWrite l (w ||| 0x100#32))

def execHlnTxffeWrite (l : Fin 32) (one : Bool) (w : Word) (s : State) : Host.Outcome State Fault Refusal :=
  s.run (txffeWrite l one w)

/-- RS_CODEWORD: the decoder corrects the 544 symbols of the codeword or cannot (R291, R292). -/
def execRsCodeword (c : Fin 32) (cw : List (BitVec 10)) (frames : BitVec 8) (s : State) : Host.Outcome State Fault Refusal :=
  s.run (rsCodewordDo c ((rsDecode (cw.map (·.toNat))).map (·.2)) frames.toNat)

def execPcsAlignmentLock (c : Fin 32) (lock : Bool) (skew : BitVec 8) (s : State) : Host.Outcome State Fault Refusal :=
  s.run (pcsLock c lock skew.toNat)

end Sys2Proof.Machine
end

