-- ==== Sys2Proof/Machine/Enc.lean ====
section
/-! DEFINITION.  Line encryption (R309–R346): key slots, transmit sequence, receive block sync, shadows and retirement,
failures, tributary states. -/

namespace Sys2Proof.Machine

/-! ### Model fields -/

/-- A disagreement forced by ENC_TEST waits for the next unit, by direction (R343). -/
def ENC.INJ_PEND : Fld := ⟨0x1000, 0, 1, .ro, 0, 4, 2, false⟩

/-- One second in hub datapath clocks. -/
def ticksPerSec : Nat := 1406250000

/-- The encryption state changed. -/
def Dev.encUpdS (d : Dev) (f : EncState → EncState) : Dev := { d with enc := f d.enc }

/-- A tributary's transmit sequence; a fresh one before its first block. -/
def Dev.encTx (d : Dev) (c : Fin 32) : EncTx := (AMap.find? d.enc.tx c.val).getD ⟨0, 0, true, false, false, false, none, 0, 0, none, 0, 0, none⟩

/-- A tributary's receive side. -/
def Dev.encRx (d : Dev) (c : Fin 32) : EncRx :=
  (AMap.find? d.enc.rx c.val).getD ⟨0, 0, false, 0, 0, 0, 0, false, false, false, false, 0, none, [], none, 0, 0, 0, false, []⟩

/-- The transmit sequence replaced. -/
def Dev.setEncTx (d : Dev) (c : Fin 32) (x : EncTx) : Dev := d.encUpdS fun e => { e with tx := AMap.insert e.tx c.val x }

/-- The receive side replaced. -/
def Dev.setEncRx (d : Dev) (c : Fin 32) (x : EncRx) : Dev := d.encUpdS fun e => { e with rx := AMap.insert e.rx c.val x }

/-! ### Key slots (R335–R339) -/

/-- The slot SLOT_A or SLOT_B that a selection names. -/
def Dev.slotOf (d : Dev) (c : Fin 32) (sel : Bool) : Nat :=
  d.get pgENC ((if sel then ENC.TRIB_SLOT_B else ENC.TRIB_SLOT_A).at c.val)

/-- The current transmit slot of a tributary (R339). -/
def Dev.txSlot (d : Dev) (c : Fin 32) : Nat := d.slotOf c (d.flag pgENC (ENC.TRIB_TX_SEL.at c.val))

/-- The current receive slot of a tributary. -/
def Dev.rxSlot (d : Dev) (c : Fin 32) : Nat := d.slotOf c (d.flag pgENC (ENC.TRIB_RX_SEL.at c.val))

/-- A slot holds keys (R335). -/
def Dev.slotLoaded (d : Dev) (k : Nat) : Bool := (AMap.find? d.enc.keys k).isSome

/-- The generation of a slot. -/
def Dev.slotGen (d : Dev) (k : Nat) : Nat := d.get pgKEYS (KEYS.SLOT_GEN.at k)

/-- TX_LIVE of a slot (R345). -/
def Dev.slotTxLive (d : Dev) (k : Nat) : Bool :=
  (List.finRange 32).any fun c => d.flag pgENC (ENC.TRIB_TX_EN.at c.val) && d.txSlot c == k

/-- RX_LIVE of a slot (R345). -/
def Dev.slotRxLive (d : Dev) (k : Nat) : Bool :=
  (List.finRange 32).any fun c => d.flag pgENC (ENC.TRIB_RX_EN.at c.val) && d.rxSlot c == k

/-- ARMED_REF: named current by a pending selection whose EN is pending, under an armed commit of the ENC page (R336). -/
def Dev.slotArmed (d : Dev) (k : Nat) : Bool :=
  (AMap.find? d.commits pgENC).isSome && (List.finRange 32).any fun c =>
    (d.pget pgENC (ENC.TRIB_TX_EN.at c.val) != 0 && d.slotOf c (d.pget pgENC (ENC.TRIB_TX_SEL.at c.val) != 0) == k) ||
    (d.pget pgENC (ENC.TRIB_RX_EN.at c.val) != 0 && d.slotOf c (d.pget pgENC (ENC.TRIB_RX_SEL.at c.val) != 0) == k)

/-- LATCHED: a block in flight has latched the slot in its present generation (R336).  On transmit it is the block whose header has
been sent, with the one after it, until the data run dry (R316); on receive the block that follows the last complete one. (DEDUCED: log 288) -/
def Dev.slotLatched (d : Dev) (k : Nat) : Bool :=
  let g := some (k, d.slotGen k)
  d.enc.tx.any (fun e => e.2.latch == g || (e.2.latch.isSome && e.2.next == g)) || d.enc.rx.any (fun e => e.2.next == g)

/-- The slot and generation that a block latching now takes: the slot, while it holds keys (R336). -/
def Dev.latchNow (d : Dev) (k : Nat) : Option (Nat × Nat) := if d.slotLoaded k then some (k, d.slotGen k) else none

/-- What a block latches: what was settled one block ahead while its generation still stands, else the slot `k` of its span, or the
current slot `cur` where that one holds no keys (R311, R320, R336). (DEDUCED: log 255) -/
def Dev.latchDue (d : Dev) (next : Option (Nat × Nat)) (k cur : Nat) : Option (Nat × Nat) :=
  let fresh := if d.slotLoaded k then d.latchNow k else d.latchNow cur
  match next with
  | some l => if l.2 = d.slotGen l.1 then some l else fresh
  | none => fresh

/-- A slot is in use (R336). -/
def Dev.slotInUse (d : Dev) (k : Nat) : Bool := d.slotTxLive k || d.slotRxLive k || d.slotArmed k || d.slotLatched k

/-- STATE of a slot: 0 EMPTY, 1 LOADED, 2 IN_USE (R345). -/
def Dev.slotState (d : Dev) (k : Nat) : Nat := if !d.slotLoaded k then 0 else if d.slotInUse k then 2 else 1

/-- Slots that are EMPTY (R345). -/
def Dev.slotsEmpty (d : Dev) : Nat := (List.range 64).countP fun k => !d.slotLoaded k

/-- The lowest tributary naming a slot, 0 when none does (R345). -/
def Dev.slotTrib (d : Dev) (k : Nat) : Nat :=
  match (List.finRange 32).find? (fun c => d.slotOf c false == k || d.slotOf c true == k) with
  | some c => c.val
  | none => 0

/-- KEYS_LAST (R345). -/
def Dev.keysLast (d : Dev) (slot op res gen : Nat) : Dev :=
  (((d.put pgKEYS KEYS.LAST_SLOT slot).put pgKEYS KEYS.LAST_OP op).put pgKEYS KEYS.LAST_RESULT res).put pgKEYS KEYS.LAST_GEN gen

/-- The generation after an install or erase: it wraps from 0xFFFF to 1 (R335). -/
def nextGen (g : Nat) : Nat := if g = 0xFFFF then 1 else g + 1

/-! ### Rates and capacity (R314, R322, R323) -/

/-- The encrypted mapped rate in 10 kb/s × B, with B (R314). -/
def Dev.encRate (d : Dev) (c : Fin 32) (tx : Bool) : Nat :=
  let b := if d.flag pgENC ((if tx then ENC.TRIB_TX_BSIZE else ENC.TRIB_RX_BSIZE).at c.val) then 4096 else 16384
  -- in 10 kb/s × 16,384, which both block sizes divide
  d.mappedRate c * (b + 18) * (16384 / b)

/-- Encryption is live on a side of a live client (R341). -/
def Dev.encOn (d : Dev) (c : Fin 32) (tx : Bool) : Bool :=
  if tx then d.flag (pgCLI c) CLI.STATUS_TX_LIVE && d.flag pgENC (ENC.TRIB_TX_EN.at c.val)
  else d.flag (pgCLI c) CLI.STATUS_RX_LIVE && d.flag pgENC (ENC.TRIB_RX_EN.at c.val)

/-- The side is held for capacity. -/
def Dev.encCap (d : Dev) (c : Fin 32) (tx : Bool) : Bool := if tx then (d.encTx c).cap else (d.encRx c).cap

/-- The capacity hold of a side set or cleared. -/
def Dev.setCap (d : Dev) (c : Fin 32) (tx b : Bool) : Dev :=
  if tx then d.setEncTx c { d.encTx c with cap := b } else d.setEncRx c { d.encRx c with cap := b }

/-- The sum of R323 over the sides not held for capacity, in 10 kb/s × 16,384. -/
def Dev.encSum (d : Dev) (tx : Bool) : Nat :=
  ((List.finRange 32).map fun c => if d.encOn c tx && !d.encCap c tx then d.encRate c tx else 0).foldl (· + ·) 0

/-- The pipelines' share of a side, in units of a thousandth of a pipeline: in proportion to its encrypted mapped rate (R322). -/
def Dev.encShare (d : Dev) (c : Fin 32) (tx : Bool) : Nat := if d.encOn c tx then 1000 * d.encRate c tx / (18000000 * 16384) else 0

/-- The capacity of a direction: 180 Gb/s a pipeline (R323). -/
def Dev.encCapacity (d : Dev) (tx : Bool) : Nat :=
  18000000 * 16384 * d.get pgENC (if tx then ENC.STATUS_TX_ACTIVE else ENC.STATUS_RX_ACTIVE)

/-- Sides are held for capacity in descending number until the sum fits; CAP_EXCEEDED when any is (R323). (DEDUCED: log 94) -/
def Dev.capHold (d : Dev) (tx : Bool) (among : Fin 32 → Bool) : Dev :=
  let r := (List.finRange 32).reverse.foldl (fun (st : Dev × Bool) c =>
    if st.1.encCapacity tx < st.1.encSum tx && among c && st.1.encOn c tx && !st.1.encCap c tx then
      (st.1.setCap c tx true, true)
    else st) (d, false)
  r.1.when r.2 (·.ev pgENC 13)

/-- At a take, holds of sides that no longer encrypt end, and others that fit again, lowest number first. -/
def Dev.capFree (d : Dev) (tx : Bool) (fresh : Fin 32 → Bool) : Dev :=
  (List.finRange 32).foldl (fun d c =>
    if !d.encCap c tx then d
    else if !d.encOn c tx then d.setCap c tx false
    else if !fresh c && decide (d.encSum tx + d.encRate c tx ≤ d.encCapacity tx) then d.setCap c tx false
    else d) d

/-! ### Tributary states (R341) -/

/-- The port's SCC is up. -/
def Dev.sccUp (d : Dev) (p : Port) : Bool := d.flag (pgSCC p) SCC.STAT_UP

/-- HELD reasons of a side, as the bits of WHY (R341, R343). -/
def Dev.encWhy (d : Dev) (c : Fin 32) (tx : Bool) : Nat :=
  if tx then
    let x := d.encTx c
    b2n (!d.slotLoaded (d.txSlot c)) + 2 * b2n x.ivg + 4 * b2n x.cap + 16 * b2n x.scc
  else
    let x := d.encRx c
    b2n (!d.slotLoaded (d.rxSlot c)) + 4 * b2n x.cap + 8 * b2n (d.get pgENC (ENC.TRIB_STAT_SYNC.at c.val) != 3) +
      16 * b2n x.scc

/-- The state of a side: 0 OFF, 1 CLEAR, 2 HELD, 3 RUN (R341). -/
def Dev.encSide (d : Dev) (c : Fin 32) (tx : Bool) : Nat :=
  if !d.flag (pgCLI c) (if tx then CLI.STATUS_TX_LIVE else CLI.STATUS_RX_LIVE) then 0
  else if !d.encOn c tx then 1 else if d.encWhy c tx = 0 then 3 else 2

/-- HELD and RELEASED (R344). (DEDUCED: log 89) -/
def Dev.heldEv (d : Dev) (was now : Nat) : Dev :=
  (d.when (now == 2 && was != 2) (·.ev pgENC 7)).when (was == 2 && now != 2) (·.ev pgENC 8)

/-- The states of a tributary follow their conditions (R318, R341, R343, R344). -/
def Dev.encStat (d : Dev) (c : Fin 32) : Dev :=
  let up := d.sccUp (d.cliPort c)
  let t := d.encTx c
  let r := d.encRx c
  let d := (d.setEncTx c { t with scc := t.scc && !up }).setEncRx c { r with scc := r.scc && !up }
  let f (x : Fld) := x.at c.val
  let wasWhy := d.get pgENC (f ENC.TRIB_STAT_WHY)
  let tn := d.encSide c true
  let rn := d.encSide c false
  let d := (d.heldEv (d.get pgENC (f ENC.TRIB_STAT_TX_STATE)) tn).heldEv (d.get pgENC (f ENC.TRIB_STAT_RX_STATE)) rn
  let why := (if tn = 2 then d.encWhy c true else 0) ||| (if rn = 2 then d.encWhy c false else 0)
  let d := d.when (bitOf why 1 && !bitOf wasWhy 1) (·.ev pgENC 9)
  let d := ((d.put pgENC (f ENC.TRIB_STAT_TX_STATE) tn).put pgENC (f ENC.TRIB_STAT_RX_STATE) rn).put pgENC (f ENC.TRIB_STAT_WHY) why
  let d := d.putBit pgENC ENC.HELD_TRIB c.val (tn == 2 || rn == 2)
  let d := d.when (rn == 0) (·.put (pgCLI c) CLI.ENC_WAIT 0)
  let d := d.putb (pgCLI c) CLI.ENC_REPL (rn == 2 || (rn == 3 && (r.frepl || r.erased)))
  d.replCheck c

/-- The states of every tributary, and ENC_LOAD in Gb/s (R343). -/
def Dev.encCheck (d : Dev) : Dev :=
  let d := (List.finRange 32).foldl (fun d c => d.encStat c) d
  (d.put pgENC ENC.LOAD_TX (satN 13 (d.encSum true / (100000 * 16384)))).put pgENC ENC.LOAD_RX
    (satN 13 (d.encSum false / (100000 * 16384)))

/-! ### Pipelines (R324–R327) -/

/-- A pair of a direction is retired: a standby takes its share, or the capacity falls (R323, R327). -/
def Dev.pipeRetire (d : Dev) (tx : Bool) (pipe : Nat) : Dev :=
  let f := if tx then (if pipe < 32 then ENC.TX_RETIRED_LO_MAP else ENC.TX_RETIRED_HI_MAP)
    else (if pipe < 32 then ENC.RX_RETIRED_LO_MAP else ENC.RX_RETIRED_HI_MAP)
  let d := (d.putBit pgENC f (pipe % 32) true).ev pgENC 3
  let sb := if tx then ENC.STANDBY_TX else ENC.STANDBY_RX
  let act := if tx then ENC.STATUS_TX_ACTIVE else ENC.STATUS_RX_ACTIVE
  if d.get pgENC sb = 0 then ((d.put pgENC act (d.get pgENC act - 1)).capHold tx (fun _ => true)).encCheck
  else
    let d := d.put pgENC sb (d.get pgENC sb - 1)
    d.when (d.get pgENC sb == 0) (·.ev pgENC 4)

/-- The pair is retired already. -/
def Dev.pipeGone (d : Dev) (tx : Bool) (pipe : Nat) : Bool :=
  let f := if tx then (if pipe < 32 then ENC.TX_RETIRED_LO_MAP else ENC.TX_RETIRED_HI_MAP)
    else (if pipe < 32 then ENC.RX_RETIRED_LO_MAP else ENC.RX_RETIRED_HI_MAP)
  bitOf (d.get pgENC f) (pipe % 32)

/-- A standby pair is left. -/
def Dev.standby (d : Dev) (tx : Bool) : Bool := d.get pgENC (if tx then ENC.STANDBY_TX else ENC.STANDBY_RX) != 0

/-- A keystream disagreement of a pair: the third within any 1 s retires it (R327). -/
def Dev.pipeHit (d : Dev) (tx : Bool) (pipe : Nat) : Dev :=
  if d.pipeGone tx pipe then d
  else
    let k := (if tx then 0 else 64) + pipe
    let l := ((AMap.find? d.enc.hits k).getD []).filter fun t => decide (d.ticks ≤ t + ticksPerSec)
    let l := d.ticks :: l
    let d := d.encUpdS fun e => { e with hits := AMap.insert e.hits k (l.take 2) }
    if 3 ≤ l.length then d.pipeRetire tx pipe else d

/-- The keystream disagreements of a block, one after the other: a standby pair that takes over from the one it retires reproduces
the unit, so those that remain are answered too (R327, R342). (DEDUCED: log 289) -/
def Dev.pipeHits (d : Dev) (tx : Bool) (miss : List (Nat × Nat)) : Dev × List (Nat × Nat) :=
  miss.foldl (fun (st : Dev × List (Nat × Nat)) m =>
    let e := st.1.pipeHit tx m.1
    (e, if st.1.standby tx && !st.1.pipeGone tx m.1 && e.pipeGone tx m.1 then st.2 else st.2 ++ [m])) (d, [])

/-! ### Erase and install (R335–R338) -/

/-- A log entry, or the overflow of a full log of 16 (R328, R342, R343). -/
def Dev.encLogAdd (d : Dev) (x : EncLog) : Dev :=
  if d.enc.log.length < 16 then d.encUpdS fun e => { e with log := e.log ++ [x] }
  else (d.putb pgENC ENC.LOG_STAT_OVF true).ev pgENC 15

/-- A received block fails with a kind: 0 AUTH, 1 UNTRUSTED, 2 REPLAY, 3 HDR (R328, R329, R344). (DEDUCED: log 91) -/
def Dev.encFail (d : Dev) (c : Fin 32) (kind span ctr : Nat) : Dev :=
  let d := if kind = 1 then ((d.putBit pgENC ENC.UNTRUSTED_TRIB c.val true).ev pgENC 1).bump pgENC ENC.RX_UNTRUSTED 1
    else
      let d := d.putBit pgENC ENC.AUTH_FAIL_TRIB c.val true
      if kind = 2 then (d.ev pgENC 10).bump pgENC ENC.REPLAYS 1 else (d.ev pgENC 0).bump pgENC ENC.AUTH_FAILS 1
  let d := (d.encLogAdd ⟨c.val, kind, span, ctr % 2 ^ 24⟩).bumpSat pgENC (ENC.TRIB_STAT_FAILRUN.at c.val) 1
  let r := d.encRx c
  let n := d.get pgENC ENC.CTL_FAIL_REPL
  let cut := !d.cliEth c || !d.flag pgENC (ENC.TRIB_HOLD_EN.at c.val)
  let hit := cut && n != 0 && decide (n ≤ d.get pgENC (ENC.TRIB_STAT_FAILRUN.at c.val)) && !r.frepl
  (d.setEncRx c { r with pass := 0, frepl := r.frepl || hit }).when hit (·.ev pgENC 11)

/-- The key of the record of a slot and generation. -/
def genKey (l : Nat × Nat) : Nat := l.1 * 65536 + l.2

/-- A block verifies (R321, R329, R338). -/
def Dev.encPass (d : Dev) (c : Fin 32) : Dev :=
  let d := d.put pgENC (ENC.TRIB_STAT_FAILRUN.at c.val) 0
  let r := d.encRx c
  let n := r.pass + 1
  let free := decide (max 1 (d.get pgENC ENC.CTL_PASS_REL) ≤ n)
  d.setEncRx c { r with pass := min 15 n, frepl := r.frepl && !free, erased := false,
                        last := match r.latch with | some l => AMap.insert r.last (genKey l) (r.span, r.ctr) | none => r.last }

/-- One slot erased: keys gone, generation advanced, blocks in flight on it terminated, what they have still to send as zero bytes
(R338). -/
def Dev.eraseSlot (d : Dev) (k : Nat) : Dev :=
  let g := d.slotGen k
  let d := (d.encUpdS fun e => { e with keys := AMap.erase e.keys k }).put pgKEYS (KEYS.SLOT_GEN.at k) (nextGen g)
  (List.finRange 32).foldl (fun d c =>
    let t := d.encTx c
    let d := if t.latch = some (k, g) then ((d.setEncTx c { t with latch := none }).bump pgENC ENC.ERASE_TERM 1).emit (.encZeros c.val) else d
    let r := d.encRx c
    if r.next = some (k, g) then
      ((d.setEncRx c { r with next := none, erased := true, term := true }).bump pgENC ENC.ERASE_TERM 1).encFail c 0
        (if r.ns then (r.span + 1) % m48 else r.span) (if r.ns then 0 else r.ctr + 1)
    else d) { d with enc := { d.enc with erasedAt := AMap.insert d.enc.erasedAt k d.ticks } }

/-- ERASE of one slot (R338, R346). -/
def Dev.keyErase (d : Dev) (k : Nat) : Dev :=
  let used := d.slotInUse k
  let d := (((d.eraseSlot k).bump pgKEYS KEYS.ERASES 1).ev pgKEYS 1).when used (·.ev pgKEYS 3)
  (d.keysLast k 2 1 (d.slotGen k)).encCheck

/-- Erase of every slot, by the host or by zeroisation (R338, R346). -/
def Dev.keyEraseAll (d : Dev) : Dev :=
  let used := (List.range 64).any d.slotInUse
  let d := (List.range 64).foldl (fun d k => d.eraseSlot k) d
  let d := (((d.bump pgKEYS KEYS.ERASES 64).ev pgKEYS 1).ev pgKEYS 7).when used (·.ev pgKEYS 3)
  (d.keysLast 0 3 1 0).encCheck

/-- An install by the keystone: refused with BUSY for a slot in use, unless the slot is erased at the same instant (R335, R337,
R342). (DEDUCED: log 290) -/
def Dev.keyInstall (d : Dev) (k tx rx : Nat) : Dev × Bool :=
  if d.slotInUse k && AMap.find? d.enc.erasedAt k != some d.ticks then
    ((((d.bump pgKEYS KEYS.REFUSED 1).ev pgKEYS 2).keysLast k 1 2 (d.slotGen k)), false)
  else
    let d := (d.encUpdS fun e => { e with keys := AMap.insert e.keys k (tx, rx) }).put pgKEYS (KEYS.SLOT_GEN.at k)
      (nextGen (d.slotGen k))
    (((((d.bump pgKEYS KEYS.INSTALLS 1).ev pgKEYS 0).keysLast k 1 1 (d.slotGen k)).encCheck), true)

/-- A host write of KEYS_CMD; ERASE_ALL wins over ERASE (R338, R345). -/
def keysCmdWrite (w : Word) (d : Dev) : Dev :=
  let d := d.putW pgKEYS KEYS.CMD_SLOT w
  if bitOf w.toNat 9 then d.keyEraseAll
  else if bitOf w.toNat 8 then d.keyErase (d.get pgKEYS KEYS.CMD_SLOT) else d

/-! ### Transmit (R310, R313, R315–R317, R325) -/

/-- A block header (R313). -/
def encHeader (void ns : Bool) (span ctr : Nat) : Nat :=
  (if void then 0x5000 else 0xA000) + (if ns then 0x800 else 0) + span % 4 * 0x200 + ctr % 512

/-- The IV of a block (R310). -/
def encIv (c span ctr : Nat) : Nat := c * 2 ^ 88 + span * 2 ^ 40 + ctr

/-- The key of an IV record. -/
def ivKey (c slot gen : Nat) : Nat := (c * 64 + slot) * 65536 + gen

/-- The keystream that a tributary's store holds on transmit, by IV: that of the block in use and of the next one, block size + 16 bytes
each (R322). -/
def Dev.encStore (d : Dev) (c : Fin 32) : List (Nat × List Nat) :=
  let x := d.encTx c
  let ks (l : Option (Nat × Nat)) (size iv : Nat) : List (Nat × List Nat) := match l.bind fun l => AMap.find? d.enc.keys l.1 with
    | some k => [(iv, Config.gcmCounter k.1 iv (List.replicate (size + 16) 0))]
    | none => []
  ks x.latch x.size (encIv c.val x.span (x.ctr - 1)) ++ ks x.next x.nsize (encIv c.val x.span x.ctr)

/-- The sequence starts or the key changes: the block's span index must be later than the record of its key (R317). (DEDUCED: log 93) -/
def Dev.ivgCheck (d : Dev) (c : Fin 32) (k span : Nat) : Bool :=
  match AMap.find? d.enc.ivRec (ivKey c.val k (d.slotGen k)) with
  | none => false
  | some r => decide (diff48 span r ≤ 0)

/-- A forced disagreement of a direction is taken (R343). -/
def Dev.injTake (d : Dev) (dir : Nat) : Bool × Dev :=
  let f := ENC.INJ_PEND.at dir
  if d.flag pgENC f then (true, (d.putb pgENC f false).bump pgENC ENC.INJ 1) else (false, d)

/-- The block size live for transmit (R312). -/
def Dev.encTxSize (d : Dev) (c : Fin 32) : Nat := if d.flag pgENC (ENC.TRIB_TX_BSIZE.at c.val) then 4096 else 16384

/-- The payload bits of a block of `n` bits and the bits of an idle unit it leaves for the next: what the block before owes, the data, and
what completes the block once the data end: idle units, the last one going on to its end, or zero bits (R312, R316). (DESIGN CHOICE: log 241) -/
def blockPayload (eth : Bool) (n owed : Nat) (data : List Bool) : List Bool × Nat :=
  let head := (List.range owed).map fun i => Config.idleUnit (257 - owed + i)
  let l := (head ++ data).take n
  let left := n - l.length
  if eth then (l ++ (List.range left).map fun i => Config.idleUnit (i % 257), (257 - left % 257) % 257)
  else (l ++ List.replicate left false, 0)

/-- The body of a DATA block: ciphertext and tag of the payload bytes, most significant bit first, with the header as additional data
(R310, R312). -/
def Dev.encBody (d : Dev) (latch : Option (Nat × Nat)) (size header iv : Nat) (bits : List Bool) : Nat :=
  let key := match latch with
    | some l => ((AMap.find? d.enc.keys l.1).map (·.1)).getD 0
    | none => 0
  let byte (b : Nat) : Nat := (List.range 8).foldl (fun a i => 2 * a + b2n (bits.getD (8 * b + i) false)) 0
  Config.gcmSeal key iv (beBytes 2 header) ((List.range size).map byte)

/-- ENC_TX_BLOCK, nothing while the tributary offers no data (R311, R312, R315–R317, R325, R341). -/
def encTxDo (c : Fin 32) (data : List Bool) (miss : List Nat) (ghash : Bool) (d : Dev) : Dev :=
  if !d.encOn c true || data.isEmpty then d
  else
    let now := d.txSpan (d.cliPort c)
    let x := d.encTx c
    let span := if x.fresh then now else x.span
    let ctr := if x.fresh then 0 else x.ctr
    -- slot and block size were settled with the header before
    let k := if x.fresh then d.txSlot c else x.nslot
    let latch := d.latchDue (if x.fresh then none else x.next) k (d.txSlot c)
    let size := if x.fresh then d.encTxSize c else x.nsize
    let ivg := (ctr == 0 || x.ivg || x.run != latch) && d.ivgCheck c (latch.getD (k, 0)).1 span
    let pay := blockPayload (d.cliEth c) (8 * size) x.owed data
    let d := d.setEncTx c { x with span := span, ctr := ctr, fresh := false, ivg := ivg, latch := latch, size := size, owed := pay.2 }
    let d := d.encStat c
    let ns := decide (0 < diff48 now span)
    let held := d.encSide c true == 2
    let inj := if held then (false, d) else d.injTake 0
    let d := inj.2
    let hits := (d.when (!miss.isEmpty) (·.bump pgENC ENC.TX_MISMATCH 1)).pipeHits true (miss.map fun q => (q, 0))
    let d := hits.1
    let bad := !held && (!hits.2.isEmpty || inj.1)
    let void := held || bad
    let d := if held then (d.bump pgENC ENC.TX_VOIDS 1).setEncTx c { d.encTx c with latch := none }
      else
        let d := d.encUpdS fun e => match latch with
          | some l => { e with ivRec := AMap.insert e.ivRec (ivKey c.val l.1 l.2) span }
          | none => e
        if bad then (d.bump pgENC ENC.TX_VOIDS 1).ev pgENC 2
        else (d.bump pgENC ENC.TX_BLOCKS 1).when ghash fun d => (d.bump pgENC ENC.GHASH_MISMATCH 1).ev pgENC 12
    let header := encHeader void ns span ctr
    let iv := encIv c.val span ctr
    let body := d.encBody latch size header iv pay.1
    let body := if ghash then body / 2 ^ 128 * 2 ^ 128 else body
    let d := d.emit (.encBlock c.val header (if held then none else some iv) (if void then 0 else body))
    let next := if ns then d.latchNow (d.txSlot c) else if held then none else latch
    let dry := decide (x.owed + data.length < 8 * size)
    d.setEncTx c { d.encTx c with
      span := if ns then now else span, ctr := if ns then 0 else ctr + 1, next := next
      nsize := if ns then d.encTxSize c else size, nslot := if ns then d.txSlot c else k
      latch := if dry then none else (d.encTx c).latch
      run := if ns then none else if held then (if x.fresh then none else x.run) else latch }

/-! ### Receive (R319–R321, R326, R328, R332) -/

/-- The receive side goes to HUNT (R319). -/
def Dev.encHunt (d : Dev) (c : Fin 32) : Dev :=
  let r := d.encRx c
  ((d.put pgENC (ENC.TRIB_STAT_SYNC.at c.val) 0).setEncRx c { r with seen := 0, bad := 0, latch := none, next := none, term := false, oks := [] }).encStat c

/-- A header is consistent with the one before (R319). -/
def EncRx.fits (r : EncRx) (sp ct : Nat) : Bool :=
  if r.ns then ct == 0 && sp == (r.sp + 1) % 4 else ct == (r.ct + 1) % 512 && sp == r.sp

/-- The header before is this one. -/
def EncRx.note (r : EncRx) (ns : Bool) (sp ct : Nat) : EncRx := { r with ns := ns, sp := sp, ct := ct }

/-- A bad header leaves the header that was due as the one before. (DEDUCED: log 92) -/
def EncRx.coast (r : EncRx) : EncRx :=
  if r.ns then r.note false ((r.sp + 1) % 4) 0 else r.note false r.sp ((r.ct + 1) % 512)

/-- The span index congruent to SPAN modulo 4 nearest to the receive span index (R320). -/
def spanNear (now sp : Nat) : Nat :=
  let k := (sp + 4 - now % 4) % 4
  if k = 3 then (now + m48 - 1) % m48 else (now + k) % m48

/-- The block size live for receive (R312). -/
def Dev.encRxSize (d : Dev) (c : Fin 32) : Nat := if d.flag pgENC (ENC.TRIB_RX_BSIZE.at c.val) then 4096 else 16384

/-- A block in SYNC latches its slot and size, and settles those of the block after it (R311, R320, R336). -/
def Dev.encLatchRx (d : Dev) (c : Fin 32) : Dev :=
  let r := d.encRx c
  let latch := if r.term then none else d.latchDue r.next r.nslot (d.rxSlot c)
  d.setEncRx c { r with
    latch := latch, size := r.nsize, next := if r.ns then d.latchNow (d.rxSlot c) else latch
    nsize := if r.ns then d.encRxSize c else r.nsize, nslot := if r.ns then d.rxSlot c else r.nslot, term := false }

/-- The verdict of a block, for the frames that touch it (R330). -/
def Dev.encVerdict (d : Dev) (c : Fin 32) (ok : Bool) : Dev :=
  let r := d.encRx c
  let d := d.setEncRx c { r with oks := (ok :: r.oks).take 12 }
  d.when (!ok && d.cliEth c && d.flag pgENC (ENC.TRIB_HOLD_EN.at c.val)) (·.emit (.encIdle c.val))

/-- The bytes of a block go on toward the client decrypted, cut through, those of units that disagreed as zero bytes (R326, R328). -/
def Dev.encPlain (d : Dev) (c : Fin 32) (body : List Nat) (units : List Nat) : Dev :=
  let r := d.encRx c
  match r.latch with
  | none => d
  | some l =>
    if d.encSide c false ≠ 3 then d
    else
      let key := ((AMap.find? d.enc.keys l.1).map (·.2)).getD 0
      let b := Config.gcmCounter key (encIv c.val r.span r.ctr) (body.take r.size)
      d.emit (.encPlain c.val ((List.range b.length).map fun i => if units.contains (i / 16) then 0 else b.getD i 0))

/-- The tag of a block verifies under the key its slot has latched, over its header and body (R310, R312, R328). -/
def Dev.encTagOk (d : Dev) (c : Fin 32) (header : Nat) (body : List Nat) : Bool :=
  let r := d.encRx c
  match r.latch.bind fun l => AMap.find? d.enc.keys l.1 with
  | none => false
  | some k => (Config.gcmOpen k.2 (encIv c.val r.span r.ctr) (beBytes 2 header) (body.take (r.size + 16))).isSome

/-- The block before stands behind the last verified block of its slot and generation (R321). (DEDUCED: log 256) -/
def EncRx.replayed (r : EncRx) : Bool :=
  match r.latch.bind fun l => AMap.find? r.last (genKey l) with
  | some (sp, ct) => decide (diff48 r.span sp < 0) || (r.span == sp && decide (r.ctr ≤ ct))
  | none => false

/-- A block in SYNC, its span and counter tracked (R321, R326, R328, R332). -/
def Dev.encBlockIn (d : Dev) (c : Fin 32) (h : Nat) (body : List Nat) (miss : List (Nat × Nat)) (ghash : Bool) : Dev :=
  let gone := (d.encRx c).term
  let d := (d.encLatchRx c).bump pgENC ENC.RX_BLOCKS 1
  let r := d.encRx c
  if h / 4096 = 5 then
    ((d.encVerdict c false).bump pgENC ENC.RX_VOIDS 1).when (d.encSide c false == 3) fun d =>
      d.emit (if d.cliEth c then .encVoid c.val else .encPlain c.val (List.replicate r.size 0))
  else if gone || r.latch.isNone || r.cap then d.encVerdict c false
  else
    let inj := d.injTake 1
    let d := (inj.2.when (!miss.isEmpty || ghash) (·.bump pgENC ENC.RX_MISMATCH 1)).when ghash (·.ev pgENC 12)
    let hits := d.pipeHits false miss
    let d := hits.1.encPlain c body ((if inj.1 then [0] else []) ++ hits.2.map (·.2))
    let old := r.replayed
    let ok := d.encTagOk c h body
    let untrusted := !hits.2.isEmpty || ghash || inj.1
    let d := d.encVerdict c (!untrusted && !old && ok)
    if untrusted then d.encFail c 1 r.span r.ctr
    else if old then d.encFail c 2 r.span r.ctr
    else if ok then d.encPass c else d.encFail c 0 r.span r.ctr

/-- ENC_RX_BLOCK (R319, R320, R328). (DEDUCED: log 90) -/
def encRxDo (c : Fin 32) (h : Nat) (body : List Nat) (miss : List (Nat × Nat)) (ghash : Bool) (d : Dev) : Dev :=
  if !d.encOn c false then d
  else
    let sf := ENC.TRIB_STAT_SYNC.at c.val
    let st := d.get pgENC sf
    let r := d.encRx c
    let ty := h / 4096
    let valid := ty == 0xA || ty == 5
    let ns := bitOf h 11
    let sp := bitsOf h 9 2
    let ct := h % 512
    let good := valid && r.fits sp ct
    let d :=
      if st = 0 then
        if valid then (d.put pgENC sf 1).setEncRx c { r.note ns sp ct with seen := 0 } else d
      else if st = 1 then
        if good then
          (d.when (r.seen == 1) (·.put pgENC sf 2)).setEncRx c { r.note ns sp ct with seen := r.seen + 1, bad := 0 }
        else d.encHunt c
      else if st = 2 then
        if good && r.ns then
          let r := { r.note ns sp ct with span := spanNear (d.rxSpan (d.cliPort c)) sp, ctr := 0, bad := 0, latch := none,
                                            next := none, nsize := d.encRxSize c, nslot := d.rxSlot c, term := false }
          (((d.put pgENC sf 3).ev pgENC 6).setEncRx c r).encBlockIn c h body miss ghash
        else if good then d.setEncRx c { r.note ns sp ct with bad := 0 }
        else if r.bad = 3 then d.encHunt c
        else d.setEncRx c { r.coast with bad := r.bad + 1 }
      else
        let span := if r.ns then (r.span + 1) % m48 else r.span
        let ctr := if r.ns then 0 else r.ctr + 1
        if good then
          (d.setEncRx c { r.note ns sp ct with span := span, ctr := ctr, bad := 0 }).encBlockIn c h body miss ghash
        else
          let d := (d.setEncRx c { r.coast with span := span, ctr := ctr, bad := r.bad + 1 }).encLatchRx c
          let d := ((d.encPlain c body []).encVerdict c false).encFail c 3 span ctr
          if r.bad = 3 then (d.ev pgENC 5).encHunt c else d
    d.encStat c

/-- Every block of a held frame has verified: the one with its last byte came `last` blocks ago, and `more` before it hold bytes of
the frame (R330, R332). -/
def Dev.frameOk (d : Dev) (c : Fin 32) (last : Option Nat) (more : Nat) : Bool :=
  match last with
  | none => false
  | some n => (((d.encRx c).oks.drop n).take (more + 1)).all id

/-- ENC_FRAME_RELEASE: unchanged, or its FCS inverted (R330). -/
def frameRelease (c : Fin 32) (last : Option Nat) (more : Nat) (d : Dev) : Dev :=
  let bad := !d.frameOk c last more
  if d.cliEth c && d.flag pgENC (ENC.TRIB_HOLD_EN.at c.val) && d.encOn c false then
    (d.when bad (·.bump pgENC ENC.FRAMES_INVERTED 1)).emit (.frameEnd c.val bad)
  else d

/-! ### Host writes (R319, R342, R343) -/

/-- A host write of ENC_CMD: RESYNC, LOG_POP. -/
def encCmdWrite (w : Word) (d : Dev) : Dev :=
  let d := if bitOf w.toNat 8 then d.encHunt ⟨w.toNat % 32, Nat.mod_lt _ (by decide)⟩ else d
  if bitOf w.toNat 9 then
    let d := d.encUpdS fun e => { e with log := e.log.drop 1 }
    d.when d.enc.log.isEmpty (·.putb pgENC ENC.LOG_STAT_OVF false)
  else d

/-- A host write of ENC_TEST; a pair number above 47 makes INJECT ignored. (DEDUCED: log 95) -/
def encTestWrite (w : Word) (d : Dev) : Dev :=
  let d := d.putWs pgENC [ENC.TEST_PIPE, ENC.TEST_DIR] w
  d.when (bitOf w.toNat 12 && decide (d.get pgENC ENC.TEST_PIPE < 48))
    (·.putb pgENC (ENC.INJ_PEND.at (d.get pgENC ENC.TEST_DIR)) true)

/-- A host write of ENC_TRIB: staged fields become pending; SLOT_A and SLOT_B are ignored, with the tributary's bit in
ENC_CFG_LOCK, when the write would change them while encryption is live or pending (R342). (DEDUCED: log 88) -/
def encTribWriteDo (c : Fin 32) (near : Bool × Bool) (w : Word) (d : Dev) : Dev :=
  let f (x : Fld) := x.at c.val
  let a := (f ENC.TRIB_SLOT_A)
  let b := (f ENC.TRIB_SLOT_B)
  let locked := d.flag pgENC (f ENC.TRIB_TX_EN) || d.flag pgENC (f ENC.TRIB_RX_EN) ||
    d.pget pgENC (f ENC.TRIB_TX_EN) != 0 || d.pget pgENC (f ENC.TRIB_RX_EN) != 0
  let changes := d.get pgENC a != a.ofWord w.toNat || d.get pgENC b != b.ofWord w.toNat
  let d := if locked then d.when changes (·.putBit pgENC ENC.CFG_LOCK_TRIB c.val true) else d.putWs pgENC [a, b] w
  let d := d.putW pgENC (f ENC.TRIB_HOLD_EN) w
  [ENC.TRIB_TX_EN, ENC.TRIB_RX_EN, ENC.TRIB_TX_BSIZE, ENC.TRIB_RX_BSIZE, ENC.TRIB_TX_SEL, ENC.TRIB_RX_SEL].foldl
    (fun d x => d.stage pgENC (f x) near w) d

/-! ### Takes (R315, R318, R319, R323, R342, R346) -/

/-- A transmit sequence begins: its first block takes the current span index and counter 0, held while that is not later than the
record of its key (R315, R317, R341). -/
def Dev.encTxFresh (d : Dev) (c : Fin 32) : Dev :=
  let x := d.encTx c
  let k := d.txSlot c
  d.setEncTx c ⟨0, 0, true, d.slotLoaded k && d.ivgCheck c k (d.txSpan (d.cliPort c)), x.cap, x.scc, none, 0, 0, none, 0, 0, none⟩

/-- The encrypted tributaries of a port whose die has gone begin their sequences anew (R341). -/
def Dev.encPortFresh (d : Dev) (p : Port) : Dev :=
  (List.finRange 32).foldl (fun d c =>
    d.when (d.cliPort c == p && d.flag pgENC (ENC.TRIB_TX_EN.at c.val)) (·.encTxFresh c)) d

/-- What a take of the ENC page does to one side of a tributary, `old` being the device before it. -/
def Dev.encTakeSide (d old : Dev) (c : Fin 32) (tx : Bool) : Dev :=
  let f (x : Fld) := x.at c.val
  let en := f (if tx then ENC.TRIB_TX_EN else ENC.TRIB_RX_EN)
  let was := old.flag pgENC en
  let now := d.flag pgENC en
  let slot (d : Dev) := if tx then d.txSlot c else d.rxSlot c
  let moved := slot d != slot old
  let d := d.when moved fun d =>
    if tx then (d.bump pgKEYS KEYS.ROT_TX 1).ev pgKEYS 4 else (d.bump pgKEYS KEYS.ROT_RX 1).ev pgKEYS 5
  let d := d.when (now && (!was || moved) && !d.slotLoaded (slot d)) (·.ev pgKEYS 6)
  let up := d.sccUp (d.cliPort c)
  if now && !was then
    if tx then
      (d.setEncTx c { (d.encTx c) with scc := !up }).encTxFresh c
    else ((d.setEncRx c { d.encRx c with scc := !up, frepl := false, erased := false }).put (pgCLI c) CLI.ENC_WAIT 0).encHunt c
  else if was && !now then
    if tx then d.setEncTx c ⟨0, 0, true, false, false, false, none, 0, 0, none, 0, 0, none⟩
    else ((d.setEncRx c { d.encRx c with scc := false, cap := false, frepl := false, erased := false }).put (pgCLI c)
      CLI.ENC_WAIT 2).encHunt c
  else d

/-- The take of one side of the ENC page. -/
def Dev.encTake (d old : Dev) (tx : Bool) : Dev := ((List.finRange 32).foldl (fun d c => d.encTakeSide old c tx) d).encCheck

/-- The capacity of both directions after the takes of a moment, `old` being the device before them: what they newly encrypt is held
where the sum does not fit (R323). -/
def Dev.capTake (d old : Dev) : Dev :=
  ([true, false].foldl (fun d tx =>
    let fresh (c : Fin 32) : Bool := d.encOn c tx && !old.encOn c tx
    (d.capHold tx fresh).capFree tx fresh) d).encCheck

/-! ### The commands -/

def execEncTxBlock (c : Fin 32) (data : List Bool) (miss : List (Fin 48)) (ghash : Bool) (s : State) :
    Host.Outcome State Fault Refusal := s.run (encTxDo c data (miss.map (·.val)) ghash)

def execEncRxBlock (c : Fin 32) (header : BitVec 16) (body : List (BitVec 8)) (miss : List (Fin 48 × Fin 1024)) (ghash : Bool)
    (s : State) : Host.Outcome State Fault Refusal :=
  s.run (encRxDo c header.toNat (body.map (·.toNat)) (miss.map fun m => (m.1.val, m.2.val)) ghash)

def execEncFrameRelease (c : Fin 32) (last : Option (Fin 4)) (more : Fin 8) (s : State) : Host.Outcome State Fault Refusal :=
  s.run (frameRelease c (last.map (·.val)) more.val)

/-- RESYNC: a write of ENC_CMD whose RESYNC bit is 1. -/
def execResync (w : Word) (s : State) : Host.Outcome State Fault Refusal := s.run (encCmdWrite (w ||| 0x100#32))

/-- LOG_POP: a write of ENC_CMD whose LOG_POP bit is 1. -/
def execLogPop (w : Word) (s : State) : Host.Outcome State Fault Refusal := s.run (encCmdWrite (w ||| 0x200#32))

/-- INJECT: a write of ENC_TEST whose INJECT bit is 1. -/
def execInject (w : Word) (s : State) : Host.Outcome State Fault Refusal := s.run (encTestWrite (w ||| 0x1000#32))

def execEncTribWrite (c : Fin 32) (w : Word) (nearTx nearRx : Bool) (s : State) : Host.Outcome State Fault Refusal :=
  s.run (encTribWriteDo c (nearTx, nearRx) w)

/-- ERASE: a write of KEYS_CMD whose ERASE bit is 1. -/
def execErase (w : Word) (s : State) : Host.Outcome State Fault Refusal := s.run (keysCmdWrite (w ||| 0x100#32))

/-- ERASE_ALL: a write of KEYS_CMD whose ERASE_ALL bit is 1. -/
def execEraseAll (w : Word) (s : State) : Host.Outcome State Fault Refusal := s.run (keysCmdWrite (w ||| 0x200#32))

end Sys2Proof.Machine
end

