-- ==== Sys2Proof/Machine/Map.lean ====
section
/-! DEFINITION.  Section overhead errors and defects (R251–R254), decks and client mapping (R260–R271), expansion joints
(R272–R276) and the egress of a client (R295–R297). -/

namespace Sys2Proof.Machine

/-! ### Model fields -/

/-- The BEI of the last BIP-16 comparison (R253). -/
def LFR.NEXT_BEI : Fld := hid 4 5 0
/-- CRC-checked anchor headers in a row with another mode code, at most 3 (R254). (DEDUCED: log 44) -/
def LFR.MODE_BAD : Fld := hid 8 2 0
/-- The trail trace of client `c` sent, accepted and expected, word `i`; a page window shows those of TTI_SEL (R280). -/
def MAP.ttiTx (c i : Nat) : Fld := hid (0x1000 + 64 * c + 4 * i) 32 0
def MAP.ttiRx (c i : Nat) : Fld := hid (0x2000 + 64 * c + 4 * i) 32 0
def MAP.ttiExp (c i : Nat) : Fld := hid (0x3000 + 64 * c + 4 * i) 32 0

/-- A port's mapper changed. -/
def Dev.mapUpd (d : Dev) (p : Port) (f : MapState → MapState) : Dev := { d with map := d.map.upd p f }

/-- A MAP event of a client, with its bit in MAP_CLI_FLAG (R281). -/
def Dev.mapEv (d : Dev) (p : Port) (c n : Nat) : Dev := (d.putBit (pgMAP p) MAP.CLI_FLAG_FLAG c true).ev (pgMAP p) n

/-! ### Section defect and BIP -/

/-- A section defect exists (R254). (DEDUCED: log 86) -/
def Dev.sdefNow (d : Dev) (p : Port) : Bool :=
  !d.aligned p 0 || !d.flag (pgFEC p) FEC.STATUS_DEC_ACTIVE || d.get (pgLFR p) LFR.MODE_BAD == 3 ||
    d.flag (pgLFR p) LFR.CTL_BDI_FORCE

/-- SDEF follows its cases, with its event on rising (R254, R279). -/
def Dev.sdefUpd (d : Dev) (p : Port) : Dev := d.follow (pgLFR p) LFR.STATUS_SDEF (d.sdefNow p) (some 19) none

/-- A transmitted frame takes BEI and BDI (R253, R254). -/
def Dev.sohFrame (d : Dev) (p : Port) : Dev :=
  let pg := pgLFR p
  let def_ := d.flag pg LFR.STATUS_SDEF
  (d.put pg LFR.SOH_RX_TX_BEI (if def_ then 0 else d.get pg LFR.NEXT_BEI)).putb pg LFR.SOH_RX_TX_BDI def_

/-- The section overhead carriage of transmitted frame `f`: the parity of the decks of frame f − 1, BEI and BDI as the frame takes
them, and its bytes of the current SCC cell (R251, R253). -/
def Dev.sohSent (d : Dev) (p : Port) (f : Nat) : Nat :=
  sohWord (FMap.get (d.fec.get p).txBips ((f + 4095) % 4096)) (d.get (pgLFR p) LFR.SOH_RX_TX_BEI) (d.flag (pgLFR p) LFR.SOH_RX_TX_BDI)
    (d.sccFive p f)

/-- SECTION_BIP_COMPARE: the oldest BIP16 held is compared with the parity of the decks of the frame it covers, 0x0000 for a frame
without decks (R253). (DEDUCED: log 47) (DEDUCED: log 85) -/
def bipCompare (p : Port) (d : Dev) : Dev := d.lineDo p fun d =>
  match (d.map.get p).bips with
  | [] => d
  | b :: t =>
    let n := popcount 16 (b.2 ^^^ FMap.get (d.fec.get p).rxBips b.1)
    let pg := pgLFR p
    let d := (d.mapUpd p fun m => { m with bips := t }).fecUpd p fun f => { f with rxBips := FMap.set f.rxBips b.1 0 }
    ((d.bump pg LFR.SBIP_BITS n).bump pg LFR.WIN_SBIP n).put pg LFR.NEXT_BEI n

/-- DECODER_START: at the first receive frame with index 0 after the anchor locked; units are located from its boundary, whether
or not the receive counter is valid (R223, R254). -/
def decStart (p : Port) (d : Dev) : Dev := d.lineDo p fun d =>
  if d.aligned p 0 ∧ d.get (pgLFR p) LFR.FRAME_POS = 0 ∧ d.flag (pgFEC p) FEC.STATUS_DEC_ACTIVE = false then
    (((d.rxUnits p).putb (pgFEC p) FEC.STATUS_DEC_ACTIVE true).putb (pgDMP p) DMP.STATUS_ACTIVE true).sdefUpd p
  else d

/-! ### Receive joints -/

/-- The receive joint's target, ns (R273, R280). -/
def Dev.ejTarget (d : Dev) (p : Port) (c : Nat) : Nat :=
  let t := d.get (pgMAP p) (MAP.CLI_EJ_TARGET.at c)
  if t = 0 then (if d.rxTrestle p then 32 else 273) else min 3999 t

/-- The high mark, ns (R273). -/
def Dev.ejHigh (d : Dev) (p : Port) (c : Nat) : Nat :=
  let w := d.get (pgMAP p) (MAP.CLI_WM.at c)
  d.ejTarget p c + (if w = 0 then (if d.rxTrestle p then 6 else 378) else 2 * w)

/-- The receive demapper of a client. -/
def MapState.rxOf (m : MapState) (c : Nat) : MapRx := (AMap.find? m.rx c).getD ⟨0, none, none, 0, 0, [], [], 0, [], 0⟩

/-- The receive demapper of a client changed. -/
def Dev.rxUpd (d : Dev) (p : Port) (c : Nat) (f : MapRx → MapRx) : Dev :=
  d.mapUpd p fun m => { m with rx := AMap.insert m.rx c (f (m.rxOf c)) }

/-- The bytes of a client in so many ns at its rate (R272). (DEDUCED: log 281) -/
def Dev.ejBytes (d : Dev) (c : Fin 32) (ns : Nat) : Nat := ns * d.mappedRate c / 800000

/-- The bytes that have left a receive joint whose fill is now the one given (R272). -/
def Dev.ejDrain (d : Dev) (p : Port) (c : Fin 32) (fill : Nat) : Dev :=
  let m := (d.map.get p).rxOf c.val
  let n := m.joint.length - d.ejBytes c fill
  if n = 0 then d else (d.rxUpd p c.val fun m => { m with joint := m.joint.drop n }).emit (.jointData p c.val (m.joint.take n))

/-- The receive joint has a new fill: marks, overflow and slewing (R273, R274). -/
def Dev.ejMarks (d : Dev) (p : Port) (c : Fin 32) (fill : Nat) : Dev :=
  let pg := pgMAP p
  let tgt := d.ejTarget p c.val
  let was := d.get pg (MAP.EJ_FILL.at c.val)
  let hi := decide (d.ejHigh p c.val < fill)
  let lo := decide (4 * fill < tgt)
  let d := d.when (hi && !d.flag pg (MAP.EJ_HIGH.at c.val)) (·.mapEv p c.val 0)
  let d := d.when (lo && !d.flag pg (MAP.EJ_LOW.at c.val)) (·.mapEv p c.val 1)
  let d := d.when (decide (4000 ≤ fill) && decide (was < 4000)) fun d =>
    (d.bumpSat pg (MAP.EJSLIP_OVF.at c.val) 1).mapEv p c.val 2
  let d := (d.putb pg (MAP.EJ_HIGH.at c.val) hi).putb pg (MAP.EJ_LOW.at c.val) lo
  let far := decide (tgt + 8 < fill) || decide (fill + 8 < tgt)
  (d.put pg (MAP.EJ_FILL.at c.val) (satN 12 (min fill 4000))).putb pg (MAP.EJ_SLEWING.at c.val) (d.cliEth c && far)

/-- The receive joint has a new fill, some of its bytes having left (R272–R274). -/
def Dev.ejSet (d : Dev) (p : Port) (c : Fin 32) (fill : Nat) : Dev :=
  ((d.ejDrain p c fill).rxUpd p c.val fun m => { m with centred := 0 }).ejMarks p c fill

/-- The marks of the joints in operation have moved (R273, R280). (DEDUCED: log 282) -/
def Dev.ejAll (d : Dev) (p : Port) : Dev :=
  (List.finRange 32).foldl (fun d (c : Fin 32) =>
    d.when (d.flag (pgMAP p) (MAP.PATH_JC_SYNC.at c.val)) fun d => d.ejMarks p c (d.get (pgMAP p) (MAP.EJ_FILL.at c.val))) d

/-- The receive joints of a port are empty (R277). -/
def Dev.ejEmpty (d : Dev) (p : Port) : Dev := d.mapUpd p fun m => { m with rx := m.rx.map fun e => (e.1, { e.2 with joint := [] }) }

/-- The joint with the fill of the target: the oldest data beyond it is discarded, or replacement signal is put in front (R274). -/
def MapRx.recentred (m : MapRx) (n by_ : Nat) : MapRx :=
  { m with joint := List.replicate (n - m.joint.length) none ++ m.joint.drop (m.joint.length - n), centred := by_ }

/-- A recentre: the fill becomes the target at once; RECENTRE (1) and an underflow (2) at once bring one about (R274, R304). (DEDUCED: log 283) -/
def Dev.ejRecentre (d : Dev) (p : Port) (c : Fin 32) (by_ : Nat) : Dev :=
  let was := ((d.map.get p).rxOf c.val).centred
  if was ≠ 0 ∧ was ≠ by_ then d
  else
    let t := d.ejTarget p c.val
    ((d.rxUpd p c.val (·.recentred (d.ejBytes c t) by_)).ejMarks p c t).mapEv p c.val 9

/-- RECENTRE: a write of MAP_CLI (R274, R280); its staged fields become pending. -/
def mapCliWrite (p : Port) (c : Fin 32) (near : Bool × Bool) (w : Word) (d : Dev) : Dev :=
  let pg := pgMAP p
  let d := d.putWs pg [MAP.CLI_TIM_EN.at c.val, MAP.CLI_BDI_FORCE.at c.val] w
  let d := (d.stage pg (MAP.CLI_EJ_TARGET.at c.val) near w).stage pg (MAP.CLI_WM.at c.val) near w
  let d := d.when (!d.flag pg (MAP.CLI_TIM_EN.at c.val)) (·.putb pg (MAP.PATH_TTI_MM.at c.val) false)
  d.when (bitOf w.toNat 27) (·.ejRecentre p c 1)

/-- EJ_UNF: an underflow; a transparent client recentres, an Ethernet client sends an error block while a frame is open
(R273, R297, R304). -/
def ejUnfDo (p : Port) (c : Fin 32) (d : Dev) : Dev :=
  let pg := pgMAP p
  let d := (d.bumpSat pg (MAP.EJSLIP_UNF.at c.val) 1).mapEv p c.val 3
  if d.cliEth c then (((d.ejSet p c 0).putb (pgCLI c) CLI.EG_UNF true)).egMissing c
  else if ((d.map.get p).rxOf c.val).centred = 1 then d
  else ((d.ejDrain p c 0).ejMarks p c 0).ejRecentre p c 2

/-! ### Transmit decks -/

/-- The transmit mapper of a client. -/
def MapState.txOf (m : MapState) (c : Nat) : MapTx := (AMap.find? m.tx c).getD ⟨0, none, 0, true, false, [], [], []⟩

/-- The increment code of a change of the count (R265). -/
def jcCode (inc : Int) : Nat :=
  if inc = 1 then 3 else if inc = 2 then 5 else if inc = -1 then 6 else if inc = -2 then 7 else 0

/-- The 64 bytes of a trail trace. -/
def ttiBytes (w : Nat → Nat) : List Nat := (List.range 64).map fun i => bitsOf (w (i / 4)) (8 * (i % 4)) 8

/-- A position of a client group carries data: j of 252n (R266). -/
def dataAt (n cn j : Nat) : Bool := (j + 1) * cn / (252 * n) - j * cn / (252 * n) == 1

/-- The data positions of a deck that carry data, for a client with the slots given (R266). -/
def dataPositions (n cn : Nat) : List Nat := (List.range (252 * n)).filter (dataAt n cn)

/-- A byte placed into a deck, given as its 65,536 bits, first bit most significant (R261). -/
def deckPut (deck b v : Nat) : Nat := deck + v % 256 * 256 ^ (8191 - b)

/-- The overhead word and the data bytes of a client placed into a deck (R263, R264, R266). -/
def deckFill (slots : List Nat) (word cn : Nat) (bytes : List Nat) (deck : Nat) : Nat :=
  let deck := (List.range 4).foldl (fun a i => deckPut a (overheadByte slots i) (bitsOf word (24 - 8 * i) 8)) deck
  ((dataPositions slots.length cn).zip bytes).foldl (fun a x => deckPut a (dataByte slots x.1) x.2) deck

/-- The data bytes of a deck: what the joint holds, and free values where a count that falls by steps of 2 asks for more than it
holds (R267). (DESIGN CHOICE: log 239) -/
def Dev.jointTake (d : Dev) (joint : List Nat) (cn : Nat) : List Nat × Dev :=
  (List.range (cn - joint.length)).foldl (fun (st : List Nat × Dev) _ => (st.1 ++ [st.2.free % 256], st.2.used)) (joint.take cn, d)

/-- A client's part of a deck, with the deck as filled so far (R263–R269, R272, R276, R277, R537).  The count of a deck at position 66
is settled one deck before, when its high byte goes out. -/
def Dev.deckTxCli (d : Dev) (p : Port) (pos : Nat) (c : Fin 32) (offer : List Nat) (deck : Nat) : Dev × Nat :=
  let pg := pgMAP p
  let slots := d.txSlots p c.val
  let lim := 252 * slots.length
  let m := (d.map.get p).txOf c.val
  let d := d.when (decide (lim < offer.length)) (·.mapEv p c.val 11)
  let off := m.off || d.slotCut p slots
  let joint := if off then [] else m.joint ++ offer.take lim
  let want := min joint.length lim
  let cn := if off then 0
    else if m.restart then (if pos = 66 then m.ahead.getD want else 0)
    else match m.ahead with
      | some a => a
      | none => clampN (m.cn - 2) (m.cn + 2) want
  let inc : Int := if m.restart || off then 0 else (cn : Int) - (m.cn : Int)
  let nextCn := if off then 0 else if m.restart then want else clampN (cn - 2) (cn + 2) want
  let tti := if pos = 0 then ttiBytes fun i => d.get pg (MAP.ttiTx c.val i) else m.tti
  let mf := if pos < 64 then tti.getD pos 0
    else if pos = 64 then (if d.csfTx c then 128 else 0) + (if d.flag pgENC (ENC.TRIB_TX_EN.at c.val) then 64 else 0)
    else if pos = 65 then nextCn / 256 else if pos = 66 then cn % 256 else 0
  let r := (d.map.get p).rxOf c.val
  let bdi := !d.flag pg (MAP.PATH_JC_SYNC.at c.val) || d.flag (pgLFR p) LFR.STATUS_SDEF ||
    d.flag pg (MAP.CLI_BDI_FORCE.at c.val)
  let j := jcCode inc
  let word := mf * 2 ^ 24 + m.bip * 2 ^ 16 + r.bei * 2 ^ 12 + (if bdi then 2 ^ 11 else 0) + j * 64 + j * 8 + j
  let b := d.jointTake joint cn
  let d := (b.2.emit (.deckOverhead p c.val word cn)).bwAdd (32 + p.val) true (8 * cn)
  let m' : MapTx := ⟨cn, if pos = 65 then some nextCn else none, b.1.foldl (· ^^^ ·) 0, m.restart && pos != 66, m.off, tti,
    joint.drop cn, m.part⟩
  (d.mapUpd p fun s => { s with tx := AMap.insert s.tx c.val m' }, deckFill slots word cn b.1 deck)

/-- A client's bytes reach its transmit joint: its lanes are live and its ingress has not failed. -/
def Dev.cliSends (d : Dev) (c : Fin 32) : Bool := d.flag (pgCLI c) CLI.STATUS_TX_LIVE && !d.inFailed c

/-- The transmit joint of a client takes what its ingress offers: whole bytes of its mapped stream, the rest held for the next (R285). -/
def Dev.mapped (d : Dev) (p : Port) (c : Fin 32) (x : Ingress) : Dev × List Nat :=
  let m := (d.map.get p).txOf c.val
  let bits := m.part ++ d.mappedBits c x
  let n := bits.length / 8
  let d := d.mapUpd p fun s => { s with tx := AMap.insert s.tx c.val { m with part := bits.drop (8 * n) } }
  (d.rsTaken c x.blocks.length, (List.range n).map fun i => ofBits ((bits.drop (8 * i)).take 8))

/-- DECK_TX: while the encoder sends units and a whole deck still fits into the span: every client's part, and the deck joins the
frame stream (R260, R267, R269). (DEDUCED: log 82) -/
def deckTxDo (p : Port) (offers : List (Nat × Ingress)) (d : Dev) : Dev :=
  let n := (d.map.get p).txDeck
  if !d.encActive p || decide (spanDecks (d.txCfg p).trestle (d.txK p) (d.txCfg p).e256 ≤ n) then d
  else
    let r := (List.finRange 32).foldl (fun (st : Dev × Nat) (c : Fin 32) =>
      if (st.1.txSlots p c.val).isEmpty then st
      else
        let o := ((offers.find? (·.1 == c.val)).map (·.2)).getD ⟨[], []⟩
        let x := st.1.mapped p c (if st.1.cliSends c then o else ⟨[], []⟩)
        x.1.deckTxCli p (n % 128) c x.2 st.2) (d, 0)
    (r.1.mapUpd p fun s => { s with txDeck := n + 1 }).sendDeck p n r.2

/-! ### Receive decks -/

/-- The majority of the three copies of an increment code (R265). -/
def jcMajority (jc : Nat) : Nat :=
  let a := bitsOf jc 6 3
  let b := bitsOf jc 3 3
  let c := bitsOf jc 0 3
  (a &&& b) ||| (a &&& c) ||| (b &&& c)

/-- The increment of a code, none for an invalid one (R265). -/
def jcInc (code : Nat) : Option Int :=
  if code = 0 then some 0 else if code = 3 then some 1 else if code = 5 then some 2
  else if code = 6 then some (-1) else if code = 7 then some (-2) else none

/-- A client loses JC sync, and with it block sync (R268, R281, R319). -/
def Dev.jcLose (d : Dev) (p : Port) (c : Fin 32) : Dev :=
  let pg := pgMAP p
  if d.flag pg (MAP.PATH_JC_SYNC.at c.val) then
    let d := ((d.putb pg (MAP.PATH_JC_SYNC.at c.val) false).putBit pg MAP.RX_SYNC_SYNC c.val false).mapEv p c.val 5
    (d.when (decide (d.cliPort c = p)) (·.encHunt c)).replCheck c
  else d

/-- A client gains JC sync (R268, R281). -/
def Dev.jcGain (d : Dev) (p : Port) (c : Fin 32) : Dev :=
  let pg := pgMAP p
  (((d.putb pg (MAP.PATH_JC_SYNC.at c.val) true).putBit pg MAP.RX_SYNC_SYNC c.val true).mapEv p c.val 4).replCheck c

/-- The increment code of a deck is decoded and applied; an invalid code counts, and so does each copy that disagrees with the
majority (R265, R268). -/
def Dev.rxJc (d : Dev) (p : Port) (c : Fin 32) (jc : Nat) (m : MapRx) : Dev × MapRx :=
  let pg := pgMAP p
  let code := jcMajority jc
  let odd := [6, 3, 0].countP fun k => bitsOf jc k 3 != code
  let inc := jcInc code
  let d := d.bump pg (MAP.JC_ERR.at c.val) (b2n inc.isNone + odd)
  let bad := if inc.isNone then m.bad + 1 else 0
  let sync := d.flag pg (MAP.PATH_JC_SYNC.at c.val)
  let m := { m with bad := min 3 bad, cn := if sync then ((m.cn : Int) + inc.getD 0).toNat else m.cn }
  (if 3 ≤ bad then d.jcLose p c else d, m)

/-- A trail trace is complete at the end of a multiframe: three in a row alike are accepted, and compared while TIM_EN is 1
(R269). (DEDUCED: log 84) -/
def Dev.rxTti (d : Dev) (p : Port) (c : Fin 32) (m : MapRx) : Dev × MapRx :=
  let pg := pgMAP p
  if m.tti.length ≠ 64 then (d, m)
  else
    let run := if m.tti = m.prev then min 3 (m.run + 1) else 1
    let again := m.run == 3 && run == 3
    let m := { m with prev := m.tti, run := run }
    if run < 3 then (d, m)
    else
      let d := (List.range 16).foldl (fun d i =>
        d.put pg (MAP.ttiRx c.val i) ((List.range 4).foldl (fun a k => a + m.tti.getD (4 * i + k) 0 * 2 ^ (8 * k)) 0)) d
      let mm := d.flag pg (MAP.CLI_TIM_EN.at c.val) && m.tti != ttiBytes fun i => d.get pg (MAP.ttiExp c.val i)
      let d := d.when (mm && (!again || !d.flag pg (MAP.PATH_TTI_MM.at c.val))) (·.mapEv p c.val 7)
      (d.putb pg (MAP.PATH_TTI_MM.at c.val) mm, m)

/-- The multiframe byte of a deck (R268, R269, R318). -/
def Dev.rxMf (d : Dev) (p : Port) (c : Fin 32) (pos mf : Nat) (m : MapRx) : Dev × MapRx :=
  let pg := pgMAP p
  if pos < 64 then (d, { m with tti := (if pos = 0 then [] else m.tti) ++ (if pos = 0 ∨ m.tti.length = pos then [mf] else []) })
  else if pos = 64 then
    let was := bitOf (d.get pg (MAP.PATH_STATUS.at c.val)) 7
    let d := (d.put pg (MAP.PATH_STATUS.at c.val) mf).when (bitOf mf 7 && !was) (·.mapEv p c.val 8)
    let d := d.when (decide (d.cliPort c = p)) fun d =>
      ((d.putb (pgCLI c) CLI.STATUS_CSF_RX (bitOf mf 7)).putb (pgCLI c) CLI.ENC_SEEN (bitOf mf 6)).replCheck c
    (d, m)
  else if pos = 65 then (d, { m with hi := some mf })
  else if pos = 66 then
    match m.hi with
    | none => (d, m)
    | some h =>
      let cnt := h * 256 + mf
      let m' := { m with hi := none, cn := cnt }
      if d.flag pg (MAP.PATH_JC_SYNC.at c.val) then
        (d.when (m.cn != cnt) (·.bump pg (MAP.JC_ERR.at c.val) 1), m')
      else (d.jcGain p c, { m' with bad := 0 })
  else if pos = 127 then
    let r := d.rxTti p c m
    (r.1.when (decide (d.cliPort c = p) && d.get (pgCLI c) CLI.ENC_WAIT == 2 && m.tti.length == 64 &&
        !d.flag (pgCLI c) CLI.ENC_SEEN) fun d => (d.put (pgCLI c) CLI.ENC_WAIT 0).replCheck c, r.2)
  else (d, m)

/-- The slots of a client in the table by which decks are demapped, ascending (R263, R277). -/
def MapState.tabSlots (m : MapState) (c : Nat) : List Nat := (m.rxTab.filter (·.2 == c)).map (·.1)

/-- The live receive table of a port: its slots in use, each with its client. -/
def Dev.rxLive (d : Dev) (p : Port) : List (Nat × Nat) :=
  ((List.range 32).filter fun i => d.flag (pgMAP p) (MAP.RXSLOT_EN.at i)).map fun i => (i, d.get (pgMAP p) (MAP.RXSLOT_CLIENT.at i))

/-- A receive client restarts, dropping JC sync (R276). -/
def Dev.rxFresh (d : Dev) (p : Port) (c : Fin 32) : Dev :=
  (d.rxUpd p c.val fun m => { m with hi := none, bip := none, bad := 0 }).jcLose p c

/-- The live receive table is the one by which decks are demapped from here on; clients whose slots change restart (R277). -/
def Dev.rxTable (d : Dev) (p : Port) : Dev :=
  let old := d.map.get p
  let d := d.mapUpd p fun m => { m with rxTab := d.rxLive p }
  (List.finRange 32).foldl (fun d (c : Fin 32) =>
    if old.tabSlots c.val = (d.map.get p).tabSlots c.val then d else d.rxFresh p c) d

/-- A client's part of a received deck: its overhead word, its data bytes, marks and parity (R263–R271).  The count of mismatches
to return stays while no comparison is made. -/
def Dev.deckRxCli (d : Dev) (p : Port) (pos : Nat) (c : Fin 32) (deck : Nat) (marks : List (Nat × Bool)) (fill : Option Nat) : Dev :=
  let pg := pgMAP p
  let slots := (d.map.get p).tabSlots c.val
  let w := (List.range 4).foldl (fun a i => 256 * a + deckByte deck (overheadByte slots i)) 0
  let r := d.rxJc p c (bitsOf w 0 9) ((d.map.get p).rxOf c.val)
  let r := r.1.rxMf p c pos (bitsOf w 24 8) r.2
  let d := r.1
  let m := r.2
  let err := m.bip.map fun b => popcount 8 (b ^^^ bitsOf w 16 8)
  let d := d.bump pg (MAP.PBIP.at c.val) (err.getD 0)
  let bei := bitsOf w 12 4
  let d := (d.put pg (MAP.PATH_RX_BEI.at c.val) bei).bump pg (MAP.PBEI.at c.val) bei
  let bdi := bitOf w 11
  let d := d.when (bdi && !d.flag pg (MAP.PATH_RX_BDI.at c.val)) (·.mapEv p c.val 6)
  let d := (d.putb pg (MAP.PATH_RX_BDI.at c.val) bdi).put pg (MAP.PATH_CN.at c.val) m.cn
  if d.flag pg (MAP.PATH_JC_SYNC.at c.val) then
    let bytes := (dataPositions slots.length m.cn).map fun j =>
      let b := dataByte slots j
      (deckByte deck b, byteMarked marks b)
    let d := (d.bump pg (MAP.MARKED.at c.val) (bytes.countP (·.2))).bwAdd (32 + p.val) false (8 * bytes.length)
    let ovf := fill.any fun f => decide (4000 ≤ f)
    let d := if ovf then d else d.emit (.deckData p c.val bytes)
    let m' : MapRx := { m with
      bei := err.getD m.bei, bip := some (bytes.foldl (fun a x => a ^^^ x.1) 0), centred := 0
      joint := if ovf then m.joint else m.joint ++ bytes.map some }
    let d := d.mapUpd p fun s => { s with rx := AMap.insert s.rx c.val m' }
    match fill with
    | none => d
    | some f => d.ejSet p c f
  else d.mapUpd p fun s => { s with rx := AMap.insert s.rx c.val { m with bei := err.getD m.bei, bip := none } }

/-- A byte in a receive joint fails its parity: it leaves marked (R271, R520). -/
def Dev.jointParity (d : Dev) (p : Port) (c i : Nat) : Dev :=
  match ((d.map.get p).rxOf c).joint.getD i none with
  | none => d
  | some x =>
    let d := (d.bump pgECC ECC.PAR_EJ 1).when (!x.2) (·.bump (pgMAP p) (MAP.MARKED.at c) 1)
    d.rxUpd p c fun m => { m with joint := m.joint.set i (some (x.1, true)) }

/-- DECK_RX: the next whole deck of the decoded frame stream, while there is one; the live slot table applies from the first deck of
a span (R260, R268, R277, R278). -/
def deckRxDo (p : Port) (fills parity : List (Nat × Nat)) (d : Dev) : Dev := d.lineDo p fun d =>
  let d := parity.foldl (fun d x => d.jointParity p x.1 x.2) d
  match (d.fec.get p).takeDeck with
  | none => d
  | some (n, deck, marks, f) =>
    let pg := pgLFR p
    let d := (d.fecUpd p fun _ => f).bump pg LFR.DECKS 1
    let d := d.when (marks.any (·.2)) fun d => (d.bump pg LFR.MARKED_DECKS 1).ev pg 20
    let d := d.when (n == 0) (·.rxTable p)
    let d := (List.finRange 32).foldl (fun d (c : Fin 32) =>
      if ((d.map.get p).tabSlots c.val).isEmpty then d
      else d.deckRxCli p (n % 128) c deck marks ((fills.find? (·.1 == c.val)).map (·.2))) d
    d.mapUpd p fun s => { s with rxDeck := n + 1 }

/-! ### Takes -/

/-- USED words follow the live slot tables (R280). -/
def Dev.usedUpd (d : Dev) (p : Port) : Dev :=
  let mask (f : Fld) : Nat := (List.range 32).foldl (fun a i => a + (if d.flag (pgMAP p) (f.at i) then 2 ^ i else 0)) 0
  (d.put (pgMAP p) MAP.TX_USED_USED (mask MAP.TXSLOT_EN)).put (pgMAP p) MAP.RX_USED_USED (mask MAP.RXSLOT_EN)

/-- Transmit clients restart: those whose slots changed, or all (R276, R277). (DEDUCED: log 83) -/
def Dev.txRestart (d old : Dev) (p : Port) (all : Bool) : Dev :=
  (List.finRange 32).foldl (fun d (c : Fin 32) =>
    if all || d.txSlots p c.val != old.txSlots p c.val then
      d.mapUpd p fun s => { s with tx := AMap.insert s.tx c.val { (s.txOf c.val) with cn := 0, ahead := none, restart := true } }
    else d) d

/-- All receive clients restart (R276). -/
def Dev.rxRestart (d : Dev) (p : Port) : Dev := (List.finRange 32).foldl (fun d (c : Fin 32) => d.rxFresh p c) d

/-- A client enabled in the transmit tables of both ports: the later take loses, MAP1 at takes in one span (R277). -/
def Dev.slotConflict (d : Dev) (p : Port) : Dev :=
  let q : Port := if p = 0 then 1 else 0
  let same := (d.map.get p).takeAt == (d.map.get q).takeAt
  (List.finRange 32).foldl (fun d (c : Fin 32) =>
    let both := !(d.txSlots p c.val).isEmpty && !(d.txSlots q c.val).isEmpty
    let offP := ((d.map.get p).txOf c.val).off
    let offQ := ((d.map.get q).txOf c.val).off
    let setOff (d : Dev) (x : Port) (b : Bool) : Dev :=
      d.mapUpd x fun s => { s with tx := AMap.insert s.tx c.val { (s.txOf c.val) with off := b, restart := true } }
    if both then
      if p = 0 ∧ same ∧ !offP ∧ !offQ then (setOff d 1 true).mapEv 1 c.val 10
      else if offP || offQ then d
      else (setOff d p true).mapEv p c.val 10
    else
      let d := if offP then setOff d p false else d
      if offQ then setOff d q false else d) d

/-- The deck period changes by more than 0.1 % (R276). -/
def periodMoves (a b : RateCfg) : Bool :=
  let x : Int := a.fRate
  let y : Int := b.fRate
  decide (y < 1000 * (x - y).natAbs)

/-! ### Egress -/

/-- An egress block of a one-step launch is marked: its FCS is not recomputed (R304). -/
def Dev.launchBad (d : Dev) (c : Fin 32) : Dev :=
  { d with tlq := d.tlq.map fun e => if e.onClient c && e.req.onestep then { e with bad := true } else e }

/-- The clocked slewing of R274 allows an idle block to be deleted or inserted: at most SLEW of a million blocks. (DEDUCED: log 284) -/
def Dev.slewDue (d : Dev) (c : Fin 32) : Bool :=
  decide (10 ^ 6 ≤ d.get (pgCLI c) CLI.EG_SINCE * min 4000 (d.get (pgMAP (d.cliPort c)) MAP.CTL_SLEW))

/-- An idle block of an Ethernet client at the egress: inserted twice or deleted where the fill asks for it (R274). -/
def Dev.egIdle (d : Dev) (c : Fin 32) (fill : Nat) (adj : Bool) : Dev :=
  let pg := pgCLI c
  let tgt := d.ejTarget (d.cliPort c) c.val
  let adj := adj && d.slewDue c
  let count (d : Dev) : Dev := (d.bump pg CLI.IDLE_ADJ 1).put pg CLI.EG_SINCE 0
  if adj ∧ tgt + 8 < fill then count d
  else
    let d := d.emit (.egress c.val (.block 3))
    if adj ∧ fill + 8 < tgt then count (d.emit (.egress c.val .idle)) else d

/-- EGRESS_BLOCK (R274, R295–R297); a client with ERR 1 or 2 sends nothing (R286); with a FIFO parity error an error block takes the
place of the block (R520). (DEDUCED: log 87) -/
def egressDo (c : Fin 32) (kind : Nat) (marked : Bool) (fill : Nat) (adj par : Bool) (d : Dev) : Dev :=
  let pg := pgCLI c
  let p := d.cliPort c
  let d := (d.when par (·.bump pgECC ECC.PAR_FIFO 1)).replCheck c
  if d.cliLanes c = 0 ∨ d.get pg CLI.STAT_ERR = 1 ∨ d.get pg CLI.STAT_ERR = 2 then d
  else
    let d := (d.ejSet p c fill).bumpSat pg CLI.EG_SINCE 1
    if d.flag pg CLI.STATUS_REPL then d.emit (.egress c.val (d.replSignal c))
    else if !d.cliEth c then d
    else if d.flag pg CLI.EG_UNF && decide (4 * fill < d.ejTarget p c.val) then
      d.egMissing c
    else
      let d := d.putb pg CLI.EG_UNF false
      if d.flag pg CLI.EG_WAIT && (kind == 0 || kind == 2 || kind == 4) then d
      else
        let d := d.putb pg CLI.EG_WAIT false
        let d := d.when (kind == 1) (·.putb pg CLI.EG_ERR false)
        let d := if par || (marked && d.flag pg CLI.CTL_MARK_E) then (d.egError c).launchBad c
          else if kind = 3 then d.egIdle c fill adj
          else (d.when (kind == 4) (·.putb pg CLI.EG_ERR true)).emit (.egress c.val (.block kind))
        let d := d.when (kind == 2 && d.flag pg CLI.EG_OPEN) (·.bump pg CLI.FRAMES_EG 1)
        if kind = 1 then d.putb pg CLI.EG_OPEN true else if kind = 2 ∨ kind = 3 then d.putb pg CLI.EG_OPEN false else d

/-! ### The commands -/

def execDecoderStart (p : Port) (s : State) : Host.Outcome State Fault Refusal := s.run (decStart p)

def execSectionBipCompare (p : Port) (s : State) : Host.Outcome State Fault Refusal := s.run (bipCompare p)

def execDeckTx (p : Port) (offers : List (Fin 32 × Ingress)) (s : State) : Host.Outcome State Fault Refusal :=
  s.run (deckTxDo p (offers.map fun x => (x.1.val, x.2)))

def execDeckRx (p : Port) (fills : List (Fin 32 × BitVec 13)) (parity : List (Fin 32 × BitVec 16)) (s : State) :
    Host.Outcome State Fault Refusal :=
  s.run (deckRxDo p (fills.map fun x => (x.1.val, x.2.toNat)) (parity.map fun x => (x.1.val, x.2.toNat)))

def execEjUnf (p : Port) (c : Fin 32) (s : State) : Host.Outcome State Fault Refusal := s.run (ejUnfDo p c)

/-- RECENTRE: a write of MAP_CLI whose RECENTRE bit is 1. -/
def execRecentre (p : Port) (c : Fin 32) (w : Word) (nearTx nearRx : Bool) (s : State) : Host.Outcome State Fault Refusal :=
  s.run (mapCliWrite p c (nearTx, nearRx) (w ||| 0x08000000#32))

end Sys2Proof.Machine
end

