-- ==== Sys2Proof/Machine/Ks.lean ====
section
/-! DEFINITION.  The keystone (R347–R375, R629–R633): identity, mailbox and its operations, key agreement, debug unlock,
tamper, and control-class records (R333, R334). -/

namespace Sys2Proof.Machine

/-! ### Byte strings and identity -/

/-- The bytes of an ASCII string. -/
def ascii (s : String) : List Nat := s.toList.map (·.toNat)

/-- SHAKE256 with `n` bytes of output, as a number below 2^(8n). -/
def shakeN (bs : List Nat) (n : Nat) : Nat := Config.shake256 bs n % 2 ^ (8 * n)

/-- SHAKE256 with `n` bytes of output, as bytes. -/
def shakeB (bs : List Nat) (n : Nat) : List Nat := beBytes n (shakeN bs n)

/-- The seed of the identity key (R354). -/
def idKeySeed : Nat := shakeN (ascii "ZML-ID-1" ++ beBytes 32 Config.idSeed) 32

/-- The identity public key, 1,952 bytes. -/
def idPk : List Nat := beBytes 1952 (Config.mldsaPk idKeySeed)

/-- The device identity digest (R354). -/
def idDigest : Nat := shakeN idPk 32

/-- The digest of the Yograuf firmware key in ROM (R347). -/
def fwKeyDigest : Nat := shakeN Config.fwKey 32

/-- A part of a byte string. -/
def part (bs : List Nat) (a n : Nat) : List Nat := (bs.drop a).take n

/-- The keystone changed. -/
def Dev.ksUpd (d : Dev) (f : Keystone → Keystone) : Dev := { d with ks := f d.ks }

/-! ### Mailbox (R356–R358, R631) -/

/-- The agent codes of OWNER. -/
def agentCode (core : Bool) : Nat := if core then 2 else 1

/-- The agent holds the mailbox. -/
def Dev.mbOwns (d : Dev) (core : Bool) : Bool := d.get pgKSMB KSMB.MB_STAT_OWNER == agentCode core

/-- A refused access (R357). -/
def Dev.ksRefuse (d : Dev) : Dev := d.bump pgKSMB KSMB.REFUSED 1

/-- GO by the owner: ignored while BUSY; it clears DONE and the previous response (R358). -/
def Dev.mbGo (d : Dev) : Dev :=
  if d.flag pgKSMB KSMB.MB_STAT_BUSY then d
  else
    let d := ((d.putb pgKSMB KSMB.MB_STAT_BUSY true).putb pgKSMB KSMB.MB_STAT_DONE false).put pgKSMB KSMB.MB_STAT_RSP_LEN 0
    (d.ksUpd fun k => { k with rsp := [], result := none }).bump pgKSMB KSMB.REQUESTS 1

/-- A write of KSMB_MB_CTL by an agent: CLAIM, then GO, then RELEASE (R356–R358). -/
def mbCtlWrite (core : Bool) (w : Word) (d : Dev) : Dev :=
  let d := if bitOf w.toNat 0 && d.get pgKSMB KSMB.MB_STAT_OWNER == 0 then d.put pgKSMB KSMB.MB_STAT_OWNER (agentCode core) else d
  let d := if bitOf w.toNat 2 then (if d.mbOwns core then d.mbGo else d.ksRefuse) else d
  if bitOf w.toNat 1 then (if d.mbOwns core then d.put pgKSMB KSMB.MB_STAT_OWNER 0 else d.ksRefuse) else d

/-- A write of KSMB_REQ, KSMB_WIN or the request window, by offset, accepted from the owner (R357, R358). -/
def mbWrite (core : Bool) (off : Nat) (w : Word) (d : Dev) : Dev :=
  if !d.mbOwns core then d.ksRefuse
  else if off = 0x104 then d.putWs pgKSMB [KSMB.REQ_OPCODE, KSMB.REQ_LEN] w
  else if off = 0x108 then d.putWs pgKSMB [KSMB.WIN_REQ_WIN, KSMB.WIN_RSP_WIN] w
  else
    let base := 512 * d.get pgKSMB KSMB.WIN_REQ_WIN + (off - 0x700)
    d.ksUpd fun k => { k with req := (List.range 4).foldl (fun m i => FMap.set m (base + i) (bitsOf w.toNat (8 * i) 8)) k.req }

/-- A word of the request window. -/
def Dev.mbReqWord (d : Dev) (i : Nat) : Nat :=
  let base := 512 * d.get pgKSMB KSMB.WIN_REQ_WIN + 4 * i
  (List.range 4).foldl (fun a k => a + FMap.get d.ks.req (base + k) * 2 ^ (8 * k)) 0

/-- A word of the response window; bytes beyond RSP_LEN read zero (R374). -/
def Dev.mbRspWord (d : Dev) (i : Nat) : Nat :=
  let base := 512 * d.get pgKSMB KSMB.WIN_RSP_WIN + 4 * i
  (List.range 4).foldl (fun a k => a + d.ks.rsp.getD (base + k) 0 * 2 ^ (8 * k)) 0

/-- The request body. -/
def Dev.mbBody (d : Dev) : List Nat := (List.range (d.get pgKSMB KSMB.REQ_LEN)).map fun i => FMap.get d.ks.req i

/-- The result of the running request settled, to be published when it completes. -/
def Dev.ksResult (d : Dev) (r : Nat) (rsp : List Nat) : Dev := d.ksUpd fun k => { k with result := some (r, rsp) }

/-- The operations that sign, verify or handle keys (R371). -/
def keyOps : List Nat := [3, 5, 6, 7, 8, 10, 11]

/-- An operation runs when its request is the one that waits: in STATE RUN; in STATE FAIL it ends with STATE.  A body of
another length gives BADLEN; an operation refused in DEBUG gives DEBUG; one refused while a zeroise is latched,
or that signs or handles keys while a warning lasts, gives TAMPER (R359, R371, R629, R631). (DEDUCED: log 101) -/
def Dev.ksOp (d : Dev) (op : Nat) (lenOk : Nat → Bool) (noDebug noTamper : Bool) (f : List Nat → Dev → Dev) : Dev :=
  let st := d.get pgKSMB KSMB.BOOT_STATE
  if !d.flag pgKSMB KSMB.MB_STAT_BUSY || d.get pgKSMB KSMB.REQ_OPCODE != op || d.ks.result.isSome then d
  else if st = 7 then d.ksResult 7 []
  else if st ≠ 6 then d
  else
    let n := d.get pgKSMB KSMB.REQ_LEN
    if 8192 < n || !lenOk n then d.ksResult 3 []
    else if noDebug && d.flag pgKSMB KSMB.STATUS_DEBUG then d.ksResult 9 []
    else if (noTamper && d.flag pgKSMB KSMB.STATUS_TAMPER) || (!d.ks.warn.isEmpty && keyOps.contains op) then d.ksResult 8 []
    else f d.mbBody d

/-- MB_DONE: BUSY clears, DONE, RESULT and RSP_LEN are written; after a PERST_N the response is discarded and the claim
ends (R357, R358).  An opcode outside the table completes with BADOP, or BADLEN above 8,192 bytes (R360, R374). -/
def mbDoneDo (d : Dev) : Dev :=
  let st := d.get pgKSMB KSMB.BOOT_STATE
  let op := d.get pgKSMB KSMB.REQ_OPCODE
  let res := match d.ks.result with
    | some r => some r
    | none =>
      if st = 7 then some (7, [])
      else if st = 6 ∧ (op = 0 ∨ 11 < op) then
        some (if 8192 < d.get pgKSMB KSMB.REQ_LEN then 3 else 2, [])
      else none
  if !d.flag pgKSMB KSMB.MB_STAT_BUSY then d
  else match res with
    | none => d
    | some (r, rsp) =>
      let drop := d.ks.perst
      let rsp := if drop then [] else rsp
      let d := d.ksUpd fun k => { k with result := none, rsp := rsp, perst := false }
      let d := (d.putb pgKSMB KSMB.MB_STAT_BUSY false).putb pgKSMB KSMB.MB_STAT_DONE (!drop)
      let d := (d.put pgKSMB KSMB.MB_STAT_RESULT r).put pgKSMB KSMB.MB_STAT_RSP_LEN rsp.length
      (d.when drop (·.put pgKSMB KSMB.MB_STAT_OWNER 0)).ev pgKSMB 2

/-! ### Operations without keys (R355, R360–R362, R630) -/

/-- The source code of INFO and of the quote: 0 slot A, 1 slot B, 2 push. -/
def Dev.bootSource (d : Dev) : Nat :=
  if d.flag pgKSMB KSMB.BOOT_SRC then 2 else d.get pgKSMB KSMB.BOOT_SLOT

/-- INFO (R630). -/
def opInfo (d : Dev) : Dev := d.ksOp 1 (· == 0) false false fun _ d =>
  let pv := match d.ks.patch with | some x => x.2 | none => 0
  d.ksResult 0 (beBytes 2 Config.stage0Version ++ beBytes 2 pv ++
    [d.get pgKSMB KSMB.SVN_PATCH, d.get pgKSMB KSMB.SVN_IMAGE, d.get pgKSMB KSMB.SVN_RT_SVN, d.get pgKSMB KSMB.SVN_PATCH_SVN,
     d.get pgKSMB KSMB.LIFE, d.bootSource] ++ List.replicate 22 0)

/-- GET_CERTS: the chain, or the bare public key with NOCERT, which R360 gives no code (R355). (DEDUCED: log 100) -/
def opGetCerts (d : Dev) : Dev := d.ksOp 2 (· == 0) false false fun _ d =>
  match d.ks.certs with
  | some c => d.ksResult 0 c
  | none => (d.ksResult d.free idPk).used

/-- The live word of ENC_TRIB (R343). -/
def Dev.encTribWord (d : Dev) (c : Nat) : Nat :=
  [ENC.TRIB_TX_EN, ENC.TRIB_RX_EN, ENC.TRIB_TX_BSIZE, ENC.TRIB_RX_BSIZE, ENC.TRIB_TX_SEL, ENC.TRIB_RX_SEL,
   ENC.TRIB_HOLD_EN, ENC.TRIB_SLOT_A, ENC.TRIB_SLOT_B].foldl (fun a f => a + d.get pgENC (f.at c) * 2 ^ f.lo) 0

/-- Little-endian bytes. -/
def leBytes (n v : Nat) : List Nat := (beBytes n v).reverse

/-- What the configuration digest covers (R362). -/
def Dev.cfgBytes (d : Dev) : List Nat :=
  let anch (p : Nat) : List Nat := match AMap.find? d.ks.anchors p with
    | none => beBytes 4 0
    | some a => [a.port] ++ beBytes 4 a.version ++ beBytes 32 a.ident ++ (a.peers.map (beBytes 32)).flatten
  beBytes 32 d.ks.owner ++ [d.get pgKSMB KSMB.LIFE] ++ anch 0 ++ anch 1 ++
    ((List.range 32).map fun c => leBytes 4 (d.encTribWord c)).flatten ++
    ((List.range 64).map fun k => leBytes 4 (d.slotGen k + d.slotState k * 65536)).flatten ++
    leBytes 2 (d.get pgKSMB (KSMB.KA_SESSION.at 0)) ++ leBytes 2 (d.get pgKSMB (KSMB.KA_SESSION.at 1))

/-- Bytes 0–255 of a quote (R361). -/
def Dev.quoteBody (d : Dev) (p : Port) (nonce : List Nat) : List Nat :=
  let run := d.txRun p
  let flags := b2n d.ks.opened + 2 * b2n d.ks.patch.isSome + 4 * d.get pgKSMB KSMB.BOOT_SRC + 8 * b2n (!run)
  beBytes 2 1 ++ beBytes 2 flags ++ beBytes 4 (d.get pgKSMB KSMB.SVN_IMAGE) ++ beBytes 4 (d.get pgKSMB KSMB.SVN_RT_SVN) ++
    beBytes 4 (d.get pgKSMB KSMB.SVN_PATCH) ++ beBytes 64 d.ks.runtime ++ beBytes 64 (shakeN d.cfgBytes 64) ++
    beBytes 64 (match d.ks.patch with | some x => x.1 | none => 0) ++ beBytes 6 (if run then d.txSpan p else 0) ++
    [p.val, 0] ++ nonce ++ beBytes 8 d.ks.quotes

/-- QUOTE (R359, R361). -/
def opQuote (d : Dev) : Dev := d.ksOp 3 (· == 33) false false fun b d =>
  if 1 < b.headD 0 then d.ksResult 7 []
  else
    let d := (d.ksUpd fun k => { k with quotes := k.quotes + 1 }).bump pgKSMB KSMB.QUOTES 1
    let q := d.quoteBody (if b.headD 0 = 0 then 0 else 1) (b.drop 1)
    d.ksResult 0 (q ++ beBytes 3309 (Config.mldsaSign idKeySeed (ascii "ZML-QUOTE-1") q))

/-- The OTP fields that change in service: the bits of the lifecycle steps, of which a part has the first as delivered, and the bits of the thermometers RT_SVN and PATCH_SVN (R349); OWNER_HASH stands
in `Keystone.owner`. -/
def KSMB.OTP_LIFE : Fld := hid 0 12 7
def KSMB.OTP_RT : Fld := hid 4 384 0
def KSMB.OTP_PATCH : Fld := hid 8 96 0

/-- The value of a thermometer of some steps: a step counts as set when at least two of its three bits are (R349). -/
def thermo (steps bits : Nat) : Nat := (List.range steps).countP fun i => decide (2 ≤ popcount 3 (bitsOf bits (3 * i) 3))

/-- The OTP is read into its view on the KSMB page (R350, R375). -/
def Dev.otpView (d : Dev) : Dev :=
  let d := (d.put pgKSMB KSMB.LIFE (thermo 4 (d.get pgKSMB KSMB.OTP_LIFE) - 1)).put pgKSMB KSMB.SVN_RT_SVN (thermo 128 (d.get pgKSMB KSMB.OTP_RT))
  (d.put pgKSMB KSMB.SVN_PATCH_SVN (thermo 32 (d.get pgKSMB KSMB.OTP_PATCH))).putb pgKSMB KSMB.STATUS_OWNED (d.ks.owner != 0)

/-- The OTP bits of RT_SVN after a burn of the steps up to `im` in which the bits `took` took: a set bit stays (R349, R360). -/
def burned (im took old : Nat) : Nat := old ||| (took &&& (2 ^ (3 * min 128 im) - 1))

/-- SVN_COMMIT: the steps up to the running image's SVN are burned and verified (R349, R353, R360). -/
def opSvnCommit (took : Nat) (d : Dev) : Dev := d.ksOp 4 (· == 0) true false fun _ d =>
  let im := d.get pgKSMB KSMB.SVN_IMAGE
  if d.get pgKSMB KSMB.SVN_RT_SVN = im then d.ksResult 0 [im]
  else
    let d := (d.put pgKSMB KSMB.OTP_RT (burned im took (d.get pgKSMB KSMB.OTP_RT))).otpView
    let rt := d.get pgKSMB KSMB.SVN_RT_SVN
    d.ksResult (if rt = im then 0 else 14) [rt]

/-- OWNER_BURN: the digest is burned, and the step OWNED, of which the bits `took` take (R349, R360). (DEDUCED: log 291) -/
def opOwnerBurn (took : Nat) (d : Dev) : Dev := d.ksOp 5 (· == 5261) true false fun b d =>
  let pk := b.take 1952
  if d.ks.owner ≠ 0 ∨ d.get pgKSMB KSMB.LIFE ≠ 0 ∨ d.flag pgKSMB KSMB.LIFE_PROV = false then d.ksResult 7 []
  else if Config.mldsaVerify pk [] (ascii "ZML-OWN-1" ++ beBytes 32 idDigest) (b.drop 1952) then
    let d := d.ksUpd fun k => { k with owner := shakeN pk 32 }
    let d := (d.put pgKSMB KSMB.OTP_LIFE (d.get pgKSMB KSMB.OTP_LIFE ||| took % 8 * 8)).otpView
    d.ksResult (if d.get pgKSMB KSMB.LIFE = 1 then 0 else 14) []
  else d.ksResult 4 []

/-- ANCHOR_SET: owner key, list (port, version, identity digest, 1 to 16 peers), signature (R364, R631). (DEDUCED: log 99) -/
def opAnchorSet (d : Dev) : Dev :=
  d.ksOp 6 (fun n => decide (5330 ≤ n) && decide (n ≤ 5810) && (n - 5298) % 32 == 0) true false fun b d =>
  let pk := b.take 1952
  let n := (b.length - 5298) / 32
  let lst := part b 1952 (37 + 32 * n)
  let port := lst.headD 0
  let ver := beVal (part lst 1 4)
  let cur := match AMap.find? d.ks.anchors port with | some a => some a.version | none => none
  if d.ks.owner = 0 then d.ksResult 6 []
  else if 1 < port then d.ksResult 7 []
  else if shakeN pk 32 ≠ d.ks.owner ∨ Config.mldsaVerify pk [] lst (b.drop (1989 + 32 * n)) = false then d.ksResult 4 []
  else if beVal (part lst 5 32) ≠ idDigest ∨ (match cur with | some v => decide (ver ≤ v) | none => false) = true then
    d.ksResult 7 []
  else
    let a : KsAnchors := ⟨port, ver, idDigest, (List.range n).map fun i => beVal (part lst (37 + 32 * i) 32)⟩
    (d.ksUpd fun k => { k with anchors := AMap.insert k.anchors port a }).ksResult 0 []

/-! ### Derivations (R365) -/

/-- The session secret of a shared secret and the two messages. -/
def sessionSecret (ss : Nat) (i r : List Nat) : Nat :=
  shakeN (ascii "ZML-KA-1" ++ beBytes 32 ss ++ shakeB (i ++ r) 64) 64

/-- The control key of a direction: 0 initiator to responder, 1 the reverse. -/
def ctlKey (s d : Nat) : Nat := shakeN (ascii "ZML-CTL" ++ beBytes 64 s ++ [d]) 32

/-- The confirm value of the initiator (0) or the responder (1). -/
def confirmValue (s d : Nat) : List Nat := shakeB (ascii "ZML-FIN" ++ beBytes 64 s ++ [d]) 32

/-- The traffic key of a tributary, epoch and direction. -/
def trafficKey (s t e d : Nat) : Nat := shakeN (ascii "ZML-TRF" ++ beBytes 64 s ++ [t] ++ beBytes 4 e ++ [d]) 32

/-! ### Control-class records (R333, R334) -/

/-- A record: header, which is the additional data, then ciphertext and tag. -/
def sealRecord (cls key span ctr : Nat) (plain : List Nat) : List Nat :=
  let iv := beBytes 1 (0xC0 + cls) ++ beBytes 6 span ++ beBytes 5 ctr
  let aad := [cls, 0] ++ iv ++ beBytes 2 plain.length
  aad ++ beBytes (plain.length + 16) (Config.gcmSeal key (beVal iv) aad plain)

/-- A received record opens under a key: layout and class valid, every AES block agreed, the counter later than the last
accepted, the tag verified. -/
def openRecord (key last : Nat) (agreed : Bool) (r : List Nat) : Option (Nat × List Nat) :=
  let cls := r.headD 0
  let n := beVal (part r 14 2)
  let ctr := beVal (part r 9 5)
  if agreed && decide (1 ≤ cls) && decide (cls ≤ 3) && decide (1 ≤ n) && decide (n ≤ 8160) && r.length == n + 32 &&
      decide (last < ctr) then
    (Config.gcmOpen key (beVal (part r 2 12)) (r.take 16) (r.drop 16)).map fun p => (ctr, p)
  else none

/-- A record that does not open (R334, R344). -/
def Dev.ctlFail (d : Dev) : Dev := (d.bump pgENC ENC.CTL_FAILS 1).ev pgENC 14

/-- CONTROL_RECORD under the session of a port (R334, R365). -/
def controlRecordDo (p : Port) (r : List Nat) (agreed : Bool) (d : Dev) : Dev :=
  match AMap.find? d.ks.sessions p.val with
  | none => d.ctlFail
  | some s =>
    match openRecord (ctlKey s.secret (b2n s.initiator)) s.rxLast agreed r with
    | none => d.ctlFail
    | some (ctr, plain) =>
      (d.ksUpd fun k => { k with sessions := AMap.insert k.sessions p.val { s with rxLast := ctr } }).emit
        (.ctlPlain p (r.headD 0) plain)

/-! ### Key agreement (R363–R368, R632, R633) -/

/-- KSMB_KA.STATE of a port. -/
def Dev.kaState (d : Dev) (p : Port) (s : Nat) : Dev := d.put pgKSMB (KSMB.KA_STATE.at p.val) s

/-- The exchange of a port replaced. -/
def Dev.setExch (d : Dev) (p : Port) (x : KsExch) : Dev :=
  (d.ksUpd fun k => { k with exch := AMap.insert k.exch p.val x }).kaState p x.phase

/-- The exchange of a port dropped. -/
def Dev.dropExch (d : Dev) (p : Port) : Dev := d.ksUpd fun k => { k with exch := AMap.erase k.exch p.val }

/-- An exchange fails: KA_FAIL with a reason, KA_ABORT unless the far end sent one; the previous session stands (R366). -/
def Dev.kaFail (d : Dev) (p : Port) (reason : Nat) (tell : Bool) : Dev :=
  match AMap.find? d.ks.exch p.val with
  | none => d
  | some x =>
    let d := d.when tell (·.sccSend1 p ([0x43, reason] ++ beBytes 2 x.session))
    let d := ((d.dropExch p).kaState p 5).put pgKSMB (KSMB.KA_REASON.at p.val) reason
    (d.bump pgKSMB KSMB.KA_FAIL 1).ev pgKSMB 5

/-- The SCC of a port goes down: a running exchange fails with LINK (R372). -/
def Dev.kaLinkDown (d : Dev) (p : Port) : Dev := d.kaFail p 10 true

/-- Randomness of the DRBG: a free value of 32 bytes. (DEDUCED: log 98) -/
def Dev.drbg (d : Dev) : Nat := d.free % 2 ^ 256

/-- KA_START (R366, R633). (DEDUCED: log 102) -/
def opKaStart (d : Dev) : Dev := d.ksOp 7 (· == 1) true true fun b d =>
  if 1 < b.headD 0 then d.ksResult 7 []
  else
    let p : Port := if b.headD 0 = 0 then 0 else 1
    if !d.sccUp p then d.ksResult 10 []
    else if (AMap.find? d.ks.exch p.val).isSome then d.ksResult 1 []
    else
      let sess := (d.get pgKSMB (KSMB.KA_SESSION.at p.val) + 1) % 65536
      let nonce := d.drbg
      let d := d.used
      let rand := d.drbg
      let d := d.used
      let head := [0x40, 1] ++ beBytes 2 sess ++ beBytes 32 nonce ++ beBytes 1184 (Config.kemEk rand) ++ idPk
      let msg := head ++ beBytes 3309 (Config.mldsaSign idKeySeed (ascii "ZML-KA-1") head)
      ((d.setExch p ⟨true, 1, sess, rand, msg, [], 0, 1⟩).sccSend1 p msg).ksResult 0 []

/-- The peer's identity digest stands in the port's anchor list (R364). -/
def Dev.anchored (d : Dev) (p : Port) (pk : List Nat) : Bool :=
  match AMap.find? d.ks.anchors p.val with
  | none => false
  | some a => d.ks.owner != 0 && a.peers.contains (shakeN pk 32)

/-- This end answers a KA_INIT as responder; while a tamper warning lasts the exchange is aborted (R363, R365, R371). -/
def Dev.kaAnswer (d : Dev) (p : Port) (m : List Nat) : Dev :=
  let pk := part m 1220 1952
  let sess := beVal (part m 2 2)
  let d := d.setExch p ⟨false, 2, sess, 0, m, [], 0, 0⟩
  if !d.ks.warn.isEmpty then d.kaFail p 8 true
  else if Config.mldsaVerify pk (ascii "ZML-KA-1") (m.take 3172) (m.drop 3172) = false then d.kaFail p 4 true
  else if !d.anchored p pk then d.kaFail p 5 true
  else
    let nonce := d.drbg
    let d := d.used
    let rand := d.drbg
    let d := d.used
    let ek := part m 36 1184
    let head := [0x41, 1] ++ beBytes 2 sess ++ beBytes 32 nonce ++ beBytes 1088 (Config.kemCt ek rand) ++ idPk
    let msg := head ++ beBytes 3309 (Config.mldsaSign idKeySeed (ascii "ZML-KA-1") (shakeB m 64 ++ head))
    (d.setExch p ⟨false, 2, sess, rand, m, msg, sessionSecret (Config.kemSs ek rand % 2 ^ 256) m msg, 0⟩).sccSend1 p msg

/-- KA_INIT (R366, R367, R633); another length or version is no KA_INIT. (DEDUCED: log 103) -/
def kaInitDo (p : Port) (m : List Nat) (d : Dev) : Dev :=
  if m.length ≠ 6481 ∨ m.headD 0 ≠ 0x40 ∨ m.getD 1 0 ≠ 1 ∨ d.sccUp p = false then d
  else match AMap.find? d.ks.exch p.val with
    | none => d.kaAnswer p m
    | some x =>
      if x.initiator && x.phase == 1 then
        let peer := shakeN (part m 1220 1952) 32
        if peer = idDigest then d.kaFail p 12 true
        else if idDigest < peer then d
        else (d.dropExch p).kaAnswer p m
      else if !x.initiator && m == x.initMsg then
        d.when (!x.respMsg.isEmpty) (·.sccSend1 p x.respMsg)
      else (d.dropExch p).kaAnswer p m

/-- KA_RESP: another session number is ignored; signature and anchor are checked, then KA_FIN goes (R363, R632). -/
def kaRespDo (p : Port) (m : List Nat) (d : Dev) : Dev :=
  match AMap.find? d.ks.exch p.val with
  | none => d
  | some x =>
    if m.length ≠ 6385 ∨ m.headD 0 ≠ 0x41 ∨ m.getD 1 0 ≠ 1 ∨ x.initiator = false ∨ x.phase ≠ 1 ∨
        beVal (part m 2 2) ≠ x.session then d
    else
      let pk := part m 1124 1952
      if Config.mldsaVerify pk (ascii "ZML-KA-1") (shakeB x.initMsg 64 ++ m.take 3076) (m.drop 3076) = false then
        d.kaFail p 4 true
      else if !d.anchored p pk then d.kaFail p 5 true
      else
        let s := sessionSecret (Config.kemDecaps x.rand (part m 36 1088) % 2 ^ 256) x.initMsg m
        let d := d.setExch p { x with phase := 3, respMsg := m, secret := s }
        d.sccSend1 p (0x42 :: sealRecord 1 (ctlKey s 0) (d.txSpan p) 1 (confirmValue s 0))

/-- The session of an exchange is established (R366). -/
def Dev.kaEstablish (d : Dev) (p : Port) (x : KsExch) (ctr : Nat) : Dev :=
  let d := (d.ksUpd fun k => { k with sessions := AMap.insert k.sessions p.val ⟨x.secret, x.initiator, 1, ctr, []⟩ }).dropExch p
  let d := (d.kaState p 4).putb pgKSMB (KSMB.KA_INITIATOR.at p.val) x.initiator
  let d := d.bump pgKSMB (KSMB.KA_SESSION.at p.val) 1
  (d.bump pgKSMB KSMB.KA_DONE 1).ev pgKSMB 4

/-- KA_FIN: a record that fails, or another confirm value, ends the exchange with SIG (R363, R366, R632). -/
def kaFinDo (p : Port) (m : List Nat) (agreed : Bool) (d : Dev) : Dev :=
  match AMap.find? d.ks.exch p.val with
  | none => d
  | some x =>
    if m.length ≠ 65 ∨ m.headD 0 ≠ 0x42 ∨ x.respMsg = [] ∨ (x.phase ≠ 2 ∧ x.phase ≠ 3) then d
    else
      let far := b2n x.initiator
      match openRecord (ctlKey x.secret far) 0 agreed (m.drop 1) with
      | none => (d.ctlFail).kaFail p 4 true
      | some (ctr, plain) =>
        if m.getD 1 0 = 1 ∧ plain = confirmValue x.secret far then
          let d := d.kaEstablish p x ctr
          if x.initiator then d
          else d.sccSend1 p (0x42 :: sealRecord 1 (ctlKey x.secret 1) (d.txSpan p) 1 (confirmValue x.secret 1))
        else d.kaFail p 4 true

/-- KA_ABORT: another session number is ignored (R366, R632). -/
def kaAbortDo (p : Port) (reason sess : Nat) (d : Dev) : Dev :=
  match AMap.find? d.ks.exch p.val with
  | none => d
  | some x => if x.session = sess then d.kaFail p reason false else d

/-- KA_INIT_RESEND: up to 5 sends, then TIMEOUT (R366). -/
def kaResend (p : Port) (d : Dev) : Dev :=
  match AMap.find? d.ks.exch p.val with
  | none => d
  | some x =>
    if x.initiator && x.phase == 1 then
      if x.sends < 5 then (d.setExch p { x with sends := x.sends + 1 }).sccSend1 p x.initMsg else d.kaFail p 11 true
    else d

/-- KA_FIN_TIMEOUT (R632). -/
def kaFinLate (p : Port) (d : Dev) : Dev :=
  match AMap.find? d.ks.exch p.val with
  | none => d
  | some x => if x.phase = 2 ∨ x.phase = 3 then d.kaFail p 11 true else d

/-- KEY_INSTALL (R337, R368). -/
def opKeyInstall (d : Dev) : Dev := d.ksOp 8 (· == 7) true true fun b d =>
  let port := b.headD 0
  let t := b.getD 1 0
  let slot := b.getD 2 0
  let e := beVal (b.drop 3)
  if 1 < port ∨ 31 < t ∨ 63 < slot then d.ksResult 7 []
  else match AMap.find? d.ks.sessions port with
    | none => d.ksResult 7 []
    | some s =>
      if (match AMap.find? s.epochs t with | some x => decide (e ≤ x) | none => false) then d.ksResult 7 []
      else
        let dt := b2n (!s.initiator)
        let r := d.keyInstall slot (trafficKey s.secret t e dt) (trafficKey s.secret t e (1 - dt))
        if r.2 then
          let d := r.1.ksUpd fun k => { k with sessions := AMap.insert k.sessions port { s with epochs := AMap.insert s.epochs t e } }
          d.ksResult 0 (beBytes 2 (d.slotGen slot))
        else r.1.ksResult 1 []

/-! ### Debug unlock and tamper (R369–R371) -/

/-- DEBUG_CHALLENGE (R369, R631). -/
def opDebugChallenge (d : Dev) : Dev := d.ksOp 9 (· == 1) false false fun b d =>
  let sc := b.headD 0
  if sc ≠ 1 ∧ sc ≠ 2 then d.ksResult 7 []
  else
    let v := d.drbg
    ((d.used.ksUpd fun k => { k with challenge := some (v, sc) }).putb pgKSMB KSMB.DEBUG_CHAL_VALID true).ksResult 0 (beBytes 32 v)

/-- The challenge is no longer valid. -/
def Dev.chalDrop (d : Dev) : Dev := (d.ksUpd fun k => { k with challenge := none }).putb pgKSMB KSMB.DEBUG_CHAL_VALID false

/-- A hanger key agreement ends: a session, or none and a reason; the mailbox operation completes (R442). -/
def Dev.hgKeyEnd (d : Dev) (n : Nat) (ok : Bool) (reason : Nat) : Dev :=
  let pg := 0x030 + n
  let d := d.ksUpd fun k =>
    { k with hgExch := AMap.erase k.hgExch n, hangers := if ok then k.hangers else AMap.erase k.hangers n }
  let d := (d.putb pg HGL.STATUS_SEC ok).put pg HGL.SEC_STAT_STATE (if ok then 2 else 3)
  let d := (d.put pg HGL.SEC_STAT_REASON (if ok then 0 else reason)).ev pg 6
  d.when (d.flag pgKSMB KSMB.MB_STAT_BUSY && d.get pgKSMB KSMB.REQ_OPCODE == 11 && d.ks.result.isNone)
    (·.ksResult (if ok then 0 else reason) [])

/-- The hanger session of a port ends; a key agreement under way fails with a reason (R433, R442). -/
def Dev.hgKeyDrop (d : Dev) (n reason : Nat) : Dev :=
  if (AMap.find? d.ks.hgExch n).isSome then d.hgKeyEnd n false reason
  else if (AMap.find? d.ks.hangers n).isSome then
    let d := d.ksUpd fun k => { k with hangers := AMap.erase k.hangers n }
    (d.putb (0x030 + n) HGL.STATUS_SEC false).put (0x030 + n) HGL.SEC_STAT_STATE 0
  else d

/-- The erasures of R370: every slot, every session secret and control key; exchanges under way end with a reason. -/
def Dev.ksErase (d : Dev) (reason : Nat) : Dev :=
  let d := d.keyEraseAll
  let d := ([0, 1] : List Port).foldl (fun d p => d.kaFail p reason true) d
  let d := (List.range 4).foldl (fun d n => d.hgKeyDrop n reason) d
  let d := d.ksUpd fun k => { k with sessions := [] }
  ([0, 1] : List Port).foldl (fun d p =>
    if d.get pgKSMB (KSMB.KA_STATE.at p.val) = 4 then d.kaState p 0 else d) d

/-- DEBUG_UNLOCK: the signature over the latest challenge by the signer the scope accepts; a scope once open stays open (R370). -/
def opDebugUnlock (d : Dev) : Dev := d.ksOp 10 (· == 5261) false false fun b d =>
  let pk := b.take 1952
  match d.ks.challenge with
  | none => d.ksResult 4 []
  | some (v, sc) =>
    let d := d.chalDrop
    let dig := shakeN pk 32
    let signer := if sc = 1 then d.ks.owner != 0 && dig == d.ks.owner
      else dig == Config.rmaKeyDigest && d.get pgKSMB KSMB.LIFE == 2
    let msg := ascii "ZML-DBG-1" ++ beBytes 32 v ++ [sc] ++ beBytes 32 idDigest
    if signer && Config.mldsaVerify pk [] msg (b.drop 1952) then
      let d := d.ksErase 9
      ((d.put pgKSMB KSMB.DEBUG_SCOPE (max (d.get pgKSMB KSMB.DEBUG_SCOPE) sc)).putb pgKSMB KSMB.STATUS_DEBUG true).ksUpd (fun k => { k with opened := true })
        |>.ksResult 0 []
    else d.ksResult 4 []

/-- A running signature or key operation ends with a result (R371, R372). -/
def Dev.ksAbortOp (d : Dev) (r : Nat) : Dev :=
  let op := d.get pgKSMB KSMB.REQ_OPCODE
  d.when (d.flag pgKSMB KSMB.MB_STAT_BUSY && keyOps.contains op) (·.ksResult r [])

/-- TAMPER: a warning aborts running signature and key operations, and those begun while it lasts (R371). (DEDUCED: log 104) -/
def tamperDo (m : Nat) (lasts : Bool) (d : Dev) : Dev :=
  if !lasts then d.ksUpd fun k => { k with warn := k.warn.filter (· != m) } else
  let d := d.ksUpd fun k => { k with warn := m :: k.warn.filter (· != m) }
  let d := ((d.putBit pgKSMB KSMB.TAMPER_WARN m true).bump pgKSMB KSMB.TAMPER_EVTS 1).ev pgKSMB 6
  let d := ([0, 1] : List Port).foldl (fun d p => d.kaFail p 8 true) (d.ksAbortOp 8)
  (List.range 4).foldl (fun d n => d.when (AMap.find? d.ks.hgExch n).isSome (·.hgKeyEnd n false 8)) d

/-- ZEROISE: the erasures, and STATUS.TAMPER latched (R371). -/
def zeroiseDo (m : Nat) (d : Dev) : Dev :=
  let d := ((d.ksErase 8).putb pgKSMB KSMB.STATUS_TAMPER true).putBit pgKSMB KSMB.TAMPER_ZERO m true
  -- whatever request runs returns TAMPER (R372)
  let d := d.when (d.flag pgKSMB KSMB.MB_STAT_BUSY && d.get pgKSMB KSMB.BOOT_STATE == 6) (·.ksResult 8 [])
  d.ksUpd fun k => { k with acked := false, absent := false }

/-- Key operations are accepted again once the condition was absent for 1 s and TAMPER_ACK was written (R371). -/
def Dev.tamperEnd (d : Dev) : Dev :=
  if d.ks.acked && d.ks.absent && d.flag pgKSMB KSMB.STATUS_TAMPER then
    ((d.putb pgKSMB KSMB.STATUS_TAMPER false).put pgKSMB KSMB.TAMPER_ZERO 0).ksUpd fun k => { k with acked := false, absent := false }
  else d

/-- A write of KSMB_CTL: TAMPER_ACK by the host alone, and PUSH_DONE in STATE WAIT_PUSH (R353, R371, R374). (DEDUCED: log 105) -/
def ksCtlWrite (core : Bool) (w : Word) (d : Dev) : Dev :=
  let d := if bitOf w.toNat 0 && !core && d.flag pgKSMB KSMB.STATUS_TAMPER then (d.ksUpd fun k => { k with acked := true }).tamperEnd else d
  d.when (bitOf w.toNat 1 && d.get pgKSMB KSMB.BOOT_STATE == 4) fun d =>
    (d.put pgKSMB KSMB.BOOT_STATE 5).ksUpd fun k => { k with image := none }

/-- TAMPER_ABSENT (R371). -/
def tamperAbsentDo (d : Dev) : Dev :=
  if d.flag pgKSMB KSMB.STATUS_TAMPER then (d.ksUpd fun k => { k with absent := true }).tamperEnd else d

/-- FIREWALL: a bus error to the requester, nothing written (R348). -/
def firewallDo (agent : Nat) (d : Dev) : Dev := ((d.bump pgKSMB KSMB.FIREWALL 1).ev pgKSMB 7).emit (.busError agent)

/-- CLAIM_EXPIRED: not while a request runs (R357, R372). -/
def claimExpiredDo (d : Dev) : Dev :=
  if d.get pgKSMB KSMB.MB_STAT_OWNER ≠ 0 ∧ d.flag pgKSMB KSMB.MB_STAT_BUSY = false then
    (d.put pgKSMB KSMB.MB_STAT_OWNER 0).ev pgKSMB 3
  else d

/-! ### Boot (R350–R353, R355, R629) -/

/-- The image at the start of some bytes: header, body of the length it gives, and signature (R351). -/
def imageOf (r : List Nat) : KsImage :=
  let n := beVal (part r 4 4)
  ⟨r.take 64, part r 64 n, part r (64 + n) 3309⟩

/-- The body length that a header gives. -/
def KsImage.len (x : KsImage) : Nat := beVal (part x.header 4 4)

/-- The SVN of an image. -/
def KsImage.svn (x : KsImage) : Nat := beVal (part x.header 8 4)

/-- The load offset of an image. -/
def KsImage.load (x : KsImage) : Nat := beVal (part x.header 12 4)

/-- The entry point of an image, from its load address. -/
def KsImage.start (x : KsImage) : Nat := beVal (part x.header 16 4)

/-- The SHAKE256-512 digest of header and body (R350). -/
def KsImage.digest (x : KsImage) : Nat := shakeN (x.header ++ x.body) 64

/-- Why an image fails before its signature is looked at, 0 when it does not: FORMAT 2, READ 5, SIZE 6 (R351, R374). -/
def loadFault (fmt maxLen maxSvn : Nat) (r : Option (List Nat)) : Nat :=
  match r with
  | none => 5
  | some r =>
    let x := imageOf r
    if x.header.length ≠ 64 ∨ beVal (x.header.take 4) ≠ fmt ∨ x.load % 4096 ≠ 0 ∨ maxSvn < x.svn ∨ beVal (x.header.drop 52) ≠ 0 then 2
    else if maxLen < x.len ∨ x.body.length ≠ x.len ∨ x.sig.length ≠ 3309 then 6
    else 0

/-- Why an image fails its verification: SIG 3 against the Yograuf firmware key, SVN 4 (R350). (DEDUCED: log 292) -/
def KsImage.fault (x : KsImage) (svnMin : Nat) : Nat :=
  if Config.mldsaVerify Config.fwKey [] (beBytes 64 x.digest) x.sig = false then 3 else if x.svn < svnMin then 4 else 0

/-- The fault of a runtime image before its signature is looked at. -/
def runtimeFault (r : Option (List Nat)) : Nat := loadFault 0x5A570001 8384512 128 r

/-- The body of an image is streamed into hub SRAM at its load offset (R350, R351). (DEDUCED: log 107) -/
def Dev.bootLoad (d : Dev) (x : KsImage) : Dev :=
  if x.load + x.body.length ≤ 2 ^ 26 then
    let a := memBase 2 + x.load
    let d := d.sramDrain x.load x.body.length
    { d with
      mem := memWriteBytes d.mem a (x.body.map (BitVec.ofNat 8))
      syn := d.syn.filter fun e => !(decide (a ≤ e.1 * 8) && decide (e.1 * 8 < a + x.body.length)) }
  else d

/-- The runtime is measured, STATE becomes RUN, BOOT_DONE, and the management cores start at the entry point (R350 step 7). -/
def Dev.bootRun (d : Dev) (x : KsImage) (src : Nat) : Dev :=
  let d := (d.ksUpd fun k => { k with runtime := x.digest, image := none, entry := x.load + x.start }).put pgKSMB KSMB.SVN_IMAGE x.svn
  (((d.put pgKSMB KSMB.BOOT_SRC src).put pgKSMB KSMB.BOOT_STATE 6).ev pgKSMB 0).emit (.coresStart (x.load + x.start))

/-- A boot that fails for good, or waits for a push, with the reason of its last failure. -/
def Dev.bootStop (d : Dev) (st reason : Nat) : Dev :=
  (((d.put pgKSMB KSMB.BOOT_STATE st).put pgKSMB KSMB.BOOT_REASON reason).ev pgKSMB 1).ksUpd fun k => { k with image := none }

/-- A slot fails: the next one, and after slot B, or a push, the wait for a push (R353). -/
def Dev.slotFail (d : Dev) (push : Bool) (reason : Nat) : Dev :=
  if !push ∧ d.get pgKSMB KSMB.BOOT_SLOT = 0 then
    (((d.put pgKSMB KSMB.BOOT_STATE 3).put pgKSMB KSMB.BOOT_SLOT 1).put pgKSMB KSMB.BOOT_REASON reason).ksUpd fun k => { k with image := none }
  else d.bootStop 4 reason

/-- A patch is present in its flash region (R352). -/
def patchThere (r : Option (List Nat)) : Bool :=
  match r with
  | none => false
  | some r => beVal (r.take 4) == 0x5A570002

/-- The patch of its flash region: loaded into the patch area and run, or skipped with PATCH_SKIP (R350 step 3, R352). -/
def Dev.bootPatch (d : Dev) (r : Option (List Nat)) : Dev :=
  let x := imageOf (r.getD [])
  if loadFault 0x5A570002 32768 32 r = 0 ∧ x.load + x.body.length ≤ 32768 ∧ x.fault (d.get pgKSMB KSMB.SVN_PATCH_SVN) = 0 then
    (d.ksUpd fun k => { k with
      patch := some (x.digest, beVal (part x.header 20 2)), patchEntry := x.load + x.start
      patchMem := (List.range x.body.length).foldl (fun m i => FMap.set m (x.load + i) (x.body.getD i 0)) k.patchMem }).put pgKSMB
        KSMB.SVN_PATCH x.svn
  else d.putb pgKSMB KSMB.STATUS_PATCH_SKIP true

/-- The length of a DER element at the start of some bytes, its header included; 0 where there is none. (PRESUMED: log 293) -/
def derLen (l : List Nat) : Nat :=
  if l.headD 0 ≠ 0x30 then 0
  else
    let n := l.getD 1 0
    if n < 128 then 2 + n
    else if n = 0x81 then 3 + l.getD 2 0
    else if n = 0x82 then 4 + beVal (part l 2 2)
    else if n = 0x83 then 5 + beVal (part l 2 3)
    else 0

/-- A certificate certifies a public key: it holds the key as a bit string (R355). -/
def certifies (cert pk : List Nat) : Bool :=
  let n := pk.length + 1
  let want := [0x03, 0x82] ++ beBytes 2 n ++ [0] ++ pk
  (List.range cert.length).any fun i => part cert i want.length == want

/-- The chain of the flash region, when its device certificate is accepted: root, device CA, and a device certificate that certifies
the derived public key, in at most 32,768 bytes (R355). -/
def certChain (r : Option (List Nat)) : Option (List Nat) :=
  match r with
  | none => none
  | some r =>
    let a := derLen r
    let b := derLen (r.drop a)
    let c := derLen (r.drop (a + b))
    if a ≠ 0 ∧ b ≠ 0 ∧ c ≠ 0 ∧ a + b + c ≤ min 32768 r.length ∧ certifies (part r (a + b) c) idPk = true then some (r.take (a + b + c))
    else none

/-- The image pushed into hub SRAM, KSMB_PUSH_LEN bytes of header, body and signature (R351, R353). (DEDUCED: log 254) -/
def Dev.pushed (d : Dev) : Dev × List Nat :=
  let r := d.sramRead (Config.pushPlace % 2 ^ 23 * 8) (d.get pgKSMB KSMB.PUSH_LEN_LEN)
  (r.1, r.2.map (·.toNat))

/-- The source of the boot: WAIT_PUSH under the strap, LOAD_A otherwise (R350 step 4). -/
def Dev.bootSelect (d : Dev) : Dev :=
  if d.flag pgSYS SYS.STRAP_BOOT_SRC then d.put pgKSMB KSMB.BOOT_STATE 4
  else (d.put pgKSMB KSMB.BOOT_STATE 2).put pgKSMB KSMB.BOOT_SLOT 0

/-- A slot's image is read and streamed: VERIFY follows, or the slot fails (R350 step 5). -/
def Dev.bootSlot (d : Dev) (r : Option (List Nat)) : Dev :=
  let f := runtimeFault r
  if f ≠ 0 then d.slotFail false f
  else
    let x := imageOf (r.getD [])
    ((d.bootLoad x).ksUpd fun k => { k with image := some x }).put pgKSMB KSMB.BOOT_STATE 5

/-- The verification of the image loaded from a slot, or of the pushed one (R350 step 6, R353). -/
def Dev.bootVerify (d : Dev) : Dev :=
  match d.ks.image with
  | some x =>
    let f := x.fault (d.get pgKSMB KSMB.SVN_RT_SVN)
    if f = 0 then d.bootRun x 0 else d.slotFail false f
  | none =>
    let r := d.pushed
    let x := imageOf r.2
    let f := if runtimeFault (some r.2) ≠ 0 then runtimeFault (some r.2)
      else if r.2.length ≠ 64 + x.len + 3309 then 6 else x.fault (d.get pgKSMB KSMB.SVN_RT_SVN)
    if f = 0 then (r.1.put pgKSMB KSMB.BOOT_SLOT 0).bootRun x 1 else r.1.slotFail true f

/-- The boot ends the state it is in: ROM, PATCH, LOAD_A, LOAD_B or VERIFY (R350, R353, R629). (DEDUCED: log 106) -/
def Dev.boot (d : Dev) (selftest : Bool) (patch certs a b : Option (List Nat)) : Dev :=
  let st := d.get pgKSMB KSMB.BOOT_STATE
  if st = 0 then
    if !selftest then d.bootStop 7 1
    else
      let d := (d.otpView.putb pgKSMB KSMB.STATUS_PATCH_SKIP false).ksUpd fun k => { k with certs := certChain certs }
      if patchThere patch then d.put pgKSMB KSMB.BOOT_STATE 1 else d.bootSelect
  else if st = 1 then (d.bootPatch patch).bootSelect
  else if st = 2 then d.bootSlot a
  else if st = 3 then d.bootSlot b
  else if st = 5 then d.bootVerify
  else d

/-! ### The commands -/

/-- CLAIM: a write of KSMB_MB_CTL whose CLAIM bit is 1. -/
def execClaim (core : Bool) (w : Word) (s : State) : Host.Outcome State Fault Refusal := s.run (mbCtlWrite core (w ||| 1#32))

/-- RELEASE: a write of KSMB_MB_CTL whose RELEASE bit is 1. -/
def execRelease (core : Bool) (w : Word) (s : State) : Host.Outcome State Fault Refusal := s.run (mbCtlWrite core (w ||| 2#32))

def execClaimExpired (s : State) : Host.Outcome State Fault Refusal := s.run claimExpiredDo

def execInfo (s : State) : Host.Outcome State Fault Refusal := s.run opInfo

def execGetCerts (s : State) : Host.Outcome State Fault Refusal := s.run opGetCerts

def execQuote (s : State) : Host.Outcome State Fault Refusal := s.run opQuote

def execSvnCommit (took : BitVec 384) (s : State) : Host.Outcome State Fault Refusal := s.run (opSvnCommit took.toNat)

def execOwnerBurn (took : BitVec 3) (s : State) : Host.Outcome State Fault Refusal := s.run (opOwnerBurn took.toNat)

def execAnchorSet (s : State) : Host.Outcome State Fault Refusal := s.run opAnchorSet

def execKaStart (s : State) : Host.Outcome State Fault Refusal := s.run opKaStart

def execKeyInstall (s : State) : Host.Outcome State Fault Refusal := s.run opKeyInstall

def execDebugChallenge (s : State) : Host.Outcome State Fault Refusal := s.run opDebugChallenge

def execDebugUnlock (s : State) : Host.Outcome State Fault Refusal := s.run opDebugUnlock

def execMbDone (s : State) : Host.Outcome State Fault Refusal := s.run mbDoneDo

def execKaInit (p : Port) (msg : List (BitVec 8)) (s : State) : Host.Outcome State Fault Refusal :=
  s.run (kaInitDo p (msg.map (·.toNat)))

def execKaResp (p : Port) (msg : List (BitVec 8)) (s : State) : Host.Outcome State Fault Refusal :=
  s.run (kaRespDo p (msg.map (·.toNat)))

def execKaFin (p : Port) (msg : List (BitVec 8)) (agreed : Bool) (s : State) : Host.Outcome State Fault Refusal :=
  s.run (kaFinDo p (msg.map (·.toNat)) agreed)

def execKaAbort (p : Port) (reason : BitVec 8) (session : BitVec 16) (s : State) : Host.Outcome State Fault Refusal :=
  s.run (kaAbortDo p reason.toNat session.toNat)

def execKaInitResend (p : Port) (s : State) : Host.Outcome State Fault Refusal := s.run (kaResend p)

def execKaFinTimeout (p : Port) (s : State) : Host.Outcome State Fault Refusal := s.run (kaFinLate p)

def execControlRecord (p : Port) (rec : List (BitVec 8)) (agreed : Bool) (s : State) : Host.Outcome State Fault Refusal :=
  s.run (controlRecordDo p (rec.map (·.toNat)) agreed)

def execChallengeExpiry (s : State) : Host.Outcome State Fault Refusal := s.run Dev.chalDrop

def execTamper (monitor : Fin 3) (lasts : Bool) (s : State) : Host.Outcome State Fault Refusal := s.run (tamperDo monitor.val lasts)

def execZeroise (monitor : Fin 3) (s : State) : Host.Outcome State Fault Refusal := s.run (zeroiseDo monitor.val)

/-- TAMPER_ACK: a write of KSMB_CTL whose TAMPER_ACK bit is 1. -/
def execTamperAck (w : Word) (s : State) : Host.Outcome State Fault Refusal := s.run (ksCtlWrite false (w ||| 1#32))

def execTamperAbsent (s : State) : Host.Outcome State Fault Refusal := s.run tamperAbsentDo

def execFirewall (agent : Fin 4) (s : State) : Host.Outcome State Fault Refusal := s.run (firewallDo agent.val)

/-- PUSH_DONE: a write of KSMB_CTL whose PUSH_DONE bit is 1. -/
def execPushDone (w : Word) (s : State) : Host.Outcome State Fault Refusal := s.run (ksCtlWrite false (w ||| 2#32))

end Sys2Proof.Machine
end

