-- ==== Sys2Proof/Machine/Clk.lean ====
section
/-! DEFINITION.  Reference selection, holdover and the DPLL (R376–R398). -/

namespace Sys2Proof.Machine

/-! ### Model fields of the CLK page -/

/-- An array of hidden fields. -/
def hidA (n w count : Nat) : Fld := ⟨0x1000 + n, 0, w, .ro, 0, 4, count, false⟩

/-- Edges arrive at a REFIN pin (R376). -/
def CLK.ACT : Fld := hidA 0 1 8
/-- The last measurement lay within the hard limit (R382, R389). -/
def CLK.HARD_OK : Fld := hidA 0x20 1 8
/-- The state code of R397 but SELECTED. -/
def CLK.QST : Fld := hidA 0x40 3 8
/-- Consecutive good windows of stage 1 (R384). -/
def CLK.GOOD : Fld := hidA 0x60 4 8
/-- The window before lay beyond the soft limit (R383). -/
def CLK.SOFT1 : Fld := hidA 0x80 1 8
/-- The reference owes the wait-to-restore: it failed while selected (R384). -/
def CLK.OWES : Fld := hidA 0xA0 1 8
/-- Seconds of wait-to-restore still to go. -/
def CLK.WAIT : Fld := hidA 0xC0 10 8
/-- Consecutive windows in which every qualified reference of equal rank agreed (R385). -/
def CLK.AGREE : Fld := hidA 0xE0 3 8
/-- QL messages have failed to come (R378, R379). -/
def CLK.QL_LATE : Fld := hidA 0x100 1 8
/-- Consecutive receive spans without a QL_ANNOUNCE (R379). -/
def CLK.QL_MISS : Fld := hidA 0x120 5 8
/-- The reference is a candidate (R387). -/
def CLK.CAND : Fld := hidA 0x140 1 8
/-- The selected reference was disqualified since the last selection. -/
def CLK.SEL_DISQ : Fld := hid 0x160 1 0
/-- FORCE_INVALID was raised for the present loss (R389). -/
def CLK.FORCE_BAD : Fld := hid 0x164 1 0
/-- The DPLL has been in LOCK for the whole window so far (R393). -/
def CLK.LOCK_ALL : Fld := hid 0x168 1 0
/-- An output is held low by SQUELCH (R394). -/
def CLK.SQUELCHED : Fld := hidA 0x180 1 4

/-- The frequency in Hz that an output drives, 1 in 1PPS mode, 0 while it is off or held low (R394). -/
def CLK.DRIVE : Fld := hidA 0x1A0 28 4
/-- CLK_OSC_TRIM as the window under way began (R396). -/
def CLK.TRIM_WIN : Fld := hid 0x1C0 24 0
/-- The known OSC_IN offset that corrects the FREE output (R391, R396). -/
def CLK.TRIM_FREE : Fld := hid 0x1C4 24 0
/-- A QL_ANNOUNCE came in the receive span under way (R379). -/
def CLK.QL_SEEN : Fld := hidA 0x1E0 1 8
/-- The CLKOUT3 pin is high in 1PPS mode (R407). -/
def TB.PPS_PIN : Fld := hid 4 1 0

/-! ### References and ranks (R376–R380) -/

/-- The host lane of H0 or H1. -/
def Dev.refLane (d : Dev) (r : Nat) : Fin 32 := Fin.ofNat 32 (d.get pgCLK (CLK.REF_CFG_LANE.at r))

/-- The reference is active (R376). -/
def Dev.refActive (d : Dev) (r : Nat) : Bool :=
  if r < 4 then d.flag pgCLK (CLK.ACT.at r)
  else if r < 6 then
    let p : Port := if r = 4 then 0 else 1
    d.online p && d.flag (pgCRV p) CRV.STATUS_TIM_LOCK
  else d.laneUp (d.refLane r)

/-- The rank of an SSM code and an enhanced code, 0xFF standing for no enhanced TLV (R377). -/
def qlRank (ssm essm : Nat) : Nat :=
  if ssm = 2 then (if essm = 0x21 then 8 else if essm = 0x20 then 7 else if essm = 0x23 then 6 else if essm = 0xFF then 5 else 0)
  else if ssm = 4 then 4 else if ssm = 8 then 3
  else if ssm = 0xB then (if essm = 0x22 then 2 else 1)
  else 0

/-- The SSM code sent for a rank (R377, R380). -/
def qlSsm (rank : Nat) : Nat := [0xF, 0xB, 0xB, 8, 4, 2, 2, 2, 2].getD rank 0xF

/-- The enhanced code sent for a rank; where R377 accepts any code, which one is sent is open, but for rank 1 not 0x22. -/
def qlEssm (rank : Nat) : Nat :=
  let open_ := Config.anyEssm rank % 256
  [0xFF, if open_ = 0x22 then 0xFF else open_, 0x22, open_, open_, 0xFF, 0x23, 0x20, 0x21].getD rank 0xFF

/-- The QL source in force: 0 fixed, 1 ESMC, 2 SCC (R377). -/
def Dev.qlSrc (d : Dev) (r : Nat) : Nat :=
  let s := d.get pgCLK (CLK.REF_CFG_QL_SRC.at r)
  if s = 1 ∧ 6 ≤ r then 1 else if s = 2 ∧ (r = 4 ∨ r = 5) then 2 else 0

/-- An Ethernet client owns the lane of an ESMC reference (R378). -/
def Dev.esmcOwned (d : Dev) (r : Nat) : Bool :=
  (List.finRange 32).any fun c => d.cliEth c && d.cliHas c (d.refLane r).val

/-- QL_FAIL of a reference (R378, R379). -/
def Dev.qlFailed (d : Dev) (r : Nat) : Bool :=
  let late := d.flag pgCLK (CLK.QL_LATE.at r)
  if d.qlSrc r = 1 then late || !d.esmcOwned r
  else if d.qlSrc r = 2 then late || !d.flag (pgSCC (if r = 4 then 0 else 1)) SCC.STAT_UP
  else false

/-- The rank of a reference (R377–R379). (DEDUCED: log 116) -/
def Dev.refRank (d : Dev) (r : Nat) : Nat :=
  if d.qlSrc r = 0 then (let q := d.get pgCLK (CLK.REF_CFG_QL_FIX.at r); if q ≤ 8 then q else 0)
  else if d.qlFailed r then 0
  else qlRank (d.get pgCLK (CLK.REF_STAT_SSM.at r)) (d.get pgCLK (CLK.REF_STAT_ESSM.at r))

/-- Ranks and QL_FAIL follow their sources, with QL_CHG and ESMC_TIMEOUT (R377–R379, R398). -/
def Dev.clkRanks (d : Dev) : Dev :=
  (List.range 8).foldl (fun d r =>
    let q := d.refRank r
    let d := d.when (q != d.get pgCLK (CLK.REF_STAT_QL.at r)) (fun d => (d.put pgCLK (CLK.REF_STAT_QL.at r) q).ev pgCLK (16 + r))
    let fail := d.qlFailed r
    let d := d.when (fail && !d.flag pgCLK (CLK.REF_STAT_QL_FAIL.at r)) (·.ev pgCLK 40)
    d.putb pgCLK (CLK.REF_STAT_QL_FAIL.at r) fail) d

/-! ### Candidates and disputes (R385–R387) -/

/-- The reference is qualified and out of its wait. (DEDUCED: log 110) -/
def Dev.refQual (d : Dev) (r : Nat) : Bool := d.get pgCLK (CLK.QST.at r) == 5

/-- The reference is a candidate (R387). -/
def Dev.refCand (d : Dev) (r : Nat) : Bool :=
  d.get pgCLK (CLK.REF_CFG_PRIO.at r) != 0 && d.refQual r &&
    (!d.flag pgCLK CLK.CTL_QLMODE || d.get pgCLK (CLK.REF_STAT_QL.at r) != 0)

/-- Two qualified references of equal rank (R385). -/
def Dev.refPeers (d : Dev) (a b : Nat) : Bool :=
  a != b && d.refQual a && d.refQual b &&
    d.get pgCLK (CLK.REF_CFG_PRIO.at a) == d.get pgCLK (CLK.REF_CFG_PRIO.at b) &&
    (!d.flag pgCLK CLK.CTL_QLMODE || d.get pgCLK (CLK.REF_STAT_QL.at a) == d.get pgCLK (CLK.REF_STAT_QL.at b))

/-- The window offset of a reference, 0.1 ppb. -/
def Dev.refOff (d : Dev) (r : Nat) : Int := sOf 32 (d.get pgCLK (CLK.REF_FREQ_FREQ.at r))

/-- Two offsets of one window disagree (R385). -/
def Dev.refDisagree (d : Dev) (a b : Nat) : Bool :=
  decide (d.get pgCLK CLK.DISPUTE_LIM ≠ 0) &&
    decide ((d.get pgCLK CLK.DISPUTE_LIM * 1000 : Nat) < (d.refOff a - d.refOff b).natAbs)

/-- The dispute marks at the end of a window (R385). (DEDUCED: log 120) -/
def Dev.clkDisputes (d : Dev) : Dev :=
  (List.range 8).foldl (fun d' r =>
    let peers := (List.range 8).filter (d.refPeers r)
    if peers.any (d.refDisagree r) then
      let d' := d'.when (!d'.flag pgCLK (CLK.REF_STAT_DISPUTED.at r)) fun d' =>
        (d'.putb pgCLK (CLK.REF_STAT_DISPUTED.at r) true).ev pgCLK (24 + r)
      d'.put pgCLK (CLK.AGREE.at r) 0
    else
      let n := satN 3 (d'.get pgCLK (CLK.AGREE.at r) + 1)
      (d'.put pgCLK (CLK.AGREE.at r) n).when (decide (4 ≤ n)) (·.putb pgCLK (CLK.REF_STAT_DISPUTED.at r) false)) d

/-- A reference with no qualified partner of equal rank, or with disputes disabled, loses the mark at once (R385). -/
def Dev.clkUnmark (d : Dev) : Dev :=
  (List.range 8).foldl (fun d r =>
    d.when (!(List.range 8).any (d.refPeers r) || d.get pgCLK CLK.DISPUTE_LIM == 0)
      (·.putb pgCLK (CLK.REF_STAT_DISPUTED.at r) false)) d

/-- QUAL as references become candidates, NO_REF as the last goes (R398). -/
def Dev.clkCands (d : Dev) : Dev :=
  let had := (List.range 8).any fun r => d.flag pgCLK (CLK.CAND.at r)
  let d := (List.range 8).foldl (fun d r =>
    let c := d.refCand r
    (d.when (c && !d.flag pgCLK (CLK.CAND.at r)) (·.ev pgCLK (8 + r))).putb pgCLK (CLK.CAND.at r) c) d
  d.when (had && !(List.range 8).any d.refCand) (·.ev pgCLK 39)

/-! ### DPLL (R390–R394) -/

/-- The bandwidth stages of a BW_FINAL code in µHz (R390, R397). -/
def bwStages (bw : Nat) : List Nat :=
  match bw with
  | 0 => [1600000000, 400000000, 100000000, 25000000, 6250000, 1562500, 390625, 100000]
  | 2 => [1600000000, 400000000, 100000000, 25000000, 6250000, 3500000]
  | 3 => [1600000000, 400000000, 100000000, 25000000, 10000000]
  | 4 => [1600000000, 400000000, 100000000]
  | _ => [1600000000, 400000000, 100000000, 25000000, 6250000, 1562500, 1000000]

/-- The stages in force. -/
def Dev.stages (d : Dev) : List Nat := bwStages (d.get pgCLK CLK.CTL_BW_FINAL)

/-- The DPLL state: 0 FREE, 1 ACQ, 2 LOCK, 3 HOLD. -/
def Dev.dpll (d : Dev) : Nat := d.get pgCLK CLK.DPLL_STAT_STATE

/-- The 1PPS pulse under way ends as the output no longer drives it (R394). -/
def Dev.ppsCut (d : Dev) : Dev :=
  if d.get pgCLK (CLK.DRIVE.at 3) != 1 && d.flag pgTB TB.PPS_PIN then (d.putb pgTB TB.PPS_PIN false).emit (.pps false) else d

/-- The output in FREE: OSC_IN nominal corrected by CLK_OSC_TRIM as it stands (R391, R396). (DEDUCED: log 295) -/
def Dev.freeOut (d : Dev) : Dev :=
  if d.dpll = 0 then
    let t := d.get pgCLK CLK.OSC_TRIM_TRIM
    (d.put pgCLK CLK.TRIM_FREE t).emit (.freeTrim (sOf 24 t))
  else d

/-- SQUELCH of each output follows the state, with OUT_SQUELCH as it begins, and what the output drives follows it (R394). -/
def Dev.clkOuts (d : Dev) : Dev :=
  ((List.range 4).foldl (fun d n =>
    let sq := d.get pgCLK (CLK.OUT_SQUELCH.at n)
    let low := d.flag pgCLK (CLK.OUT_EN.at n) && ((d.dpll == 0 && sq != 0) || (d.dpll == 3 && decide (2 ≤ sq)))
    let d := (d.when (low && !d.flag pgCLK (CLK.SQUELCHED.at n)) (·.ev pgCLK 41)).putb pgCLK (CLK.SQUELCHED.at n) low
    let hz := if low || !d.flag pgCLK (CLK.OUT_EN.at n) then 0
      else if n = 3 ∧ d.flag pgCLK (CLK.OUT_PPS.at 3) = true then 1
      else clampN 8000 156250000 (d.get pgCLK (CLK.OUT_HZ.at n))
    if d.get pgCLK (CLK.DRIVE.at n) = hz then d else (d.put pgCLK (CLK.DRIVE.at n) hz).emit (.clkOut n hz)) d).ppsCut

/-- Entry to a DPLL state (R391). -/
def Dev.dpllEnter (d : Dev) (st : Nat) : Dev :=
  if d.dpll = st then d
  else
    let d := (d.put pgCLK CLK.DPLL_STAT_STATE st).put pgCLK CLK.STATUS_STATE st
    let d := (d.put pgCLK CLK.DPLL_HIST_SEEN (d.get pgCLK CLK.DPLL_HIST_SEEN ||| 2 ^ st)).ev pgCLK (34 + st)
    let d := d.putb pgCLK CLK.LOCK_ALL false
    (d.when (st == 3) (·.bump pgCLK CLK.HOLD_ENTRIES 1)).clkOuts.freeOut

/-- ACQ at stage 0. -/
def Dev.dpllAcq (d : Dev) : Dev := (d.put pgCLK CLK.DPLL_STAT_STAGE 0).dpllEnter 1

/-- The holdover value: the mean of the kept windows but the newest 8.  The spec gives no rounding, and no value for no
windows at all: there a free value stands (R393). (DEDUCED: log 115) -/
def Dev.holdover (d : Dev) : Dev :=
  let kept := (d.clkHist.drop 8).take 64
  let sum := kept.foldl (· + ·) 0
  let n : Int := kept.length
  let v := if kept.isEmpty then sOf 32 d.free else if sum % n = 0 then sum / n else sum / n + ((d.free % 2 : Nat) : Int)
  let d := (d.used.put pgCLK CLK.HOLD_FREQ_FREQ (sTo 32 v)).put pgCLK CLK.HOLD_WIN_WIN kept.length
  let short := decide (kept.length < 64)
  (d.putb pgCLK CLK.DPLL_STAT_HOLD_SHORT short).when short (·.ev pgCLK 38)

/-- The DPLL frequency set to the holdover value. -/
def Dev.dpllHold (d : Dev) : Dev := d.put pgCLK CLK.DPLL_FREQ_FREQ (d.get pgCLK CLK.HOLD_FREQ_FREQ)

/-! ### Selection (R387–R389, R392) -/

/-- The order of a candidate, smaller is better, with the DISPUTED key or without it (R387). -/
def Dev.refKey (d : Dev) (dispute : Bool) (r : Nat) : Nat :=
  let low := d.get pgCLK (CLK.REF_CFG_PRIO.at r) * 16 + b2n (dispute && d.flag pgCLK (CLK.REF_STAT_DISPUTED.at r)) * 8 + r
  if d.flag pgCLK CLK.CTL_QLMODE then (8 - d.get pgCLK (CLK.REF_STAT_QL.at r)) * 256 + low else low

/-- The best candidate, with the DISPUTED key or without it. -/
def Dev.clkBest (d : Dev) (dispute : Bool) : Option Nat :=
  ((List.range 8).filter d.refCand).foldl (fun b r =>
    match b with | none => some r | some x => if d.refKey dispute r < d.refKey dispute x then some r else some x) none

/-- The selected reference. -/
def Dev.clkSel (d : Dev) : Option Nat :=
  if d.flag pgCLK CLK.STATUS_SEL_VALID then some (d.get pgCLK CLK.STATUS_SEL) else none

/-- FORCE_REF is usable: active and within the hard limit (R389). -/
def Dev.forceOk (d : Dev) : Bool :=
  let r := d.get pgCLK CLK.CTL_FORCE_REF
  d.refActive r && d.flag pgCLK (CLK.HARD_OK.at r)

/-- FORCE_EN names a usable reference (R389). -/
def Dev.clkForced (d : Dev) : Bool := d.flag pgCLK CLK.CTL_FORCE_EN && d.forceOk

/-- The reference to select, and whether it is forced (R388, R389).  A dispute moves no selection: the selected reference stays where
only the DISPUTED key would replace it (R386). (DEDUCED: log 294) -/
def Dev.clkChoice (d : Dev) : Option Nat × Bool :=
  if d.clkForced then (some (d.get pgCLK CLK.CTL_FORCE_REF), true)
  else
    let best := if d.clkSel.isSome && d.clkBest false == d.clkSel then d.clkSel else d.clkBest true
    match d.clkSel with
    | none => (best, false)
    | some s =>
      let rank (r : Nat) : Nat := d.get pgCLK (CLK.REF_STAT_QL.at r)
      let keep := !d.flag pgCLK CLK.CTL_REVERT && d.refCand s &&
        !(d.flag pgCLK CLK.CTL_QLMODE && (List.range 8).any fun r => d.refCand r && decide (rank s < rank r))
      (if keep then some s else best, false)

/-- No reference is selected: HOLD with a history, FREE without (R391). -/
def Dev.clkNone (d : Dev) : Dev :=
  let d := (d.put pgCLK CLK.STATUS_SEL 0).putb pgCLK CLK.STATUS_SEL_VALID false
  if d.dpll ≠ 1 ∧ d.dpll ≠ 2 then d
  else if d.clkHist.isEmpty then (d.put pgCLK CLK.DPLL_FREQ_FREQ 0).dpllEnter 0
  else ((d.when (!d.flag pgCLK CLK.SEL_DISQ) Dev.holdover).dpllHold).dpllEnter 3

/-- Reference `b` is selected: from no reference ACQ at stage 0, from another R392. (DEDUCED: log 113) -/
def Dev.clkTo (d : Dev) (b : Nat) (forced : Bool) : Dev :=
  let was := d.clkSel
  let d := (d.put pgCLK CLK.STATUS_SEL b).putb pgCLK CLK.STATUS_SEL_VALID true
  let d := d.when (!forced && d.flag pgCLK (CLK.REF_STAT_DISPUTED.at b)) (·.ev pgCLK 33)
  if was.isNone then d.dpllAcq
  else
    let d := (d.bump pgCLK CLK.SWITCHES 1).ev pgCLK 32
    let d := d.when (d.flag pgCLK CLK.SEL_DISQ) Dev.dpllHold
    if (d.refOff b - sOf 32 (d.get pgCLK CLK.DPLL_FREQ_FREQ)).natAbs ≤ 500 then d else d.dpllAcq

/-- FORCE_INVALID, once per loss (R389). -/
def Dev.clkForce (d : Dev) : Dev :=
  let bad := d.flag pgCLK CLK.CTL_FORCE_EN && !d.forceOk
  (d.when (bad && !d.flag pgCLK CLK.FORCE_BAD) (·.ev pgCLK 42)).putb pgCLK CLK.FORCE_BAD bad

/-- One selection (R388, R389). -/
def Dev.clkSelect (d : Dev) : Dev :=
  let ch := d.clkChoice
  let d := if ch.1 = d.clkSel then d else match ch.1 with | none => d.clkNone | some b => d.clkTo b ch.2
  (d.putb pgCLK CLK.DPLL_STAT_FORCED ch.2).putb pgCLK CLK.SEL_DISQ false

/-- The rank of the device clock (R380). -/
def Dev.hostRank (d : Dev) : Nat :=
  if d.dpll = 1 ∨ d.dpll = 2 then d.get pgCLK (CLK.REF_STAT_QL.at (d.get pgCLK CLK.STATUS_SEL))
  else if d.get pgCLK CLK.CTL_OWN_QL ≤ 8 then d.get pgCLK CLK.CTL_OWN_QL else 0

/-- The rank sent on a port (R380). -/
def Dev.portRank (d : Dev) (p : Port) : Nat := if d.clkSel = some (4 + p.val) then 0 else d.hostRank

/-- The payload of QL_ANNOUNCE on a port (R379, R380). -/
def Dev.qlAnnounceMsg (d : Dev) (p : Port) : List Nat :=
  [0x24, qlSsm (d.portRank p), qlEssm (d.portRank p)] ++ List.replicate 13 0

/-- CLK_QL_OUT and CLK_REF_STAT shown (R380, R397). (DEDUCED: log 117) -/
def Dev.clkShow (d : Dev) : Dev :=
  let d := (d.put pgCLK CLK.QL_OUT_HOST d.hostRank).put pgCLK CLK.QL_OUT_SSM (qlSsm d.hostRank)
  let d := ((d.put pgCLK CLK.QL_OUT_ESSM (qlEssm d.hostRank)).put pgCLK CLK.QL_OUT_LP0 (d.portRank 0)).put pgCLK
    CLK.QL_OUT_LP1 (d.portRank 1)
  (List.range 8).foldl (fun d r =>
    let q := d.get pgCLK (CLK.QST.at r)
    let secs := if q = 3 then 10 - d.get pgCLK (CLK.GOOD.at r) else if q = 4 then d.get pgCLK (CLK.WAIT.at r) else 0
    (d.put pgCLK (CLK.REF_STAT_STATE.at r) (if d.clkSel = some r then 6 else q)).put pgCLK (CLK.REF_STAT_TIMER.at r)
      (cdiv secs 4)) d

/-- Ranks, marks and candidates follow; a selection is made when asked for, when the selected reference has stopped
being a candidate (R388), or for a usable FORCE_REF (R389). -/
def Dev.clkEval (d : Dev) (select : Bool) : Dev :=
  let d := d.clkRanks.clkUnmark.clkCands.clkForce
  let gone := match d.clkSel with | some r => !d.refCand r && !d.clkForced | none => false
  (d.when (select || gone || d.clkForced) Dev.clkSelect).clkShow

/-! ### Disqualification and requalification (R382–R384) -/

/-- A reference that is qualified, or selected by force without being so, is disqualified; another one restarts stage 1.  `dest` is its
new state code, a disabled reference staying OFF. -/
def Dev.refDisq (d : Dev) (r reason dest : Nat) : Dev :=
  let sel := decide (d.clkSel = some r)
  let off := decide (d.get pgCLK (CLK.REF_CFG_PRIO.at r) = 0)
  if off && !sel then d
  else
    let d := d.when (d.refQual r || sel) fun d => ((d.bump pgCLK CLK.DISQ 1).ev pgCLK r).putb pgCLK (CLK.OWES.at r) sel
    let d := d.when sel fun d => d.holdover.putb pgCLK CLK.SEL_DISQ true
    let d := (d.put pgCLK (CLK.REF_STAT_REASON.at r) reason).put pgCLK (CLK.QST.at r) (if off then 0 else dest)
    (d.put pgCLK (CLK.GOOD.at r) 0).put pgCLK (CLK.WAIT.at r) 0

/-- Loss of activity. -/
def Dev.refLoss (d : Dev) (r : Nat) : Dev :=
  let d := (d.putb pgCLK (CLK.ACT.at r) false).putb pgCLK (CLK.HARD_OK.at r) false
  let d := d.putb pgCLK (CLK.SOFT1.at r) false
  if d.get pgCLK (CLK.QST.at r) = 1 then d else d.refDisq r 1 1

/-- REF_LOS: references 4 to 7 lose their activity with TIM_LOCK or the lane (R376). (DEDUCED: log 109) -/
def refLosDo (r : Nat) (d : Dev) : Dev :=
  if 4 ≤ r ∧ d.refActive r then d else (d.refLoss r).clkEval true

/-- The wait of a reference ends: it is qualified. -/
def Dev.wtrEnd (d : Dev) (r : Nat) : Dev :=
  if d.get pgCLK (CLK.QST.at r) = 4 then
    ((d.put pgCLK (CLK.QST.at r) 5).put pgCLK (CLK.WAIT.at r) 0).putb pgCLK (CLK.OWES.at r) false
  else d

/-- The soft and hard limits in 0.1 ppb (R397). -/
def Dev.softLim (d : Dev) : Nat := 1000 * max 1 (d.get pgCLK CLK.MON_LIM_SOFT)

/-- The hard limit in 0.1 ppb. -/
def Dev.hardLim (d : Dev) : Nat := 1000 * min 1000 (d.get pgCLK CLK.MON_LIM_HARD)

/-- The nominal frequency of a reference in Hz (R376, R397). -/
def Dev.refNominal (d : Dev) (r : Nat) : Nat :=
  if r = 3 ∧ d.flag pgCLK (CLK.REFIN_FREQ_PPS.at 3) = true then 1
  else if r < 4 then clampN 8000 156250000 (d.get pgCLK (CLK.REFIN_FREQ_HZ.at r))
  else if r < 6 then d.rxBaud (if r = 4 then 0 else 1) * 1000000 else 212500000000

/-- The offset of a reference from nominal in 0.1 ppb, as numerator and denominator: `f` holds the periods counted between its edges
and the OSC_IN time they took in fs; OSC_IN's own known offset corrects it (R381, R396, R397). -/
def Dev.refOffset (d : Dev) (r : Nat) (f : Nat × Nat) : Int × Int :=
  let n : Int := d.refNominal r * f.2
  (f.1 * 10 ^ 15 * (10 ^ 10 + sOf 24 (d.get pgCLK CLK.TRIM_WIN)) - n * 10 ^ 10, n)

/-- FREQ_SUBWINDOW: an offset beyond the hard limit disqualifies at once (R382).  Edges that take no time are no measurement. -/
def freqSubDo (r : Nat) (f : Nat × Nat) (d : Dev) : Dev :=
  if f.2 = 0 then d
  else
    let q := d.refOffset r f
    let ok := decide (q.1.natAbs ≤ d.hardLim * q.2.natAbs)
    let d := d.putb pgCLK (CLK.HARD_OK.at r) ok
    if ok then d.clkEval false
    else if d.get pgCLK (CLK.QST.at r) = 1 then d.clkEval true
    else (d.refDisq r 2 2).clkEval true

/-- A good window of an enabled reference that is not qualified counts toward stage 1, or toward its wait (R384). (DEDUCED: log 112) -/
def Dev.goodWindow (d : Dev) (r : Nat) : Dev :=
  let q := d.get pgCLK (CLK.QST.at r)
  if q = 0 ∨ q = 5 then d
  else if q = 4 then
    let d := d.put pgCLK (CLK.WAIT.at r) (d.get pgCLK (CLK.WAIT.at r) - 1)
    if d.get pgCLK (CLK.WAIT.at r) = 0 then d.wtrEnd r else d
  else
    let n := d.get pgCLK (CLK.GOOD.at r) + 1
    let d := (d.put pgCLK (CLK.GOOD.at r) n).put pgCLK (CLK.QST.at r) 3
    let wait := 60 * min 12 (d.get pgCLK CLK.WTR_MIN)
    if n < 10 then d
    else if d.flag pgCLK (CLK.OWES.at r) && d.flag pgCLK CLK.CTL_REVERT && wait != 0 then
      (d.put pgCLK (CLK.QST.at r) 4).put pgCLK (CLK.WAIT.at r) wait
    else (d.put pgCLK (CLK.QST.at r) 5).putb pgCLK (CLK.OWES.at r) false

/-- The end of a window for one reference: `f` is its measurement (R381, R383, R384).  The spec gives the offset no rounding. -/
def Dev.refWindow (d : Dev) (r : Nat) (f : Option (Nat × Nat)) : Dev :=
  match f with
  | none => d.refLoss r
  | some f =>
    let q := d.refOffset r f
    let o := if q.1 % q.2 = 0 then q.1 / q.2 else q.1 / q.2 + ((d.free % 2 : Nat) : Int)
    let d := d.used
    let d := (d.put pgCLK (CLK.REF_FREQ_FREQ.at r) (sTo 32 o)).putb pgCLK (CLK.ACT.at r) true
    let d := d.putb pgCLK (CLK.HARD_OK.at r) (decide (o.natAbs ≤ d.hardLim))
    if o.natAbs ≤ d.softLim then (d.putb pgCLK (CLK.SOFT1.at r) false).goodWindow r
    else
      let second := d.flag pgCLK (CLK.SOFT1.at r)
      let d := d.putb pgCLK (CLK.SOFT1.at r) true
      let sel := decide (d.clkSel = some r ∧ d.get pgCLK (CLK.QST.at r) ≠ 2)
      if d.refQual r || sel then (if second then d.refDisq r 3 2 else d)
      else if d.get pgCLK (CLK.QST.at r) = 0 then d
      else ((d.put pgCLK (CLK.QST.at r) 2).put pgCLK (CLK.GOOD.at r) 0).put pgCLK (CLK.WAIT.at r) 0

/-- MONITOR_WINDOW: the DPLL's history, every reference, disputes, one selection (R381–R388, R393). (DEDUCED: log 111) -/
def monitorWindowDo (freqs : List (Option (Nat × Nat))) (dpll : Int) (phase : Nat) (d : Dev) : Dev :=
  let run := d.dpll == 1 || d.dpll == 2
  let d := d.when run fun d => (d.put pgCLK CLK.DPLL_FREQ_FREQ (sTo 32 dpll)).put pgCLK CLK.PHASE_ERR_ERR phase
  let d := if d.flag pgCLK CLK.LOCK_ALL then { d with clkHist := (dpll :: d.clkHist).take 72 } else d
  let d := d.putb pgCLK CLK.LOCK_ALL (d.dpll == 2)
  let d := (List.range 8).foldl (fun d r =>
    d.refWindow r (if 4 ≤ r ∧ d.refActive r = false then none else (freqs.getD r none).filter (·.2 != 0))) d
  let d := d.put pgCLK CLK.TRIM_WIN (d.get pgCLK CLK.OSC_TRIM_TRIM)
  d.clkRanks.clkDisputes.clkEval true

/-! ### Host writes -/

/-- CLK_CMD: WTR_CLR and HIST_CLR (R384, R393). (DEDUCED: log 119) -/
def clkCmdWrite (w : Word) (d : Dev) : Dev :=
  let d := (List.range 8).foldl (fun d r => d.when (bitOf w.toNat r) (·.wtrEnd r)) d
  let d := if bitOf w.toNat 8 then { d with clkHist := [] } else d
  d.clkEval false

/-- The stage after BW_FINAL changed in ACQ: the same bandwidth in the new list, else the next lower, else the last (R396). (DEDUCED: log 118) -/
def newStage (old new : List Nat) (i : Nat) : Nat :=
  let b := old.getD i 0
  match new.findIdx? (fun x => decide (x ≤ b)) with | some k => k | none => new.length - 1

/-- A write of CLK_CTL (R388, R396). -/
def clkCtlDo (w : Word) (d : Dev) : Dev :=
  let old := d.stages
  let d := d.putWs pgCLK [CLK.CTL_QLMODE, CLK.CTL_REVERT, CLK.CTL_FORCE_EN, CLK.CTL_FORCE_REF, CLK.CTL_BW_FINAL, CLK.CTL_OWN_QL] w
  let d := d.when (d.dpll == 1) fun d =>
    d.put pgCLK CLK.DPLL_STAT_STAGE (newStage old d.stages (d.get pgCLK CLK.DPLL_STAT_STAGE))
  d.clkEval true

/-- A write of CLK_REF_CFG: PRIO leaving 0 starts stage 1, PRIO 0 disables (R384, R388). -/
def clkRefDo (r : Nat) (w : Word) (d : Dev) : Dev :=
  let was := d.get pgCLK (CLK.REF_CFG_PRIO.at r)
  let d := d.putWs pgCLK [CLK.REF_CFG_PRIO.at r, CLK.REF_CFG_QL_SRC.at r, CLK.REF_CFG_QL_FIX.at r, CLK.REF_CFG_LANE.at r] w
  let now := d.get pgCLK (CLK.REF_CFG_PRIO.at r)
  let fresh (d : Dev) (q : Nat) : Dev :=
    ((d.put pgCLK (CLK.QST.at r) q).put pgCLK (CLK.GOOD.at r) 0).put pgCLK (CLK.WAIT.at r) 0 |>.putb pgCLK (CLK.OWES.at r) false
  let d := if was = 0 ∧ now ≠ 0 then fresh d (if d.refActive r then 3 else 1) else if was ≠ 0 ∧ now = 0 then fresh d 0 else d
  d.clkEval true

/-! ### QL messages -/

/-- The PDU is a valid ESMC PDU (R378). -/
def esmcOk (m : EsmcPdu) : Bool :=
  m.da == 0x0180C2000002#48 && m.etype == 0x8809#16 && m.slow == 0x0A#8 && m.oui == 0x0019A7#24 && m.itu == 1#16 &&
    m.tlvType == 1#8 && m.tlvLen == 4#16

/-- The enhanced code of a PDU: 0xFF without an extended QL TLV. -/
def esmcEssm (m : EsmcPdu) : Nat :=
  match m.ext with | some (t, l, v) => if t = 2#8 ∧ l = 20#16 then v.toNat else 0xFF | none => 0xFF

/-- The codes of a received message stand for a reference. -/
def Dev.qlCodes (d : Dev) (r ssm essm : Nat) : Dev :=
  let d := (d.put pgCLK (CLK.REF_STAT_SSM.at r) ssm).put pgCLK (CLK.REF_STAT_ESSM.at r) essm
  (((d.putb pgCLK (CLK.QL_LATE.at r) false).put pgCLK (CLK.QL_MISS.at r) 0).putb pgCLK (CLK.QL_SEEN.at r) true).clkEval false

/-- ESMC_PDU: read for an ESMC reference whose lane an Ethernet client owns (R378). -/
def esmcPduDo (r : Nat) (m : EsmcPdu) (d : Dev) : Dev :=
  if d.qlSrc r ≠ 1 ∨ d.esmcOwned r = false then d
  else if esmcOk m then (d.bump pgCLK CLK.ESMC_RX 1).qlCodes r (m.last.toNat % 16) (esmcEssm m)
  else d.bump pgCLK CLK.ESMC_BAD 1

/-- ESMC_TIMEOUT: on a line reference after 16 receive spans without QL_ANNOUNCE (R378, R379). -/
def esmcTimeoutDo (r : Nat) (d : Dev) : Dev :=
  if d.qlSrc r = 1 ∨ (d.qlSrc r = 2 ∧ 16 ≤ d.get pgCLK (CLK.QL_MISS.at r)) then
    (d.putb pgCLK (CLK.QL_LATE.at r) true).clkEval false
  else d

/-- A receive span of a port ends: one more without a QL_ANNOUNCE where none came in it; with the sixteenth QL_FAIL is set (R379). -/
def Dev.qlSpan (d : Dev) (p : Port) : Dev :=
  let r := 4 + p.val
  let n := if d.flag pgCLK (CLK.QL_SEEN.at r) then 0 else satN 5 (d.get pgCLK (CLK.QL_MISS.at r) + 1)
  let d := (d.put pgCLK (CLK.QL_MISS.at r) n).putb pgCLK (CLK.QL_SEEN.at r) false
  if 16 ≤ n then (d.putb pgCLK (CLK.QL_LATE.at r) true).clkEval false else d

/-- QL_ANNOUNCE received (R379). -/
def qlAnnounceDo (p : Port) (ssm essm : Nat) (d : Dev) : Dev :=
  (d.bump pgCLK CLK.QLANN_RX 1).qlCodes (4 + p.val) ssm essm

/-! ### DPLL happenings (R390, R391) -/

/-- DPLL_STAGE_DONE: the next stage, or LOCK after the last. (DEDUCED: log 114) -/
def stageDoneDo (phase : Nat) (d : Dev) : Dev :=
  if d.dpll ≠ 1 then d
  else
    let d := d.put pgCLK CLK.PHASE_ERR_ERR phase
    let i := d.get pgCLK CLK.DPLL_STAT_STAGE
    (if i + 1 < d.stages.length then d.put pgCLK CLK.DPLL_STAT_STAGE (i + 1) else d.dpllEnter 2).clkShow

/-- DPLL_LOCK_LOSS: back to ACQ, stage 0. -/
def lockLossDo (phase : Nat) (d : Dev) : Dev :=
  if d.dpll = 2 then ((d.put pgCLK CLK.PHASE_ERR_ERR phase).dpllAcq).clkShow else d

/-! ### The commands -/

/-- CLI_CFG_WRITE: the client's lanes may own an ESMC reference's lane (R287, R378). -/
def execCliCfgWrite (c : Fin 32) (w : Word) (s : State) : Host.Outcome State Fault Refusal :=
  s.run fun d => (cliCfgWriteDo c w d).clkEval false

def execRefLos (r : Fin 8) (s : State) : Host.Outcome State Fault Refusal := s.run (refLosDo r.val)

def execMonitorWindow (freqs : List (Option (BitVec 64 × BitVec 64))) (dpll : BitVec 32) (phase : BitVec 16) (s : State) :
    Host.Outcome State Fault Refusal :=
  s.run (monitorWindowDo (freqs.map fun o => o.map fun x => (x.1.toNat, x.2.toNat)) dpll.toInt phase.toNat)

def execFreqSubwindow (r : Fin 8) (count : BitVec 64 × BitVec 64) (s : State) : Host.Outcome State Fault Refusal :=
  s.run (freqSubDo r.val (count.1.toNat, count.2.toNat))

def execWtrExpiry (r : Fin 8) (s : State) : Host.Outcome State Fault Refusal := s.run fun d => (d.wtrEnd r.val).clkEval false

/-- WTR_CLR: a write of CLK_CMD. -/
def execWtrClr (w : Word) (s : State) : Host.Outcome State Fault Refusal := s.run (clkCmdWrite w)

/-- HIST_CLR: a write of CLK_CMD whose HIST_CLR bit is 1. -/
def execHistClr (w : Word) (s : State) : Host.Outcome State Fault Refusal := s.run (clkCmdWrite (w ||| 0x100#32))

def execClkCtlWrite (r : Option (Fin 8)) (w : Word) (s : State) : Host.Outcome State Fault Refusal :=
  s.run (match r with | none => clkCtlDo w | some r => clkRefDo r.val w)

def execEsmcPdu (h : Fin 2) (m : EsmcPdu) (s : State) : Host.Outcome State Fault Refusal := s.run (esmcPduDo (6 + h.val) m)

def execEsmcTimeout (r : Fin 8) (s : State) : Host.Outcome State Fault Refusal := s.run (esmcTimeoutDo r.val)

def execQlAnnounce (p : Port) (ssm : BitVec 4) (essm : BitVec 8) (s : State) : Host.Outcome State Fault Refusal :=
  s.run (qlAnnounceDo p ssm.toNat essm.toNat)

def execDpllStageDone (phase : BitVec 16) (s : State) : Host.Outcome State Fault Refusal := s.run (stageDoneDo phase.toNat)

def execDpllLockLoss (phase : BitVec 16) (s : State) : Host.Outcome State Fault Refusal := s.run (lockLossDo phase.toNat)

end Sys2Proof.Machine
end

