-- ==== Sys2Proof/Machine/Time.lean ====
section
/-! DEFINITION.  Time bases, PTP timestamps, time across the line, 1PPS and the timed launch queue (R300–R303,
R399–R419). -/

namespace Sys2Proof.Machine

/-! ### Time bases (R399–R402) -/

/-- The hub clock of the last step of a time base carried it over a multiple of 10^9 ns (R407). -/
def TB.SECOND : Fld := hid 0 1 0

/-- A time base value wraps at 80 bits, in units of 2^-16 ns. -/
def m80 : Nat := 2 ^ 80

/-- Parts of 2^-16 ns a time base counts in: a clock of 32/45 ns times (1 + TRIM × 10^-12) is a whole number of them. -/
def tbParts : Nat := 45 * 10 ^ 12

/-- A time base in 2^-16 ns (R399). -/
def Dev.tbVal (d : Dev) (n : Nat) : Nat := FMap.get d.tb n / tbParts

/-- Nanoseconds of a time base. -/
def Dev.tbNs (d : Dev) (n : Nat) : Nat := d.tbVal n / 2 ^ 16

/-- The trim applied (R401). -/
def Dev.tbTrim (d : Dev) (n : Nat) : Int := clampI (-500000000) 500000000 (sOf 32 (d.get pgTB (TB.TRIM.at n)))

/-- A time base advanced by a signed number of parts. -/
def Dev.tbAdd (d : Dev) (n : Nat) (parts : Int) : Dev :=
  { d with tb := FMap.set d.tb n (((FMap.get d.tb n : Int) + parts) % ((m80 * tbParts : Nat) : Int)).toNat }

/-- The second that the 1PPS time base is in, with TB_PPS_OFS (R407). -/
def Dev.ppsSecond (d : Dev) : Int :=
  let n := d.get pgTB TB.PPS_CTL_SEL
  ((d.tbNs n : Int) + sOf 32 (d.get pgTB TB.PPS_OFS_OFS)) / 1000000000

/-- One hub clock: every time base counts 32/45 ns × (1 + TRIM × 10^-12) (R399). -/
def Dev.tbTick (d : Dev) : Dev :=
  let was := d.ppsSecond
  let d := (List.range 4).foldl (fun d n => d.tbAdd n (2 ^ 21 * (10 ^ 12 + d.tbTrim n))) d
  d.putb pgTB TB.SECOND (d.ppsSecond != was)

/-- TRIM_CLAMP: a write of TBn_TRIM; beyond 500 ppm the nearer limit applies, with TRIM_SAT and the event (R401). (DEDUCED: log 121) -/
def tbTrimWrite (n : Nat) (w : Word) (d : Dev) : Dev :=
  let d := d.putW pgTB (TB.TRIM.at n) w
  let sat := decide (d.tbTrim n ≠ sOf 32 w.toNat)
  (d.putBit pgTB TB.STATUS_TRIM_SAT n sat).when sat (·.ev pgTB 7)

/-! ### The timed launch queue (R409–R415) -/

/-- The signed 64-bit difference of R410. -/
def diff64 (a b : Nat) : Int := sOf 64 ((a % 2 ^ 64 + (2 ^ 64 - b % 2 ^ 64)) % 2 ^ 64)

/-- The entry is due (R410). -/
def Dev.tlqIsDue (d : Dev) (e : TlqEntry) : Bool := decide (0 ≤ diff64 (d.tbNs e.req.tb) e.req.target)

/-- The entry is too late to launch (R411). -/
def Dev.tlqIsLate (d : Dev) (e : TlqEntry) : Bool :=
  decide (((max 1 (d.get pgTLQ TLQ.CTL_LATE) * 1000 : Nat) : Int) < diff64 (d.tbNs e.req.tb) e.req.target)

/-- A record in the done ring, or DONE_OVF when it is full (R414). -/
def Dev.tlqRecord (d : Dev) (e : TlqEntry) (outcome stamp : Nat) : Dev :=
  let wr := d.get pgTLQ TLQ.DONE_WR_WR
  if (wr + 256 - d.get pgTLQ TLQ.DONE_RD_RD) % 256 = 32 then (d.bump pgTLQ TLQ.DONE_DROP 1).ev pgTLQ 5
  else
    let at_ (k : Nat) : Fld := TLQ.DONE_WORD.at (4 * (wr % 32) + k)
    let d := (d.put pgTLQ (at_ 0) (e.req.tag + outcome * 2 ^ 16 + e.idx * 2 ^ 24)).put pgTLQ (at_ 1) (stamp / 2 ^ 16)
    let d := (d.put pgTLQ (at_ 2) (stamp / 2 ^ 48)).put pgTLQ (at_ 3) (stamp % 2 ^ 16 + wr * 2 ^ 24)
    (d.bump pgTLQ TLQ.DONE_WR_WR 1).ev pgTLQ 0

/-- An entry leaves the queue. -/
def Dev.tlqRemove (d : Dev) (idx : Nat) : Dev :=
  let d := { d with tlq := d.tlq.filter (·.idx != idx) }
  d.put pgTLQ TLQ.STATUS_COUNT d.tlq.length

/-- An entry is dropped: 1 LATE, 2 FLUSHED, 3 DEST (R411–R414). -/
def Dev.tlqDrop (d : Dev) (e : TlqEntry) (outcome : Nat) : Dev :=
  let d := d.tlqRemove e.idx
  let d := if outcome = 1 then (d.bump pgTLQ TLQ.LATE_DROP 1).ev pgTLQ 1
    else if outcome = 2 then (d.bump pgTLQ TLQ.FLUSHED 1).ev pgTLQ 3 else d.ev pgTLQ 4
  d.tlqRecord e outcome (d.tbVal e.req.tb)

/-- Entries whose launch has not started are dropped when a condition holds. -/
def Dev.tlqDropIf (d : Dev) (f : TlqEntry → Bool) (outcome : Nat) : Dev :=
  (d.tlq.filter fun e => e.launched.isNone && f e).foldl (fun d e => d.tlqDrop e outcome) d

/-- What a backward step of a time base does to the queue (R412). -/
def Dev.tlqBack (d : Dev) (n : Nat) : Dev :=
  d.when (d.flag pgTLQ TLQ.CTL_STEP_FLUSH) (·.tlqDropIf (·.req.tb == n) 2)

/-- What a forward step of a time base does to the queue (R413). -/
def Dev.tlqForward (d : Dev) (n : Nat) : Dev := d.tlqDropIf (fun e => e.req.tb == n && d.tlqIsLate e) 1

/-- The client number of an entry. -/
def TlqReq.client (r : TlqReq) : Fin 32 := Fin.ofNat 32 r.num

/-- The port of an SCC entry. -/
def TlqReq.port (r : TlqReq) : Port := if r.num % 2 = 0 then 0 else 1

/-- The destination cannot take the entry (R411). -/
def Dev.tlqNoDest (d : Dev) (r : TlqReq) : Bool :=
  if r.scc then !d.flag (pgSCC r.port) SCC.STAT_UP || !d.online r.port
  else !d.flag (pgCLI r.client) CLI.STATUS_RX_LIVE || d.get (pgCLI r.client) CLI.CFG_TYPE == 5 || !d.online (d.cliPort r.client)

/-- Two requests go to one destination. -/
def TlqReq.same (a b : TlqReq) : Bool := a.scc == b.scc && (if a.scc then a.num % 2 == b.num % 2 else a.num == b.num)

/-- Another entry to the same destination launches, or is due with an earlier target, or with an equal one and enqueued
earlier (R410). -/
def Dev.tlqBlocked (d : Dev) (e : TlqEntry) : Bool :=
  let before := d.tlq.takeWhile (·.idx != e.idx)
  d.tlq.any fun x => x.idx != e.idx && x.req.same e.req &&
    (x.launched.isSome ||
      (d.tlqIsDue x && (decide (diff64 x.req.target e.req.target < 0) ||
        (x.req.target == e.req.target && before.any (·.idx == x.idx)))))

/-- TLQ_DUE: an entry first in its destination's order launches, or is dropped as LATE or DEST (R410, R411); on a client the launch
waits while a frame is open (R303). -/
def tlqDueDo (idx : Nat) (d : Dev) : Dev :=
  match d.tlq.find? (·.idx == idx) with
  | none => d
  | some e =>
    if e.launched.isSome || !d.tlqIsDue e || d.tlqBlocked e ||
        (!e.req.scc && !d.tlqNoDest e.req && d.flag (pgCLI e.req.client) CLI.EG_OPEN) then d
    else if d.tlqIsLate e then d.tlqDrop e 1
    else if d.tlqNoDest e.req then
      (d.when (!e.req.scc && d.get (pgCLI e.req.client) CLI.CFG_TYPE == 5) (·.bump (pgCLI e.req.client) CLI.LAUNCH_DROP 1)).tlqDrop e 3
    else
      let now := d.tbVal e.req.tb
      let d := { d with tlq := d.tlq.map fun x => if x.idx == idx then { x with launched := some now } else x }
      if e.req.scc then
        let m : TxMsg := ⟨e.frame.map (·.toNat), false, idx + 1⟩
        d.sccUpd e.req.port fun s =>
          match s.tx2 with
          | h :: t => if h.opened then { s with tx2 := h :: m :: t } else { s with tx2 := m :: h :: t }
          | [] => { s with tx2 := [m] }
      else d

/-- An inter-frame gap on a client: its due entries launch in their order (R303). -/
def Dev.tlqGap (d : Dev) (c : Fin 32) : Dev :=
  (d.tlq.filter fun e => !e.req.scc && e.req.client == c).foldl (fun d e => tlqDueDo e.idx d) d

/-- The 16-bit number at a place of a frame. -/
def be16At (f : List Nat) (i : Nat) : Nat := 256 * f.getD i 0 + f.getD (i + 1) 0

/-- Bytes put at a place of a frame. -/
def putAt (f : List Nat) (i : Nat) (b : List Nat) : List Nat := f.take i ++ b ++ f.drop (i + b.length)

/-- Where the PTP message of a frame begins, behind at most two VLAN tags, and its encapsulation: 0 L2, 1 IPv4, 2 IPv6 (R300). (PRESUMED: log 253) -/
def ptpPlace (f : List Nat) : Option (Nat × Nat) :=
  let tag (i : Nat) : Bool := be16At f i == 0x8100 || be16At f i == 0x88A8
  let i := if tag 12 then (if tag 16 then 22 else 18) else 14
  let t := be16At f (i - 2)
  let v4 := i + 4 * (f.getD i 0 % 16)
  if t = 0x88F7 then some (0, i)
  else if t = 0x0800 ∧ f.getD (i + 9) 0 = 17 ∧ be16At f (v4 + 2) = 319 then some (1, v4 + 8)
  else if t = 0x86DD ∧ f.getD (i + 6) 0 = 17 ∧ be16At f (i + 42) = 319 then some (2, i + 48)
  else none

/-- A one's-complement sum of 16 bits. -/
def onesAdd (a b : Nat) : Nat := (a + b) % 65536 + (a + b) / 65536

/-- The one's-complement sum of 16-bit words. -/
def onesSum (l : List Nat) : Nat := l.foldl onesAdd 0

/-- The CRC-32 of IEEE 802.3 over some bytes. -/
def crc32Bytes (l : List Nat) : Nat :=
  (l.foldl (fun c b => (List.range 8).foldl (fun c _ => crc32Step c) (c ^^^ b)) 0xFFFFFFFF) ^^^ 0xFFFFFFFF

/-- A frame with its FCS, its last four bytes, recomputed (R303). -/
def withFcs (f : List Nat) : List Nat :=
  let b := f.take (f.length - 4)
  let c := crc32Bytes b
  b ++ (List.range 4).map fun k => c / 256 ^ k % 256

/-- The Sync message at `i` with its originTimestamp, and what the UDP checksum then needs: zero under IPv4, and under IPv6 the two
bytes behind the message take up the change (R303). -/
def stampSync (f : List Nat) (enc i ns : Nat) : List Nat :=
  let t := beBytes 6 (ns / 1000000000) ++ beBytes 4 (ns % 1000000000)
  let words (f : List Nat) : Nat := onesSum ((List.range 5).map fun k => be16At f (i + 34 + 2 * k))
  let g := putAt f (i + 34) t
  if enc = 1 then putAt g (i - 2) [0, 0]
  else if enc = 2 then
    let e := i + be16At f (i + 2)
    putAt g e (beBytes 2 (onesAdd (onesAdd (be16At f e) (words f)) (65535 - words g)))
  else g

/-- The frame of a launch as it leaves: a one-step Sync message that the client recognises carries the egress timestamp, with a
new FCS unless a block of it was marked (R300, R303, R304). -/
def Dev.launchFrame (d : Dev) (c : Fin 32) (e : TlqEntry) (stamp : Nat) : List Nat :=
  let f := e.frame.map (·.toNat)
  match ptpPlace f with
  | none => f
  | some (enc, i) =>
    let on := d.flag (pgCLI c) CLI.PTP_EN && d.flag (pgCLI c) ([CLI.PTP_L2, CLI.PTP_IPV4, CLI.PTP_IPV6].getD enc CLI.PTP_L2)
    if e.req.onestep && on && f.getD i 0 % 16 == 0 && decide (i + 44 ≤ f.length) then
      let g := stampSync f enc i (stamp / 2 ^ 16)
      if e.bad then g else withFcs g
    else f

/-- The egress timestamp of a launched frame, `lag` after its timestamp point (R301). -/
def Dev.egStamp (d : Dev) (c : Fin 32) (lag : Nat) : Nat :=
  (((d.tbVal (d.get (pgCLI c) CLI.PTP_TB) : Int) - (lag : Int) + 4096 * sOf 16 (d.get (pgCLI c) CLI.TS_OFS_EG)) % (m80 : Int)).toNat

/-- TLQ_LAUNCH_DONE: the launch completes; on the SCC once its last cell has gone.  A one-step Sync carries the egress
timestamp (R303, R414). (DEDUCED: log 123) -/
def tlqLaunchDoneDo (idx : Nat) (lag : Nat) (d : Dev) : Dev :=
  match d.tlq.find? (·.idx == idx) with
  | none => d
  | some e =>
    match e.launched with
    | none => d
    | some t =>
      if e.req.scc && (d.scc.get e.req.port).tx2.any (·.entry == idx + 1) then d
      else
        let c := e.req.client
        let d := d.when (!e.req.scc) fun d =>
          (d.bump (pgCLI c) CLI.FRAMES_EG 1).emit (.clientFrame c.val (d.launchFrame c e (d.egStamp c lag)) e.cut)
        ((d.tlqRemove idx).bump pgTLQ TLQ.LAUNCHED 1).tlqRecord e 0 t

/-- The outcome of an enqueue: 1 OK, 2 FULL, 3 BADLEN, 4 BADDEST (R409). -/
def Dev.tlqOutcome (d : Dev) (r : TlqReq) : Nat :=
  if 128 ≤ d.tlq.length then 2
  else if r.len = 0 ∨ (if r.scc then 512 else 2048) < r.len then 3
  else if r.scc = false ∧ d.cliEth r.client = false then 4
  else 1

/-- A free entry index; which of the free ones is given is open. -/
def Dev.tlqIndex (d : Dev) : Nat :=
  let l := (List.range 128).filter fun i => !d.tlq.any (·.idx == i)
  l.getD (d.free % l.length) 0

/-- TLQ_ENQ_DONE: the outcome in TLQ_ENQ_STAT (R409). (DEDUCED: log 122) -/
def tlqEnqDoneDo (d : Dev) : Dev :=
  match d.tlqEnq with
  | none => d
  | some r =>
    let o := d.tlqOutcome r
    let d := (({ d with tlqEnq := none }).putb pgTLQ TLQ.STATUS_ENQ_BUSY false).put pgTLQ TLQ.ENQ_STAT_RESULT o
    let d := d.put pgTLQ TLQ.ENQ_STAT_TAG r.tag
    if o = 1 then
      let x := d.sramRead r.addr r.len
      let e : TlqEntry := ⟨x.1.tlqIndex, r, x.2, none, false, false⟩
      let d := { x.1.used with tlq := d.tlq ++ [e] }
      ((d.put pgTLQ TLQ.STATUS_COUNT d.tlq.length).put pgTLQ TLQ.ENQ_STAT_ENTRY e.idx).bump pgTLQ TLQ.ENQUEUED 1
    else (d.bump pgTLQ TLQ.REFUSED 1).when (o == 2) (·.ev pgTLQ 2)

/-- TLQ_CMD: ENQ snapshots the enqueue registers, or is refused BUSY; FLUSH_ALL drops every entry not being launched
(R409, R415). -/
def tlqCmdWrite (w : Word) (d : Dev) : Dev :=
  let g (f : Fld) : Nat := d.get pgTLQ f
  let d := if bitOf w.toNat 0 then
      if d.flag pgTLQ TLQ.STATUS_ENQ_BUSY then
        ((d.put pgTLQ TLQ.ENQ_STAT_RESULT 5).put pgTLQ TLQ.ENQ_STAT_TAG (g TLQ.ENQ_TAG_TAG)).bump pgTLQ TLQ.REFUSED 1
      else
        let r : TlqReq := ⟨g TLQ.ENQ_ADDR_ADDR / 8 * 8, g TLQ.ENQ_LEN_LEN, d.flag pgTLQ TLQ.ENQ_DEST_KIND, g TLQ.ENQ_DEST_NUM,
          d.flag pgTLQ TLQ.ENQ_DEST_ONESTEP, g TLQ.ENQ_DEST_TB, d.getLH pgTLQ TLQ.ENQ_TGT_LO_TGT TLQ.ENQ_TGT_HI_TGT,
          g TLQ.ENQ_TAG_TAG⟩
        ({ d with tlqEnq := some r }).putb pgTLQ TLQ.STATUS_ENQ_BUSY true
    else d
  if bitOf w.toNat 1 then d.tlqDropIf (fun _ => true) 2 else d

/-! ### Steps, snapshots -/

/-- The step of a time base in 2^-16 ns (R402). -/
def Dev.tbStepVal (d : Dev) (n : Nat) : Int :=
  sOf 64 (d.getLH pgTB (TB.STEP_NS_LO.at n) (TB.STEP_NS_HI.at n)) * 2 ^ 16 + d.get pgTB (TB.STEP_FRAC.at n)

/-- One time base stepped (R402, R412, R413). -/
def Dev.tbStepOne (d : Dev) (n : Nat) : Dev :=
  let v := d.tbStepVal n
  let d := ((d.tbAdd n (v * tbParts)).bump pgTB (TB.STEPS.at n) 1).ev pgTB n
  let d := d.when (n == d.get pgTB TB.PPS_CTL_SEL) (·.putb pgTB TB.SECOND false)
  if v < 0 then d.tlqBack n else d.tlqForward n

/-- All four time bases into TB_SNAP (R400). -/
def Dev.tbSnapAll (d : Dev) : Dev :=
  (List.range 4).foldl (fun d n =>
    ((d.put pgTB (TB.SNAP_NS_LO.at n) (d.tbNs n)).put pgTB (TB.SNAP_NS_HI.at n) (d.tbNs n / 2 ^ 32)).put pgTB
      (TB.SNAP_FRAC.at n) (d.tbVal n)) d

/-- TB_CMD: steps, then the snapshot (R400, R402). (DEDUCED: log 124) -/
def tbCmdWrite (w : Word) (d : Dev) : Dev :=
  let d := (List.range 4).foldl (fun d n => d.when (bitOf w.toNat n) (·.tbStepOne n)) d
  d.when (bitOf w.toNat 4) Dev.tbSnapAll

/-- SOFT_RST of the TB page: every time base to zero, a backward step for the queue (R399). -/
def Dev.tbZero (d : Dev) : Dev := (List.range 4).foldl (fun d n => d.tlqBack n) { d with tb := [] }

/-! ### Time across the line (R404–R406) -/

/-- The port captures (R404). -/
def Dev.tlOn (d : Dev) (p : Port) : Bool := bitOf (d.get pgTB TB.SCC_CTL_EN) p.val

/-- The time base a port captures. -/
def Dev.tlNow (d : Dev) (p : Port) : Nat := d.tbVal (d.get pgTB (if p = 0 then TB.SCC_CTL_SEL0 else TB.SCC_CTL_SEL1))

/-- The captures of a port changed. -/
def Dev.tlUpd (d : Dev) (p : Port) (f : TimeLink → TimeLink) : Dev := { d with link := d.link.upd p f }

/-- Entries of the last 64 span indices up to `s`. -/
def keep64 (s : Nat) (m : AMap Nat) : AMap Nat := m.filter fun e => decide (0 ≤ diff48 s e.1) && decide (diff48 s e.1 < 64)

/-- The span index with the given low byte among the last 64 up to `s` (R406). -/
def spanOfByte (s b : Nat) : Option Nat :=
  let back := (s % 256 + 256 - b) % 256
  if back < 64 then some ((s + m48 - back) % m48) else none

/-- Half of a difference in 2^-16 ns; how an odd one rounds is open. -/
def Dev.half (d : Dev) (v : Int) : Int := if v % 2 = 0 then v / 2 else v / 2 + ((d.free % 2 : Nat) : Int)

/-- A time of a set into its three registers. -/
def Dev.putTime (d : Dev) (lo hi fr : Fld) (v : Nat) : Dev :=
  ((d.put pgTB lo (v / 2 ^ 16)).put pgTB hi (v / 2 ^ 48)).put pgTB fr v

/-- Span `s` of a port: a complete set is written and raised, once (R406). -/
def Dev.tlSet (d : Dev) (p : Port) (s : Nat) : Dev :=
  let l := d.link.get p
  let n := p.val
  if l.sets.contains s then d else
  match AMap.find? l.t1 s, AMap.find? l.t2 s, AMap.find? l.t3 s, AMap.find? l.t4 s with
  | some t1, some t2, some t3, some t4 =>
    let out := sOf 80 ((t2 + m80 - t1) % m80)
    let back := sOf 80 ((t4 + m80 - t3) % m80)
    let a := 4096 * sOf 32 (d.get pgTB (TB.LINK_ASYM_ASYM.at n))
    let ofs := clampI (-(2 ^ 47)) (2 ^ 47 - 1) (d.half (out - back - a))
    let d := d.used
    let dly := d.half (out + back)
    let d := d.used
    let d := d.putTime (TB.SCC_T1_LO.at n) (TB.SCC_T1_HI.at n) (TB.SCC_T1_FRAC.at n) t1
    let d := d.putTime (TB.SCC_T2_LO.at n) (TB.SCC_T2_HI.at n) (TB.SCC_T2_FRAC.at n) t2
    let d := d.putTime (TB.SCC_T3_LO.at n) (TB.SCC_T3_HI.at n) (TB.SCC_T3_FRAC.at n) t3
    let d := d.putTime (TB.SCC_T4_LO.at n) (TB.SCC_T4_HI.at n) (TB.SCC_T4_FRAC.at n) t4
    let d := (d.put pgTB (TB.SCC_OFS_NS_V.at n) (sTo 48 ofs / 2 ^ 16)).put pgTB (TB.SCC_OFS_FRAC_V.at n) (sTo 48 ofs)
    let d := (d.put pgTB (TB.SCC_DELAY_NS_V.at n) (sTo 48 dly / 2 ^ 16)).put pgTB (TB.SCC_DELAY_FRAC_V.at n) (sTo 48 dly)
    let d := (d.put pgTB (TB.SCC_SET_SPAN.at n) s).putb pgTB (TB.SCC_SET_VALID.at n) true
    let d := d.tlUpd p fun l => { l with sets := s :: (l.sets.filter fun x => decide (diff48 s x < 64)) }
    (d.bump pgTB (TB.SCC_SET_SEQ.at n) 1).ev pgTB (4 + n)
  | _, _, _, _ => d

/-- The transmit boundary of the current span (R404). -/
def Dev.tlTxBoundary (d : Dev) (p : Port) : Dev :=
  if d.tlOn p then
    let s := d.txSpan p
    let v := d.tlNow p
    (d.tlUpd p fun l => { l with t1 := AMap.insert (keep64 s l.t1) s v, t2 := keep64 s l.t2 }).tlSet p s
  else d

/-- The receive boundary of the current span, while the receive counter is valid (R404). -/
def Dev.tlRxBoundary (d : Dev) (p : Port) : Dev :=
  if d.tlOn p && d.rxValid p then
    let s := d.rxSpan p
    let v := d.tlNow p
    (d.tlUpd p fun l => { l with t4 := AMap.insert (keep64 s l.t4) s v, t3 := keep64 s l.t3, rxCap := some s }).tlSet p s
  else d

/-- The receive counter is no longer valid (R405). -/
def Dev.tlRxLost (d : Dev) (p : Port) : Dev := d.tlUpd p fun l => { l with rxCap := none }

/-- The payload of TIME_TX (0x25) or TIME_RX (0x26) (R405). -/
def timeMsg (typ span v : Nat) : List Nat := [typ, span % 256] ++ beBytes 10 v ++ [0, 0, 0, 0]

/-- TIME_TX of the current span, when it was captured. -/
def Dev.timeTxMsg (d : Dev) (p : Port) : Option (List Nat) :=
  if d.tlOn p then (AMap.find? (d.link.get p).t1 (d.txSpan p)).map (timeMsg 0x25 (d.txSpan p)) else none

/-- TIME_RX of the latest receive boundary. -/
def Dev.timeRxMsg (d : Dev) (p : Port) : Option (List Nat) :=
  match (d.link.get p).rxCap with
  | none => none
  | some s => if d.tlOn p then (AMap.find? (d.link.get p).t4 s).map (timeMsg 0x26 s) else none

/-- TIME_TX received: t3 of the receive span with that byte (R406). (DEDUCED: log 127) -/
def timeTxDo (p : Port) (b v : Nat) (d : Dev) : Dev :=
  if d.tlOn p && d.rxValid p then
    match spanOfByte (d.rxSpan p) b with
    | none => d
    | some s => (d.tlUpd p fun l => { l with t3 := AMap.insert l.t3 s v }).tlSet p s
  else d

/-- TIME_RX received: t2 of the transmit span with that byte (R406). -/
def timeRxDo (p : Port) (b v : Nat) (d : Dev) : Dev :=
  if d.tlOn p then
    match spanOfByte (d.txSpan p) b with
    | none => d
    | some s => (d.tlUpd p fun l => { l with t2 := AMap.insert l.t2 s v }).tlSet p s
  else d

/-- A host write of TB_SCC_CTL: the history of both ports is discarded (R415). (DEDUCED: log 126) -/
def tbSccCtlWrite (w : Word) (d : Dev) : Dev :=
  let d := d.putWs pgTB [TB.SCC_CTL_SEL0, TB.SCC_CTL_SEL1, TB.SCC_CTL_EN] w
  { d with link := ⟨⟨[], [], [], [], none, []⟩, ⟨[], [], [], [], none, []⟩⟩ }

/-! ### 1PPS (R407, R408) -/

/-- PPS_OUT: CLKOUT3, enabled in 1PPS mode and not held low (R394), rises when counting carried its time base over a second. (DEDUCED: log 125) -/
def ppsOutDo (d : Dev) : Dev :=
  if d.get pgCLK (CLK.DRIVE.at 3) == 1 && d.flag pgTB TB.SECOND then
    ((d.putb pgTB TB.PPS_PIN true).putb pgTB TB.SECOND false).emit (.pps true)
  else d

/-- PPS_PULSE_END. -/
def ppsEndDo (d : Dev) : Dev :=
  if d.flag pgTB TB.PPS_PIN then (d.putb pgTB TB.PPS_PIN false).emit (.pps false) else d

/-- PPS_IN: an edge on REFIN3 in 1PPS mode captures a time base. -/
def ppsInDo (d : Dev) : Dev :=
  if d.flag pgCLK (CLK.REFIN_FREQ_PPS.at 3) then
    let v := d.tbVal (d.get pgTB TB.PPS_CTL_IN_SEL)
    let d := d.putTime TB.PPS_IN_NS_LO TB.PPS_IN_NS_HI TB.PPS_IN_FRAC v
    ((d.bump pgTB TB.PPS_IN_SEQ 1).bump pgTB TB.PPS_IN_CNT 1).ev pgTB 6
  else d

/-! ### PTP timestamps (R300–R302) -/

/-- Where the PTP event message that the client recognises in a frame begins, and its encapsulation: an encapsulation enabled and
messageType 0 to 3 (R300). -/
def Dev.ptpFind (d : Dev) (c : Fin 32) (f : List Nat) : Option (Nat × Nat) :=
  (ptpPlace f).filter fun x => d.cliEth c && d.flag (pgCLI c) CLI.PTP_EN && decide (f.getD x.2 0 % 16 ≤ 3) &&
    d.flag (pgCLI c) ([CLI.PTP_L2, CLI.PTP_IPV4, CLI.PTP_IPV6].getD x.1 CLI.PTP_L2)

/-- messageType, domainNumber and sequenceId of the PTP message at a place of a frame (R302). -/
def ptpKind (f : List Nat) (i : Nat) : Nat := f.getD i 0 % 16

/-- domainNumber. -/
def ptpDomain (f : List Nat) (i : Nat) : Nat := f.getD (i + 4) 0

/-- sequenceId. -/
def ptpSeq (f : List Nat) (i : Nat) : Nat := be16At f (i + 30)

/-- The frame's bytes. -/
def ptpBytes (m : PtpMsg) : List Nat := m.frame.map (·.toNat)

/-- A timestamp into a ring of the client, or TS_OVF when it is full (R301, R302). (DEDUCED: log 128) -/
def ptpStamp (c : Fin 32) (m : PtpMsg) (word wrF rdF ofsF : Fld) (d : Dev) : Dev :=
  let pg := pgCLI c
  let tb := d.get pg CLI.PTP_TB
  let v := (((d.tbVal tb : Int) - (m.lag.toNat : Int) + 4096 * sOf 16 (d.get pg ofsF)) % (m80 : Int)).toNat
  let wr := d.get pg wrF
  match d.ptpFind c (ptpBytes m) with
  | none => d
  | some (_, i) =>
    if (wr + 256 - d.get pg rdF) % 256 = 32 then (d.bump pg CLI.TS_DROP 1).ev pg 3
  else
    let at_ (k : Nat) : Fld := word.at (4 * (wr % 32) + k)
    let d := (d.put pg (at_ 0) (v / 2 ^ 16)).put pg (at_ 1) (v / 2 ^ 48)
    let d := d.put pg (at_ 2) (v % 2 ^ 16 + ptpKind (ptpBytes m) i * 2 ^ 16 + tb * 2 ^ 20 + b2n m.err * 2 ^ 22 + ptpDomain (ptpBytes m) i * 2 ^ 24)
    (d.put pg (at_ 3) (ptpSeq (ptpBytes m) i + wr * 2 ^ 16)).bump pg wrF 1

/-! ### The commands -/

def execPtpIngress (c : Fin 32) (m : PtpMsg) (s : State) : Host.Outcome State Fault Refusal :=
  s.run (ptpStamp c m CLI.TS_IN_WORD CLI.TS_WR_IN CLI.TS_RD_IN CLI.TS_OFS_IN)

def execPtpEgress (c : Fin 32) (m : PtpMsg) (s : State) : Host.Outcome State Fault Refusal :=
  s.run fun d => ptpStamp c { m with err := d.flag (pgCLI c) CLI.EG_ERR || d.tlq.any fun e => e.onClient c && (e.cut || e.bad) }
    CLI.TS_EG_WORD CLI.TS_WR_EG CLI.TS_RD_EG CLI.TS_OFS_EG d

/-- EGRESS_BLOCK; the end of a frame opens a gap for a launch (R303). -/
def execEgressBlock (c : Fin 32) (kind : Fin 5) (marked : Bool) (fill : BitVec 13) (adj par : Bool) (s : State) :
    Host.Outcome State Fault Refusal :=
  s.run fun d =>
    let e := egressDo c kind.val marked fill.toNat adj par d
    e.when (d.flag (pgCLI c) CLI.EG_OPEN && !e.flag (pgCLI c) CLI.EG_OPEN) (·.tlqGap c)

/-- TB_STEP: a write of TB_CMD. -/
def execTbStep (w : Word) (s : State) : Host.Outcome State Fault Refusal := s.run (tbCmdWrite w)

/-- TB_SNAP: a write of TB_CMD whose SNAP bit is 1. -/
def execTbSnap (w : Word) (s : State) : Host.Outcome State Fault Refusal := s.run (tbCmdWrite (w ||| 0x10#32))

def execTrimClamp (n : Fin 4) (w : Word) (s : State) : Host.Outcome State Fault Refusal := s.run (tbTrimWrite n.val w)

def execTimeTx (p : Port) (span : BitVec 8) (ns : BitVec 64) (frac : BitVec 16) (s : State) :
    Host.Outcome State Fault Refusal :=
  s.run (timeTxDo p span.toNat (ns.toNat * 2 ^ 16 + frac.toNat))

def execTimeRx (p : Port) (span : BitVec 8) (ns : BitVec 64) (frac : BitVec 16) (s : State) :
    Host.Outcome State Fault Refusal :=
  s.run (timeRxDo p span.toNat (ns.toNat * 2 ^ 16 + frac.toNat))

def execPpsOut (s : State) : Host.Outcome State Fault Refusal := s.run ppsOutDo

def execPpsIn (s : State) : Host.Outcome State Fault Refusal := s.run ppsInDo

/-- ENQ: a write of TLQ_CMD whose ENQ bit is 1. -/
def execEnq (w : Word) (s : State) : Host.Outcome State Fault Refusal := s.run (tlqCmdWrite (w ||| 1#32))

def execTlqEnqDone (s : State) : Host.Outcome State Fault Refusal := s.run tlqEnqDoneDo

/-- FLUSH_ALL: a write of TLQ_CMD whose FLUSH_ALL bit is 1. -/
def execFlushAll (w : Word) (s : State) : Host.Outcome State Fault Refusal := s.run (tlqCmdWrite (w ||| 2#32))

def execTlqDue (e : BitVec 7) (s : State) : Host.Outcome State Fault Refusal := s.run (tlqDueDo e.toNat)

def execTlqLaunchDone (e : BitVec 7) (lag : BitVec 32) (s : State) : Host.Outcome State Fault Refusal :=
  s.run (tlqLaunchDoneDo e.toNat lag.toNat)

def execPpsPulseEnd (s : State) : Host.Outcome State Fault Refusal := s.run ppsEndDo

end Sys2Proof.Machine
end

