-- ==== Sys2Proof/Machine/Hgl.lean ====
section
/-! DEFINITION.  Hanger links (R420–R447). -/

namespace Sys2Proof.Machine

/-! ### Model fields -/

/-- Qualifying gaps collected, and the sum of their measurements (R443). -/
def HGL.GAPS : Fld := hid 4 9 0
def HGL.GAP_SUM : Fld := hid 8 48 0

/-- The page of a hanger port. -/
def pgHG (n : Nat) : Nat := 0x030 + n

/-- The state of a hanger port. -/
def Dev.hgs (d : Dev) (n : Nat) : HgState := (AMap.find? d.hg n).getD HgState.reset

/-- The state of a hanger port changed. -/
def Dev.hgUpd (d : Dev) (n : Nat) (f : HgState → HgState) : Dev := { d with hg := AMap.insert d.hg n (f (d.hgs n)) }

/-- The link state: 0 OFF, 1 TRAIN, 2 ID, 3 HOLD, 4 UP (R433). -/
def Dev.hgLink (d : Dev) (n : Nat) : Nat := d.get (pgHG n) HGL.STATUS_LINK

/-! ### Sending (R423–R432) -/

/-- One bit of the CRC-8 of R424. -/
def crc8Step (c : Nat) : Nat := if c < 2 ^ 7 then 2 * c else (2 * c) % 2 ^ 8 ^^^ 0x07

/-- The CRC-8 of bytes, most significant bit first, initial value 0 (R424). -/
def crc8 (bs : List Nat) : Nat := bs.foldl (fun c b => (List.range 8).foldl (fun c _ => crc8Step c) (c ^^^ b % 256)) 0

/-- A header word (R424). -/
def hgHeader (typ ncw : Nat) (retx : Bool) (seq : Nat) : Nat :=
  let top := typ * 2 ^ 20 + (ncw - 1) * 2 ^ 17 + b2n retx * 2 ^ 16 + seq % 2 ^ 16
  top * 256 + crc8 (beBytes 3 top)

/-- A packet goes out, with the acknowledgement owed (R426, R431). -/
def Dev.hgEmit (d : Dev) (n typ : Nat) (retx : Bool) (seq : Nat) (body : List Nat) : Dev :=
  let ack := (d.hgs n).ackDue
  let head := beBytes 2 (ack.getD 0) ++ [b2n ack.isSome, 0] ++ beBytes 2 body.length
  let ncw := cdiv (6 + body.length) 96
  let pay := head ++ body
  let d := d.hgUpd n fun h => { h with ackDue := none }
  let full := pay ++ List.replicate (96 * ncw - pay.length) 0
  let hd := hgHeader typ ncw retx seq
  ((d.emit (.hangerTx n hd full)).emit (.hangerSymbols n (hangerSymbols hd full))).bump (pgHG n) HGL.PKT_TX 1

/-- A new packet takes the next SEQ (R430). (DEDUCED: log 129) -/
def Dev.hgNew (d : Dev) (n typ : Nat) (body : List Nat) : Dev :=
  let s := (d.hgs n).seq
  (d.hgEmit n typ false s body).hgUpd n fun h => { h with seq := (s + 1) % 2 ^ 16 }

/-- The packet that goes first among those waiting: the smallest place in R432, the oldest of equals. -/
def hgFirst (q : List HgPkt) : Option HgPkt :=
  q.foldl (fun b x => match b with | none => some x | some y => if x.prio < y.prio then some x else some y) none

/-- What can be sent is sent: a resend, or the next reliable packet once the one before is acknowledged; nothing new under a
reservation or in OFF (R430, R432, R439). -/
def Dev.hgPump (d : Dev) (n : Nat) : Dev :=
  let h := d.hgs n
  if h.resv || d.hgLink n == 0 then d
  else match h.rel with
    | some r =>
      if r.due then
        let r' : HgRel := { r with due := false, sends := r.sends + 1 }
        ((d.hgEmit n r.pkt.typ true r.seq r.pkt.body).bump (pgHG n) HGL.RETX 1).hgUpd n fun h => { h with rel := some r' }
      else d
    | none =>
      match hgFirst h.queue with
      | none => d
      | some x =>
        let r : HgRel := ⟨x, h.seq, 1, false⟩
        (d.hgNew n x.typ x.body).hgUpd n fun h => { h with rel := some r, queue := h.queue.erase x }

/-- A reliable packet joins those waiting. -/
def Dev.hgQueue (d : Dev) (n : Nat) (x : HgPkt) : Dev := (d.hgUpd n fun h => { h with queue := h.queue ++ [x] }).hgPump n

/-- EVENT IDLE. -/
def Dev.hgIdle (d : Dev) (n : Nat) : Dev := if (d.hgs n).resv then d else d.hgNew n 4 [1]

/-! ### Outcomes -/

/-- A request is answered, to the host in its registers with REQ_DONE, to a pier engine: 1 OK, 2 NOACK, 3 DOWN, 4 HOLD, 5 NOKEY, 6 SEC,
7 COMP (R436). -/
def Dev.hgReply (d : Dev) (n : Nat) (eng : Option Nat) (result status : Nat) (words : List Nat) : Dev :=
  match eng with
  | some e => d.emit (.pierReply n e result status words)
  | none =>
    let d := (List.range words.length).foldl (fun d i => d.put (pgHG n) (HGL.REQ_DATA_DATA.at i) (words.getD i 0)) d
    let d := (d.put (pgHG n) HGL.REQ_STAT_RESULT result).put (pgHG n) HGL.REQ_STAT_STATUS status
    (d.putb (pgHG n) HGL.STATUS_REQ_BUSY false).ev (pgHG n) 3

/-- A waiting packet is not one that carries a request. -/
def HgReq.other (r : HgReq) (x : HgPkt) : Bool := !((x.origin == 1 || x.origin == 19) && x.tag == r.tag)

/-- A request outstanding ends and is no longer sent. -/
def Dev.hgReqEnd (d : Dev) (n : Nat) (r : HgReq) (result status : Nat) (words : List Nat) : Dev :=
  (d.hgUpd n fun h => { h with reqs := h.reqs.erase r, queue := h.queue.filter r.other }).hgReply n r.eng result status words

/-- The requests outstanding that meet a condition end. -/
def Dev.hgReqFail (d : Dev) (n result : Nat) (f : HgReq → Bool) : Dev :=
  ((d.hgs n).reqs.filter f).foldl (fun d r => d.hgReqEnd n r result 0 []) d

/-- A timed command comes to a state and an outcome (R438, R440). -/
def Dev.tmdSet (d : Dev) (n h state outcome : Nat) : Dev :=
  ((d.put (pgHG n) (HGL.TMD_STAT_STATE.at h) state).put (pgHG n) (HGL.TMD_STAT_OUTCOME.at h) outcome).ev (pgHG n) 5

/-- The state of a timed command. -/
def Dev.tmdState (d : Dev) (n h : Nat) : Nat := d.get (pgHG n) (HGL.TMD_STAT_STATE.at h)

/-- A timed command fails and is no longer sent. -/
def Dev.tmdFail (d : Dev) (n h outcome : Nat) : Dev :=
  (d.tmdSet n h 4 outcome).hgUpd n fun x => { x with queue := x.queue.filter (·.origin != 3 + h) }

/-- The commands of a port in a state that meets a condition fail (R440). -/
def Dev.tmdFailIf (d : Dev) (n outcome : Nat) (st : Nat → Bool) (f : HgTimed → Bool) : Dev :=
  (List.range 16).foldl (fun d h =>
    d.when (st (d.tmdState n h) && (match AMap.find? (d.hgs n).timed h with | some t => f t | none => false))
      (·.tmdFail n h outcome)) d

/-- SET or ADOPT of a line port: armed commands that name it fail with CANCEL (R440). -/
def Dev.hgCancel (d : Dev) (p : Port) : Dev := (List.range 4).foldl (fun d n => d.tmdFailIf n 6 (· == 2) fun t => t.port == p) d

/-- The receive counter of a port becomes invalid, or (`all`) its die is gated: NOCNT, at a gating for commands still SENT too (R440,
R583). -/
def Dev.hgNoCnt (d : Dev) (p : Port) (all : Bool) : Dev :=
  (List.range 4).foldl (fun d n => d.tmdFailIf n 4 (fun st => st == 2 || (all && st == 1)) fun t => t.port == p && (all || t.rxCnt)) d

/-- What entry to TRAIN does to the hybrid: a calibration under way is discarded, and a setting that waits becomes live, with
the canceller at zero taps (R480, R485). -/
def Dev.hgCalTrain (d : Dev) (n : Nat) : Dev :=
  let d := { d with hgCal := AMap.erase d.hgCal n }
  if d.flag pgCAL (CAL.HG_PEND.at n) then
    let d := (d.put pgCAL (CAL.HG_SEL.at n) (d.get pgCAL (CAL.HG_NEXT.at n))).putb pgCAL (CAL.HG_PEND.at n) false
    let d := (d.putBit pgCAL CAL.STATUS_HG_PEND n false).hgUpd n fun h => { h with echo := { h.echo with taps := [] } }
    (d.bump pgCAL CAL.HG_APPLIED 1).ev pgCAL 7
  else d

/-- Entry to TRAIN: the session ends, outstanding requests end, the sender starts at SEQ 0 (R430, R433, R440). (DEDUCED: log 133) -/
def Dev.hgTrain (d : Dev) (n : Nat) : Dev :=
  let was := d.hgLink n
  let d := (d.put (pgHG n) HGL.STATUS_LINK 1).when (was == 3 || was == 4) (·.ev (pgHG n) 1)
  let d := ((d.hgReqFail n 3 fun _ => true).hgKeyDrop n 10).hgCalTrain n
  let d := (List.range 16).foldl (fun d h => d.when (d.tmdState n h == 1 || d.tmdState n h == 2) (·.tmdFail n h 5)) d
  d.hgUpd n fun h => { HgState.reset with timed := h.timed, rx := h.rx, rxHdr := h.rxHdr, peak := h.peak, echo := h.echo }

/-- Entry to UP. -/
def Dev.hgUp (d : Dev) (n : Nat) : Dev := ((d.put (pgHG n) HGL.STATUS_LINK 4).ev (pgHG n) 0).hgPump n

/-- Entry to HOLD: writes and timed commands that wait end with HOLD (R434, R435). -/
def Dev.hgHold (d : Dev) (n why : Nat) : Dev :=
  let d := ((d.put (pgHG n) HGL.STATUS_LINK 3).put (pgHG n) HGL.STAT_HOLD_WHY why).ev (pgHG n) 2
  let q := (d.hgs n).queue
  let d := d.hgReqFail n 4 fun r => !r.read && q.any fun x => !r.other x
  (List.range 16).foldl (fun d h => d.when (q.any (·.origin == 3 + h)) (·.tmdFail n h 7)) d

/-- A serial of 64 bits. -/
def Dev.hgSerial (d : Dev) (n : Nat) (lo hi : Fld) : Nat := d.getLH (pgHG n) lo hi

/-- HGL_ID_EXP takes HGL_ID_SEEN. -/
def Dev.hgExpect (d : Dev) (n : Nat) : Dev :=
  d.putLH (pgHG n) HGL.ID_EXP_LO_SERIAL HGL.ID_EXP_HI_SERIAL (d.hgSerial n HGL.ID_SEEN_LO_SERIAL HGL.ID_SEEN_HI_SERIAL)

/-- The serial has been read (R433, R434). (DEDUCED: log 130) -/
def Dev.hgIdRead (d : Dev) (n : Nat) (serial : Nat) : Dev :=
  let d := (d.putLH (pgHG n) HGL.ID_SEEN_LO_SERIAL HGL.ID_SEEN_HI_SERIAL serial).hgUpd n fun h => { h with idTag := none }
  let exp := d.hgSerial n HGL.ID_EXP_LO_SERIAL HGL.ID_EXP_HI_SERIAL
  if exp = serial then d.hgUp n
  else if exp = 0 ∧ d.flag (pgHG n) HGL.CTL_ID_AUTO = true then (d.hgExpect n).hgUp n
  else d.hgHold n (if exp = 0 then 0 else 1)

/-- A tag for a request; the spec gives none, but it differs from those of the other requests. -/
def Dev.hgTag (d : Dev) (n : Nat) : Nat :=
  let h := d.hgs n
  let used := h.idTag.toList ++ h.reqs.map (·.tag)
  let tags := (List.range (used.length + 1)).map fun i => (d.free + i) % 2 ^ 16
  (tags.find? fun t => !used.contains t).getD 0

/-- The body of a REQ (R427). -/
def reqBody (op count tag addr : Nat) (data : List Nat) : List Nat :=
  [op, count] ++ beBytes 2 tag ++ beBytes 4 addr ++ (data.map (beBytes 4)).flatten

/-- Entry to ID: the serial is requested. -/
def Dev.hgIdStart (d : Dev) (n : Nat) : Dev :=
  let t := d.hgTag n
  let d := (d.used.put (pgHG n) HGL.STATUS_LINK 2).hgUpd n fun h => { h with idTag := some t }
  d.hgQueue n ⟨0, reqBody 1 2 t 0 [], 5, 2, t⟩

/-! ### Host writes (R433–R436, R438, R441) -/

/-- A write of HGL_CTL: EN moves the port between OFF and TRAIN; in OFF nothing is resent and no response awaited (R433). (DEDUCED: log 139) -/
def hgCtlWrite (n : Nat) (w : Word) (d : Dev) : Dev :=
  let pg := pgHG n
  let d := d.putWs pg [HGL.CTL_EN, HGL.CTL_SEC_REQ, HGL.CTL_ID_AUTO, HGL.CTL_ROLE, HGL.CTL_RTO, HGL.CTL_TMO] w
  if !d.flag pg HGL.CTL_EN then (d.put pg HGL.STATUS_LINK 0).hgUpd n fun h => { h with rx := 0, rel := none, idTag := none }
  else if d.hgLink n = 0 then d.hgTrain n
  else d

/-- A session of the port. -/
def Dev.hgSession (d : Dev) (n : Nat) : Option KsHanger := AMap.find? d.ks.hangers n

/-- A body wrapped in an SREQ under the session (R441). -/
def Dev.hgWrap (d : Dev) (n : Nat) (k : KsHanger) (typ : Nat) (body : List Nat) : Dev × List Nat :=
  let k' : KsHanger := { k with txCtr := k.txCtr + 1 }
  (d.ksUpd fun x => { x with hangers := AMap.insert x.hangers n k' }, sealRecord 3 k.txKey 0 k'.txCtr (typ :: body))

/-- A REQ or TIMED body queued, wrapped while SEC_REQ is 1. -/
def Dev.hgSecure (d : Dev) (n typ : Nat) (body : List Nat) (prio origin tag : Nat) : Dev :=
  match (if d.flag (pgHG n) HGL.CTL_SEC_REQ then d.hgSession n else none) with
  | some k => let r := d.hgWrap n k typ body; r.1.hgQueue n ⟨5, r.2, prio, origin, tag⟩
  | none => d.hgQueue n ⟨typ, body, prio, origin, tag⟩

/-- A request of the host or of a pier engine: sent, or ended at once (R432, R435, R436, R441). -/
def Dev.hgAsk (d : Dev) (n : Nat) (eng : Option Nat) (read : Bool) (cnt addr : Nat) (data : List Nat) : Dev :=
  let pg := pgHG n
  let link := d.hgLink n
  let sec := d.flag pg HGL.CTL_SEC_REQ
  if link ≤ 1 then d.hgReply n eng 3 0 []
  else if link = 3 ∧ read = false then d.hgReply n eng 4 0 []
  else if sec && (d.hgSession n).isNone then d.hgReply n eng 5 0 []
  else
    let t := d.hgTag n
    let r : HgReq := ⟨t, sec, read, cnt, eng⟩
    let d := (d.used.when eng.isNone (·.putb pg HGL.STATUS_REQ_BUSY true)).hgUpd n fun h => { h with reqs := h.reqs ++ [r] }
    d.hgSecure n 0 (reqBody (if read then 1 else 2) cnt t addr data) (if eng.isNone then 6 else 5)
      (if eng.isNone then 1 else 19) t

/-- A pier engine's request, its COUNT taken as the host's is. -/
def pierReqDo (n : Nat) (q : PierReq) (d : Dev) : Dev :=
  let cnt := clampN 1 16 q.count.val
  d.hgAsk n (some q.engine.val) q.read cnt q.addr.toNat
    (if q.read then [] else (List.range cnt).map fun i => (q.data.getD i 0).toNat)

/-- A write of HGL_REQ_CTL with GO (R436, R445). (DEDUCED: log 131) -/
def reqGoDo (n : Nat) (w : Word) (d : Dev) : Dev :=
  let pg := pgHG n
  let d := d.putWs pg [HGL.REQ_CTL_OP, HGL.REQ_CTL_COUNT] w
  let op := d.get pg HGL.REQ_CTL_OP
  let cnt := clampN 1 16 (d.get pg HGL.REQ_CTL_COUNT)
  if bitOf w.toNat 16 = false ∨ d.flag pg HGL.STATUS_REQ_BUSY = true ∨ (op ≠ 1 ∧ op ≠ 2) then d
  else
    d.hgAsk n none (op == 1) cnt (d.get pg HGL.REQ_ADDR_ADDR)
      (if op = 2 then (List.range cnt).map fun i => d.get pg (HGL.REQ_DATA_DATA.at i) else [])

/-- The symbols of the current frame gone by on a counter. -/
def framePos (x : FramePos) (p : Port) (rx : Bool) : Nat :=
  (if rx then (if p = 0 then x.rx0 else x.rx1) else (if p = 0 then x.tx0 else x.tx1)).toNat

/-- The symbol rate of a counter in MBd. -/
def Dev.cntBaud (d : Dev) (p : Port) (rx : Bool) : Nat := if rx then d.rxBaud p else d.txBaud p

/-- The trigger instant from now, in ns × MBd (R439). -/
def Dev.trigTime (d : Dev) (x : FramePos) (t : HgTimed) : Int :=
  let lf := pgLFR t.port
  let spans := if t.rxCnt then diff48 t.span (d.rxSpan t.port) else diff48 t.span (d.txSpan t.port)
  let now := if t.rxCnt then d.get lf LFR.SPAN_RXPOS_FRAME else d.get lf LFR.SPAN_TXPOS_FRAME
  (((spans * 4096 + (t.frame : Int) - (now : Int)) * 131072 - (framePos x t.port t.rxCnt : Int)) * 1000) -
    ((t.lead * 100 * d.cntBaud t.port t.rxCnt : Nat) : Int)

/-- Two trigger instants within 600 ns and not equal (R438). -/
def Dev.trigClash (d : Dev) (x : FramePos) (a b : HgTimed) : Bool :=
  let ma := d.cntBaud a.port a.rxCnt
  let mb := d.cntBaud b.port b.rxCnt
  let diff := (d.trigTime x a * (mb : Int) - d.trigTime x b * (ma : Int)).natAbs
  decide (0 < diff) && decide (diff ≤ 600 * ma * mb)

/-- Why a timed command is refused, 0 when it is accepted (R435, R438). -/
def Dev.tmdRefusal (d : Dev) (n h : Nat) (x : FramePos) (t : HgTimed) : Nat :=
  let st := d.tmdState n h
  let counts := d.online t.port && (if t.rxCnt then d.rxValid t.port else d.txRun t.port)
  let clash := (List.range 16).any fun k => k != h && d.tmdState n k == 2 &&
    (match AMap.find? (d.hgs n).timed k with | some u => !u.fired && d.trigClash x t u | none => false)
  if st = 1 ∨ st = 2 then 9
  else if d.hgLink n = 3 then 7
  else if d.hgLink n ≠ 4 ∨ (d.flag (pgHG n) HGL.CTL_SEC_REQ && (d.hgSession n).isNone) = true then 5
  else if !counts then 4
  else if d.trigTime x t < ((50000 * d.cntBaud t.port t.rxCnt : Nat) : Int) then 2
  else if clash then 3
  else 0

/-- The body of a TIMED packet (R438). -/
def Dev.tmdBody (d : Dev) (n h nw : Nat) (t : HgTimed) : List Nat :=
  [h, nw] ++ beBytes 6 t.span ++ beBytes 2 t.frame ++ [b2n t.rxCnt + 2 * t.port.val, 0] ++
    ((List.range (2 * nw)).map fun k => beBytes 4 (d.get (pgHG n) (HGL.TMD_BODY_WORD.at k))).flatten

/-- A write of HGL_TMD_CTL, with GO (R438). (DEDUCED: log 132) -/
def tmdGoDo (n : Nat) (w : Word) (x : FramePos) (d : Dev) : Dev :=
  let pg := pgHG n
  let d := d.putWs pg [HGL.TMD_CTL_HANDLE, HGL.TMD_CTL_LEAD, HGL.TMD_CTL_NWRITE] w
  let h := d.get pg HGL.TMD_CTL_HANDLE
  let nw := clampN 1 8 (d.get pg HGL.TMD_CTL_NWRITE)
  let port : Port := if d.flag pg HGL.TMD_SPAN_HI_PORT then 1 else 0
  let t : HgTimed := ⟨d.getLH pg HGL.TMD_SPAN_LO_SPAN HGL.TMD_SPAN_HI_SPAN, d.get pg HGL.TMD_SPAN_HI_FRAME, port,
    d.flag pg HGL.TMD_SPAN_HI_CNT, max 1 (d.get pg HGL.TMD_CTL_LEAD), false⟩
  let why := d.tmdRefusal n h x t
  if !bitOf w.toNat 31 then d
  else if why = 9 then d.tmdSet n h (d.tmdState n h) 9
  else if why ≠ 0 then d.tmdSet n h 4 why
  else
    let d := (d.put pg (HGL.TMD_STAT_STATE.at h) 1).put pg (HGL.TMD_STAT_OUTCOME.at h) 0
    let d := (d.put pg (HGL.TMD_STAT_STATUS.at h) 0).hgUpd n fun s => { s with timed := AMap.insert s.timed h t }
    d.hgSecure n 3 (d.tmdBody n h nw t) 6 (3 + h) 0

/-- A write of HGL_CMD: ACCEPT, RETRAIN, NOISE_CLR (R433, R434, R443, R445). (DEDUCED: log 141) -/
def hgCmdWrite (n : Nat) (w : Word) (d : Dev) : Dev :=
  let pg := pgHG n
  let unpin (d : Dev) : Dev := (d.ksUpd fun k => { k with pins := AMap.erase k.pins n }).putb pg HGL.SEC_STAT_PINNED false
  let d := if bitOf w.toNat 0 = false then d
    else if (AMap.find? d.ks.hgExch n).isSome then unpin (d.hgKeyEnd n false 5)
    else if d.hgLink n = 3 then unpin ((d.hgExpect n).hgUp n)
    else d
  let d := d.when (bitOf w.toNat 1 && decide (2 ≤ d.hgLink n)) (·.hgTrain n)
  d.when (bitOf w.toNat 2) fun d => (d.put pg HGL.GAPS 0).put pg HGL.GAP_SUM 0

/-- A write of HGL_EC_CTL; RESET sets the taps to zero (R422). -/
def ecCtlWrite (n : Nat) (w : Word) (d : Dev) : Dev :=
  (d.putWs (pgHG n) [HGL.EC_CTL_MU, HGL.EC_CTL_FREEZE] w).when (bitOf w.toNat 5)
    (·.hgUpd n fun h => { h with echo := { h.echo with taps := [] } })

/-! ### Receiving (R426–R431) -/

/-- The residual of a sample, in 2^-30 of the level unit: the sample less what the 96 taps make of the symbols sent, the newest first
(R422). -/
def echoResidual (taps : List Int) (sample : Int) (sent : List Int) : Int :=
  sample * 2 ^ 15 - (List.range 96).foldl (fun a i => a + taps.getD i 0 * sent.getD i 0) 0

/-- The taps after an LMS update of step 2^-MU, whose values 0 to 3 act as 4, for a residual and the symbols it rests on (R422). (DEDUCED: log 137) -/
def echoStep (mu : Nat) (taps : List Int) (u : Int × List Int) : List Int :=
  (List.range 96).map fun i => taps.getD i 0 + u.1 * u.2.getD i 0 / 2 ^ max 4 mu

/-- The residual power of 4,096 symbols lies below −40 dBFS, 0 dBFS being the mean power 5 of the PAM-4 levels (R422). -/
def echoQuiet (power : Nat) : Bool := decide (power * 10 ^ 4 < 4096 * 5 * 2 ^ 60)

/-- The level sent in a symbol period: 0 in silence (R421). -/
def echoLevel (x : EchoSample) : Int :=
  match x.sent with | none => 0 | some b => pam4 (b.getLsbD 1) (b.getLsbD 0)

/-- One symbol period passes: outside a reception its update waits 80 symbols, and its residual counts in the power of the device's own
transmissions; the canceller and EC_CONV after it (R422). -/
def HgEcho.symbol (mu : Nat) (freeze : Bool) (e : HgEcho × Bool) (x : EchoSample) : HgEcho × Bool :=
  let sent := (echoLevel x :: e.1.sent).take 96
  if x.far then ({ e.1 with sent := sent }, e.2)
  else
    let r := echoResidual e.1.taps x.sample.toInt sent
    let late := e.1.late ++ [(r, sent)]
    let due := decide (80 < late.length)
    let taps := if due && !freeze then echoStep mu e.1.taps (late.headD (0, [])) else e.1.taps
    let late := if due then late.drop 1 else late
    let own := b2n (echoLevel x != 0)
    let n := e.1.count + own
    let p := e.1.power + own * r.natAbs ^ 2
    if n = 4096 then (⟨taps, sent, late, 0, 0⟩, echoQuiet p) else (⟨taps, sent, late, n, p⟩, e.2)

/-- The symbol periods that have passed go through the canceller. -/
def Dev.hgEchoRun (d : Dev) (n : Nat) (line : List EchoSample) : Dev :=
  let pg := pgHG n
  let e := line.foldl (HgEcho.symbol (d.get pg HGL.EC_CTL_MU) (d.flag pg HGL.EC_CTL_FREEZE))
    ((d.hgs n).echo, d.flag pg HGL.STATUS_EC_CONV)
  (d.putb pg HGL.STATUS_EC_CONV e.2).hgUpd n fun h => { h with echo := e.1 }

/-- A preamble at least 6 dB stronger than another: 10^0.6 times its power (R429). -/
def sixDb (peak was : Nat) : Bool := decide (was < peak) && decide (10 ^ 3 * was ^ 5 ≤ peak ^ 5)

/-- HG_PREAMBLE: the canceller runs up to it; a detected one discards the updates of the 80 symbols before it, and starts a reception or
takes the place of one (R422, R428, R429). -/
def hgPreambleDo (n corr peak : Nat) (line : List EchoSample) (d : Dev) : Dev :=
  let pg := pgHG n
  if d.hgLink n = 0 then d
  else
    let d := d.hgEchoRun n line
    let h := d.hgs n
    let heard (d : Dev) : Dev := d.hgUpd n fun h => { h with echo := { h.echo with late := [] } }
    let start (d : Dev) : Dev := d.hgUpd n fun h => { h with rx := 1, peak := peak }
    if corr < d.get pg HGL.DET_CTL_THR then d
    else if h.rx = 1 then heard (start (d.bump pg HGL.FALSE_PREAMBLE 1))
    else if h.rx = 2 then (if sixDb peak h.peak then heard (start (d.bump pg HGL.PREEMPT 1)) else heard d)
    else heard (start d)

/-- HG_HEADER (R424, R428). -/
def hgHeaderDo (n w : Nat) (d : Dev) : Dev :=
  if (d.hgs n).rx ≠ 1 then d
  else if crc8 (beBytes 3 (w / 256)) = w % 256 then d.hgUpd n fun h => { h with rx := 2, rxHdr := w }
  else (d.bump (pgHG n) HGL.HDR_ERR 1).hgUpd n fun h => { h with rx := 0 }

/-- An acknowledgement applied: a SENT timed command becomes ARMED (R430, R438). -/
def Dev.hgAcked (d : Dev) (n ack : Nat) : Dev :=
  match (d.hgs n).rel with
  | none => d
  | some r =>
    if r.seq ≠ ack then d
    else
      let d := d.hgUpd n fun h => { h with rel := none }
      let h := r.pkt.origin - 3
      d.when (decide (3 ≤ r.pkt.origin) && d.tmdState n h == 1) (·.put (pgHG n) (HGL.TMD_STAT_STATE.at h) 2)

/-- The packet is reliable (R427). -/
def hgReliable (typ : Nat) : Bool := [0, 3, 5, 7].contains typ

/-- HG_PACKET: decoded, accepted or counted; sequence, acknowledgement, link state; a body not seen before is delivered (R426,
R430, R431, R433). -/
def hgPacketDo (n : Nat) (words : List (List Int)) (d : Dev) : Dev :=
  let got := hangerBytes words
  let pay := got.getD []
  let pg := pgHG n
  let h := d.hgs n
  let hd := h.rxHdr
  let typ := bitsOf hd 28 4
  let seq := bitsOf hd 8 16
  let len := beVal (part pay 4 2)
  let body := part pay 6 len
  let dup := hgReliable typ && h.lastRel == some seq
  let gap := match h.rxRef with | none => false | some r => !dup && seq != (r + 1) % 2 ^ 16
  let done := d.hgUpd n fun h => { h with rx := 0 }
  if h.rx ≠ 2 then d
  else if got.isNone then done.bump pg HGL.CW_FAIL 1
  else if 96 * (bitsOf hd 25 3 + 1) - 6 < len ∨ 7 < typ then done.bump pg HGL.BAD_PKT 1
  else
    let d := (done.bump pg HGL.PKT_RX 1).when gap (·.bump pg HGL.SEQ_GAP 1)
    let d := d.hgUpd n fun h => { h with
      rxRef := if dup then h.rxRef else some seq
      lastRel := if hgReliable typ then some seq else h.lastRel
      ackDue := if hgReliable typ then some seq else h.ackDue }
    let d := if bitOf (pay.getD 2 0) 0 then d.hgAcked n (beVal (pay.take 2)) else d
    let d := if d.hgLink n = 1 then d.hgIdStart n else d.hgPump n
    if dup then d else d.emit (.hangerRx n typ seq body)

/-- SEC_FAIL counted and raised. -/
def Dev.hgSecFail (d : Dev) (n : Nat) : Dev := (d.bump (pgHG n) HGL.SEC_FAIL 1).ev (pgHG n) 7

/-- A request completes with a response: the words of a read are at most those it asked for (R436). -/
def Dev.hgReqDone (d : Dev) (n : Nat) (r : HgReq) (status : Nat) (words : List Nat) : Dev :=
  d.hgReqEnd n r (if status = 0 then 1 else 7) status (if r.read ∧ status = 0 then words.take r.count else [])

/-- RSP: completes the identity read or a request; a plain RSP to a secure request is ignored but for its count
(R433, R436, R441). -/
def rspDo (n tag status : Nat) (words : List Nat) (d : Dev) : Dev :=
  let h := d.hgs n
  if h.idTag = some tag then
    if status = 0 ∧ 2 ≤ words.length then d.hgIdRead n (words.getD 0 0 + 2 ^ 32 * words.getD 1 0) else d
  else match h.reqs.find? (·.tag == tag) with
    | none => d
    | some r => if r.secure then d.hgSecFail n else d.hgReqDone n r status words

/-- SRSP: decrypted under the companion's key; a failure is counted in both places and ends a secure request with SEC (R334, R441): which
one it answers cannot be read, so the oldest ends. (DEDUCED: log 296) -/
def srspDo (n : Nat) (rec : List Nat) (agreed : Bool) (d : Dev) : Dev :=
  let fail (d : Dev) : Dev :=
    let old := ((d.hgs n).reqs.find? (·.secure)).map (·.tag)
    (d.ctlFail.hgSecFail n).hgReqFail n 6 fun r => r.secure && some r.tag == old
  match d.hgSession n with
  | none => fail d
  | some k =>
    match (if rec.headD 0 = 3 then openRecord k.rxKey k.rxLast agreed rec else none) with
    | none => fail d
    | some (ctr, plain) =>
      let k' : KsHanger := { k with rxLast := ctr }
      let d := d.ksUpd fun x => { x with hangers := AMap.insert x.hangers n k' }
      match (d.hgs n).reqs.find? fun r => r.secure && r.tag == beVal (plain.take 2) with
      | none => d
      | some r =>
        d.hgReqDone n r (plain.getD 2 0) ((List.range (plain.getD 3 0)).map fun i => beVal (part plain (4 + 4 * i) 4))

/-- The bytes of a telemetry slot: LEN, SEQ, the body (R437). -/
def telSlot (seq : Nat) (body : List (BitVec 8)) : List (BitVec 8) :=
  let f (v : Nat) : List (BitVec 8) := [BitVec.ofNat 8 v, BitVec.ofNat 8 (v / 256)]
  f body.length ++ f seq ++ body

/-- TEL: into the ring in hub SRAM, or dropped on a full one (R437). (DEDUCED: log 136) -/
def telDo (n seq : Nat) (body : List (BitVec 8)) (d : Dev) : Dev :=
  let pg := pgHG n
  let wr := d.get pg HGL.STAT_TEL_WR
  if (wr + 256 - d.get pg HGL.TEL_RD_RD) % 256 = 16 then d.bump pg HGL.TEL_DROP 1
  else
    (d.sramWrite ((d.get pg HGL.TEL_BASE_ADDR / 4096 * 4096 + 1024 * (wr % 16)) % 2 ^ 26) (telSlot seq body)).bump pg HGL.STAT_TEL_WR 1

/-- EVENT: EXEC_DONE, companion events (R437, R440). -/
def eventDo (n code b1 b2 : Nat) (d : Dev) : Dev :=
  let pg := pgHG n
  if code = 3 then
    match AMap.find? (d.hgs n).timed b1 with
    | some t =>
      if t.fired && d.tmdState n b1 == 2 then
        let d := d.put pg (HGL.TMD_STAT_STATUS.at b1) b2
        if b2 = 0 then d.tmdSet n b1 3 1 else d.tmdFail n b1 8
      else d
    | none => d
  else if 0x10 ≤ code then ((d.put pg HGL.CEVT_CODE code).put pg HGL.CEVT_DATA (b1 * 256 + b2)).ev pg 4
  else d

/-! ### Timers -/

/-- HG_RTO: resent, or after the fourth send its own request ends NOACK and the link trains; in OFF nothing is sent (R430, R433). -/
def hgRtoDo (n : Nat) (d : Dev) : Dev :=
  match (if d.hgLink n = 0 then none else (d.hgs n).rel) with
  | none => d
  | some r =>
    if r.sends < 4 then
      let r' : HgRel := { r with due := true }
      (d.hgUpd n fun h => { h with rel := some r' }).hgPump n
    else (d.hgReqFail n 2 fun q => !q.other r.pkt).hgTrain n

/-- HG_ACK_TIMER (R431). -/
def hgAckDo (n : Nat) (d : Dev) : Dev := d.when ((d.hgs n).ackDue.isSome && d.hgLink n != 0) (·.hgIdle n)

/-- HG_IDLE_TIMER (R433). -/
def hgIdleDo (n : Nat) (d : Dev) : Dev := d.when (d.hgLink n == 1) (·.hgIdle n)

/-- HG_LINK_TIMEOUT (R433). -/
def hgTmoDo (n : Nat) (d : Dev) : Dev := d.when (decide (2 ≤ d.hgLink n)) (·.hgTrain n)

/-! ### Triggers (R439, R440) -/

/-- The handles whose trigger comes next, among those in a state whose trigger lies at most `lim` tenths of a ns ahead: all those with
the earliest instant (R439, R445). -/
def Dev.trigDue (d : Dev) (n : Nat) (x : FramePos) (lim : Nat) (f : Nat → Bool) : List Nat :=
  let at_ (h : Nat) : Option (Int × Int) :=
    match AMap.find? (d.hgs n).timed h with
    | some t => if t.fired || !f (d.tmdState n h) then none else some (10 * d.trigTime x t, d.cntBaud t.port t.rxCnt)
    | none => none
  let soon := ((List.range 16).filterMap fun h => (at_ h).map fun v => (h, v)).filter fun v => decide (v.2.1 ≤ (lim : Int) * v.2.2)
  (soon.filter fun v => soon.all fun w => decide (v.2.1 * w.2.2 ≤ w.2.1 * v.2.2)).map (·.1)

/-- TRIGGER_RESERVATION: from here a packet of full length would reach into the trigger's preamble.  Commands still SENT fail with LINK;
the link is kept for the trigger (R439). (DEDUCED: log 140) -/
def trigResvDo (n : Nat) (x : FramePos) (d : Dev) : Dev :=
  let due := d.trigDue n x 34048 fun st => st == 1 || st == 2
  let d := due.foldl (fun d h => d.when (d.tmdState n h == 1) (·.tmdFail n h 5)) d
  d.when (due.any fun h => d.tmdState n h == 2) (·.hgUpd n fun h => { h with resv := true })

/-- TRIGGER: one EVENT TRIGGER with the map of the armed handles due, and LEAD; in OFF the port is silent (R433, R439). -/
def triggerDo (n : Nat) (x : FramePos) (d : Dev) : Dev :=
  let hs := d.trigDue n x 0 (· == 2)
  let d := d.hgUpd n fun h => { h with resv := false }
  let lead := match AMap.find? (d.hgs n).timed (hs.headD 0) with | some t => t.lead | none => 0
  let d := if hs.isEmpty || d.hgLink n == 0 then d
    else
      let d := d.hgNew n 4 ([2] ++ beBytes 2 (hs.foldl (fun a h => a + 2 ^ h) 0) ++ [lead])
      let mark (m : AMap HgTimed) (h : Nat) : AMap HgTimed :=
        match AMap.find? m h with | some t => AMap.insert m h { t with fired := true } | none => m
      d.hgUpd n fun s => { s with timed := hs.foldl mark s.timed }
  d.hgPump n

/-- EXEC_DONE_TIMEOUT (R440). -/
def execDoneLate (n h : Nat) (d : Dev) : Dev :=
  match AMap.find? (d.hgs n).timed h with
  | some t => d.when (t.fired && d.tmdState n h == 2) (·.tmdFail n h 5)
  | none => d

/-! ### Key agreement (R441, R442) -/

/-- The KEY packets of a message, 759 bytes a fragment. (DEDUCED: log 135) -/
def keyFrags (typ : Nat) (msg : List Nat) : List (List Nat) :=
  let n := cdiv msg.length 759
  (List.range n).map fun i => [typ, i, n] ++ part msg (759 * i) 759

/-- A key-exchange message queued. -/
def Dev.hgKeySend (d : Dev) (n typ : Nat) (msg : List Nat) : Dev :=
  (keyFrags typ msg).foldl (fun d b => d.hgQueue n ⟨7, b, 4, 0, 0⟩) d

/-- The device ends the exchange, telling the companion. -/
def Dev.hgKeyFail (d : Dev) (n reason : Nat) : Dev := (d.hgKeyEnd n false reason).hgKeySend n 0x54 [reason]

/-- HG_KEY_AGREE (R359, R442). -/
def opHgKeyAgree (d : Dev) : Dev := d.ksOp 11 (· == 1) true true fun b d =>
  let n := b.headD 0
  if 3 < n then d.ksResult 7 []
  else if (AMap.find? d.ks.hgExch n).isSome then d
  else if d.hgLink n ≠ 4 then d.hgKeyEnd n false 7
  else
    let req := beBytes 32 d.drbg
    let x : KsHgExch := ⟨1, req, [], 0⟩
    let d := d.used.ksUpd fun k => { k with hgExch := AMap.insert k.hgExch n x, hangers := AMap.erase k.hangers n }
    let d := ((d.putb (pgHG n) HGL.STATUS_SEC false).put (pgHG n) HGL.SEC_STAT_STATE 1).put (pgHG n) HGL.SEC_STAT_REASON 0
    d.hgKeySend n 0x50 req

/-- KX_EK complete: the pin, then KX_CT (R442). -/
def Dev.hgKxEk (d : Dev) (n : Nat) (x : KsHgExch) (ek : List Nat) : Dev :=
  let key := ek.drop 32
  let dig := shakeN key 32
  let pin := AMap.find? d.ks.pins n
  if ek.length ≠ 1216 then d
  else if pin.isSome && pin != some dig then d.hgKeyFail n 5
  else
    let d := (d.ksUpd fun k => { k with pins := AMap.insert k.pins n dig }).putb (pgHG n) HGL.SEC_STAT_PINNED true
    let r := d.drbg
    let ct := beBytes 1088 (Config.kemCt key r)
    let t := shakeB (x.req ++ ek ++ ct) 64
    let s := shakeN (ascii "ZML-HG-1" ++ beBytes 32 (Config.kemSs key r) ++ t) 64
    let x' : KsHgExch := ⟨2, x.req, [], s⟩
    (d.used.ksUpd fun k => { k with hgExch := AMap.insert k.hgExch n x' }).hgKeySend n 0x52 ct

/-- The key of a direction: 0 to the companion, 1 from it. -/
def hgDirKey (s dir : Nat) : Nat := shakeN (ascii "ZML-HGC" ++ beBytes 64 s ++ [dir]) 32

/-- KX_FIN complete: the session stands when it verifies (R442). -/
def Dev.hgKxFin (d : Dev) (n : Nat) (x : KsHgExch) (rec : List Nat) (agreed : Bool) : Dev :=
  match (if rec.headD 0 = 3 then openRecord (hgDirKey x.secret 1) 0 agreed rec else none) with
  | none => d.ctlFail.hgKeyFail n 4
  | some (ctr, plain) =>
    if plain = shakeB (ascii "ZML-HGF" ++ beBytes 64 x.secret) 32 then
      let k : KsHanger := ⟨hgDirKey x.secret 0, hgDirKey x.secret 1, 0, ctr⟩
      (d.ksUpd fun s => { s with hangers := AMap.insert s.hangers n k }).hgKeyEnd n true 0
    else d.hgKeyFail n 4

/-- KEY: a fragment of the message awaited, or KX_ABORT (R442). (DEDUCED: log 134) -/
def keyDo (n : Nat) (b : List Nat) (agreed : Bool) (d : Dev) : Dev :=
  match AMap.find? d.ks.hgExch n with
  | none => d
  | some x =>
    let typ := b.headD 0
    let cnt := b.getD 2 0
    if typ = 0x54 then d.hgKeyEnd n false (b.getD 3 0)
    else if typ = (if x.phase = 1 then 0x51 else 0x53) ∧ b.getD 1 0 < cnt then
      let fr := AMap.insert x.frags (b.getD 1 0) (b.drop 3)
      if (List.range cnt).all fun i => (AMap.find? fr i).isSome then
        let msg := ((List.range cnt).map fun i => (AMap.find? fr i).getD []).flatten
        if x.phase = 1 then d.hgKxEk n x msg else d.hgKxFin n x msg agreed
      else
        let x' : KsHgExch := { x with frags := fr }
        d.ksUpd fun k => { k with hgExch := AMap.insert k.hgExch n x' }
    else d

/-- KX_TIMEOUT: TIMEOUT (R442). -/
def kxTimeoutDo (n : Nat) (d : Dev) : Dev := d.when (AMap.find? d.ks.hgExch n).isSome (·.hgKeyFail n 11)

/-! ### Noise floor (R443) -/

/-- 10 log10 of the mean of 256 powers in 2^-32 of full scale, rounded down to 0.1 dB, as a number of 0.1 dB below full scale, from
their sum; `none` for a sum that is zero. (DEDUCED: log 138) -/
def floorDb (sum : Nat) : Option Nat :=
  (List.range 1300).find? fun k => decide (2 ^ 4000 ≤ sum ^ 100 * 10 ^ k)

/-- NOISE_GAP: every 256 gaps the floor is taken; the spec gives no rounding, and no value for a mean of zero. -/
def noiseGapDo (n power : Nat) (d : Dev) : Dev :=
  let pg := pgHG n
  let d := (d.bump pg HGL.GAPS 1).bump pg HGL.GAP_SUM power
  if d.get pg HGL.GAPS < 256 then d
  else
    let f : Int := match floorDb (d.get pg HGL.GAP_SUM) with
      | some k => -(k : Int) + ((d.free % 2 : Nat) : Int)
      | none => (d.free : Int)
    let d := (d.used.put pg HGL.NOISE_FLOOR (sTo 12 f)).putb pg HGL.NOISE_VALID true
    (d.put pg HGL.GAPS 0).put pg HGL.GAP_SUM 0

/-! ### The commands -/

def execHgKeyAgree (s : State) : Host.Outcome State Fault Refusal := s.run opHgKeyAgree

def execHglEn (n : Fin 4) (w : Word) (s : State) : Host.Outcome State Fault Refusal := s.run (hgCtlWrite n.val w)

def execHgPreamble (n : Fin 4) (corr : BitVec 9) (peak : BitVec 32) (line : List EchoSample) (s : State) :
    Host.Outcome State Fault Refusal :=
  s.run (hgPreambleDo n.val corr.toNat peak.toNat line)

def execHgHeader (n : Fin 4) (w : BitVec 32) (s : State) : Host.Outcome State Fault Refusal := s.run (hgHeaderDo n.val w.toNat)

def execHgPacket (n : Fin 4) (words : List (List Int)) (s : State) : Host.Outcome State Fault Refusal :=
  s.run (hgPacketDo n.val words)

def execRsp (n : Fin 4) (tag : BitVec 16) (status : BitVec 8) (words : List Word) (s : State) :
    Host.Outcome State Fault Refusal :=
  s.run (rspDo n.val tag.toNat status.toNat (words.map (·.toNat)))

def execTel (n : Fin 4) (seq : BitVec 16) (body : List (BitVec 8)) (s : State) : Host.Outcome State Fault Refusal :=
  s.run (telDo n.val seq.toNat body)

def execEvent (n : Fin 4) (code : BitVec 8) (b1 b2 : BitVec 8) (s : State) : Host.Outcome State Fault Refusal :=
  s.run (eventDo n.val code.toNat b1.toNat b2.toNat)

def execSrsp (n : Fin 4) (record : List (BitVec 8)) (agreed : Bool) (s : State) : Host.Outcome State Fault Refusal :=
  s.run (srspDo n.val (record.map (·.toNat)) agreed)

def execKey (n : Fin 4) (body : List (BitVec 8)) (agreed : Bool) (s : State) : Host.Outcome State Fault Refusal :=
  s.run (keyDo n.val (body.map (·.toNat)) agreed)

def execHgRto (n : Fin 4) (s : State) : Host.Outcome State Fault Refusal := s.run (hgRtoDo n.val)

def execHgAckTimer (n : Fin 4) (s : State) : Host.Outcome State Fault Refusal := s.run (hgAckDo n.val)

def execHgIdleTimer (n : Fin 4) (s : State) : Host.Outcome State Fault Refusal := s.run (hgIdleDo n.val)

def execHgLinkTimeout (n : Fin 4) (s : State) : Host.Outcome State Fault Refusal := s.run (hgTmoDo n.val)

/-- HGL_ACCEPT: a write of HGL_CMD whose ACCEPT bit is 1. -/
def execHglAccept (n : Fin 4) (w : Word) (s : State) : Host.Outcome State Fault Refusal := s.run (hgCmdWrite n.val (w ||| 1#32))

/-- RETRAIN: a write of HGL_CMD whose RETRAIN bit is 1. -/
def execRetrain (n : Fin 4) (w : Word) (s : State) : Host.Outcome State Fault Refusal := s.run (hgCmdWrite n.val (w ||| 2#32))

/-- NOISE_CLR: a write of HGL_CMD whose NOISE_CLR bit is 1. -/
def execNoiseClr (n : Fin 4) (w : Word) (s : State) : Host.Outcome State Fault Refusal := s.run (hgCmdWrite n.val (w ||| 4#32))

/-- EC_RESET: a write of HGL_EC_CTL whose RESET bit is 1. -/
def execEcReset (n : Fin 4) (w : Word) (s : State) : Host.Outcome State Fault Refusal := s.run (ecCtlWrite n.val (w ||| 0x20#32))

/-- REQ_GO: a write of HGL_REQ_CTL whose GO bit is 1, or a pier engine's request. (DESIGN CHOICE: log 142) -/
def execReqGo (n : Fin 4) (w : Word) (pier : Option PierReq) (s : State) : Host.Outcome State Fault Refusal :=
  s.run fun d => match pier with | none => reqGoDo n.val (w ||| 0x10000#32) d | some q => pierReqDo n.val q d

/-- TMD_GO: a write of HGL_TMD_CTL whose GO bit is 1. -/
def execTmdGo (n : Fin 4) (w : Word) (pos : FramePos) (s : State) : Host.Outcome State Fault Refusal :=
  s.run (tmdGoDo n.val (w ||| 0x80000000#32) pos)

def execTriggerReservation (n : Fin 4) (pos : FramePos) (s : State) : Host.Outcome State Fault Refusal :=
  s.run (trigResvDo n.val pos)

def execTrigger (n : Fin 4) (pos : FramePos) (s : State) : Host.Outcome State Fault Refusal := s.run (triggerDo n.val pos)

def execExecDoneTimeout (n : Fin 4) (h : Fin 16) (s : State) : Host.Outcome State Fault Refusal :=
  s.run (execDoneLate n.val h.val)

def execKxTimeout (n : Fin 4) (s : State) : Host.Outcome State Fault Refusal := s.run (kxTimeoutDo n.val)

def execNoiseGap (n : Fin 4) (power : BitVec 32) (s : State) : Host.Outcome State Fault Refusal :=
  s.run (noiseGapDo n.val power.toNat)

end Sys2Proof.Machine
end

