-- ==== Sys2Proof/Machine/Tcv.lean ====
section
/-! DEFINITION.  The telemetry converter (R448–R470), and what CAL does with it (R475–R477, R483, R484). -/

namespace Sys2Proof.Machine

/-! ### Model fields of the CAL page -/

/-- The hub temperature CAL read last, 1/16 °C (R475). -/
def CAL.TEMP : Fld := hid 0 16 0
/-- Some TCV calibration has agreed (R475). -/
def CAL.TCV_HAD : Fld := hid 4 1 0
/-- A CAL request waits for its start (R476). -/
def CAL.TCV_WAIT : Fld := hid 8 1 0
/-- A conversion of VREFX since the last check (R483). -/
def CAL.VREF_NEW : Fld := hid 16 1 0
/-- Milliseconds since a port's last agreeing hybrid calibration (R479). -/
def CAL.HG_AGE_MS : Fld := hidA 0x20 32 4
/-- Consecutive VREFX checks within 1.5 % (R483). -/
def CAL.VREF_GOOD : Fld := hid 12 3 0

/-- The converter's state changed. -/
def Dev.tcvUpd (d : Dev) (f : TcvState → TcvState) : Dev := { d with tcv := f d.tcv }

/-! ### Numbers -/

/-- Division by 2^sh, to nearest, ties away from zero (R464). -/
def shiftRound (v : Int) (sh : Nat) : Int :=
  let q : Int := (((v.natAbs + 2 ^ sh / 2) / 2 ^ sh : Nat) : Int)
  if v < 0 then -q else q

/-- Division to nearest, ties away from zero. -/
def divRound (v : Int) (n : Nat) : Int :=
  let q : Int := (((2 * v.natAbs + n) / (2 * n) : Nat) : Int)
  if v < 0 then -q else q

/-- The internal width of 24 bits (R464). -/
def sat24 (v : Int) : Int := clampI (-(2 ^ 23)) (2 ^ 23 - 1) v

/-- The corrected 16-bit result of a chain output in 1/64 LSB (R451). -/
def Dev.tcvCorrect (d : Dev) (x : Int) : Int :=
  clampI (-32768) 32767
    (divRound ((x - 64 * sOf 16 (d.get pgTCV TCV.CAL_OFS_OFS)) * (d.get pgTCV TCV.CAL_GAIN_GAIN : Int)) (64 * 32768))

/-! ### Sampling (R456) -/

/-- A channel with a profile, as sampled now. -/
def Dev.tcvSample (d : Dev) (ch n rep delay : Nat) : TcvSample :=
  let g (f : Fld) : Nat := d.get pgTCV (f.at n)
  let b (f : Fld) : Bool := d.flag pgTCV (f.at n)
  ⟨ch, n, rep, delay, clampN 4 256 (g TCV.PROF_A_DEC), min 2 (g TCV.PROF_A_HB), g TCV.PROF_A_FIR, b TCV.PROF_A_DCB_EN,
    b TCV.PROF_A_DCB_FRZ, b TCV.PROF_A_SCS, g TCV.PROF_A_DCB_K + 4, g TCV.PROF_B_SH_SINC, g TCV.PROF_B_SH_HB1,
    g TCV.PROF_B_SH_HB2, g TCV.PROF_B_SH_FIR, g TCV.PROF_B_SH_DCB,
    (List.range 64).map fun t =>
      sOf 16 (d.get pgTCV ((if t % 2 = 0 then TCV.FIR_C0 else TCV.FIR_C1).at (32 * n + t / 2)))⟩

/-- The settling time in modulator samples (R464, R465). -/
def TcvSample.settle (s : TcvSample) : Nat :=
  s.dec * (if s.scs then 3 else if s.fir = 0 then [3, 25, 69].getD s.hb 69 else [66, 151, 321].getD s.hb 321)

/-- The output period in modulator samples. -/
def TcvSample.period (s : TcvSample) : Nat := if s.scs then 3 * s.dec else s.dec * 2 ^ s.hb

/-! ### The scan (R455) -/

/-- Entry `e` starts: the multiplexer switches and the entry is sampled; its DC-block state clears when its channel or
profile changed (R455, R456, R465). -/
def Dev.tcvEntry (d : Dev) (e : Nat) : Dev :=
  let ch := d.get pgTCV (TCV.SCAN_CH.at e)
  let n := d.get pgTCV (TCV.SCAN_PROFILE.at e)
  let s := d.tcvSample ch n (d.get pgTCV (TCV.SCAN_REPEAT.at e) + 1) (d.get pgTCV (TCV.SCAN1_DELAY.at e))
  let tag := ch * 4 + n
  let d := (d.put pgTCV TCV.STATUS_ENTRY e).putb pgTCV TCV.STATUS_IN_DELAY false
  d.tcvUpd fun t => { t with
    phase := 1
    cur := some s
    left := s.rep
    dc := if AMap.find? t.seen e = some tag then t.dc else AMap.erase t.dc e
    seen := AMap.insert t.seen e tag
    since := 0
    chain := TcvChain.reset
    ovrRun := none
    dip := false }

/-- A waiting calibration starts once no result is in progress and no injection is pending; a scan entry that was settling
starts again after it (R452, R454, R461). (DEDUCED: log 146) -/
def Dev.tcvCalGo (d : Dev) : Dev :=
  let t := d.tcv
  if t.cal = 1 ∧ d.flag pgTCV TCV.STATUS_REF_READY = true ∧ t.inj = 0 ∧ t.phase ≠ 2 then
    let e := d.get pgTCV TCV.STATUS_ENTRY
    d.tcvUpd fun t => { t with cal := 2, phase := if t.phase = 1 then 4 else t.phase, next := if t.phase = 1 then e else t.next }
  else d

/-- An entry that is to start does so while the reference is ready, no calibration runs or waits and no injection is
pending (R452, R454, R459). -/
def Dev.tcvGo (d : Dev) : Dev :=
  let d := d.tcvCalGo
  let t := d.tcv
  let d := if t.phase = 4 ∧ d.flag pgTCV TCV.STATUS_REF_READY = true ∧ t.cal = 0 ∧ t.inj = 0 then d.tcvEntry t.next else d
  (d.putb pgTCV TCV.STATUS_RUN (d.tcv.phase != 0 && d.flag pgTCV TCV.STATUS_REF_READY)).putb pgTCV TCV.STATUS_INJ_PEND
    (d.tcv.inj != 0)

/-- The next entry is to start; a return to entry 0 counts (R455, R468). -/
def Dev.tcvNext (d : Dev) : Dev :=
  let e := d.get pgTCV TCV.STATUS_ENTRY
  let wrap := decide (d.get pgTCV TCV.CTL_LAST ≤ e)
  let d := d.when wrap fun d => (d.bump pgTCV TCV.LOOPS 1).ev pgTCV 9
  ((d.tcvUpd fun t => { t with phase := 4, next := if wrap then 0 else e + 1 }).putb pgTCV TCV.STATUS_IN_DELAY false).tcvGo

/-! ### CAL requests (R475, R476, R484) -/

/-- A calibration waits to run. -/
def Dev.tcvCalAsk (d : Dev) (own : Bool) : Dev :=
  if d.flag pgTCV TCV.STATUS_CAL_BUSY then d
  else ((d.putb pgTCV TCV.STATUS_CAL_BUSY true).tcvUpd fun t => { t with cal := 1, calOwn := own }).tcvGo

/-- A CAL request starts its attempt; a calibration of the host's that is under way counts as the attempt (R485).
 -/
def Dev.calTcvGo (d : Dev) : Dev :=
  let d := ((d.putb pgCAL CAL.TCV_WAIT false).bump pgCAL CAL.TCV_RUNS 1).bumpSat pgCAL CAL.TCV_LAST_TRIES 1
  if d.flag pgTCV TCV.STATUS_CAL_BUSY then d.tcvUpd fun t => { t with calOwn := true } else d.tcvCalAsk true

/-- A waiting request starts at once, or with TCV_IDLE_ONLY when the scan is stopped or has just entered a DELAY of at least
1,850 µs (R476). -/
def Dev.calTcvTry (d : Dev) (longDelay : Bool) : Dev :=
  if d.flag pgCAL CAL.TCV_WAIT && (!d.flag pgCAL CAL.CTL_TCV_IDLE_ONLY || d.tcv.phase == 0 || longDelay) then d.calTcvGo else d

/-- CAL requests a calibration: not while VREF_OK is 0, nor while one is under way (R475, R483). -/
def Dev.calTcvRequest (d : Dev) : Dev :=
  if !d.flag pgCAL CAL.STATUS_VREF_OK || d.flag pgCAL CAL.STATUS_TCV_BUSY then d
  else
    let d := (d.putb pgCAL CAL.STATUS_TCV_BUSY true).putb pgCAL CAL.TCV_WAIT true
    (d.put pgCAL CAL.TCV_LAST_TRIES 0).calTcvTry false

/-- A trigger of R475: stale unless it is age, and requested with TCV_AUTO (R475, R484). -/
def Dev.calTcvTrigger (d : Dev) (age : Bool) : Dev :=
  let d := d.when (!age && !d.flag pgCAL CAL.STATUS_TCV_STALE) fun d => (d.putb pgCAL CAL.STATUS_TCV_STALE true).ev pgCAL 10
  d.when (d.flag pgCAL CAL.CTL_TCV_AUTO) Dev.calTcvRequest

/-- The calibration is over; the scan goes on. -/
def Dev.tcvCalOver (d : Dev) : Dev :=
  ((d.putb pgTCV TCV.STATUS_CAL_BUSY false).tcvUpd fun t => { t with cal := 0, calOwn := false }).tcvGo

/-- A calibration fails; one that CAL asked for is tried again, up to 3 retries (R453, R472). -/
def Dev.tcvCalFail (d : Dev) : Dev :=
  let own := d.tcv.calOwn
  let d := ((d.put pgTCV TCV.CAL_STAT_RESULT 2).ev pgTCV 1).tcvCalOver
  if !own then d
  else
    let d := d.bump pgCAL CAL.TCV_FAILS 1
    if d.get pgCAL CAL.TCV_LAST_TRIES < 4 then (d.putb pgCAL CAL.TCV_WAIT true).calTcvTry false
    else ((d.putb pgCAL CAL.TCV_LAST_SUSPECT true).putb pgCAL CAL.STATUS_TCV_BUSY false).ev pgCAL 3

/-- A calibration agrees (R453, R475, R484). -/
def Dev.tcvCalAgree (d : Dev) (ofs : Int) (gain : Nat) : Dev :=
  let own := d.tcv.calOwn
  let d := (d.put pgTCV TCV.CAL_OFS_OFS (sTo 16 ofs)).put pgTCV TCV.CAL_GAIN_GAIN gain
  let d := ((d.put pgTCV TCV.CAL_STAT_RESULT 1).ev pgTCV 0).tcvCalOver
  let d := (d.put pgCAL CAL.TCV_LAST_TEMP (d.get pgCAL CAL.TEMP)).put pgCAL CAL.TCV_AGE_MS 0
  let d := (d.putb pgCAL CAL.STATUS_TCV_STALE false).putb pgCAL CAL.TCV_HAD true
  d.when own fun d =>
    ((d.putb pgCAL CAL.TCV_LAST_SUSPECT false).putb pgCAL CAL.STATUS_TCV_BUSY false).ev pgCAL 2

/-- CAL_DONE: offsets within 2 LSB and gains within 0.02 % agree, and their means are written; how an odd sum rounds is
open (R453). (DEDUCED: log 147) -/
def calDoneDo (o1 o2 : Int) (g1 g2 : Nat) (d : Dev) : Dev :=
  if d.tcv.cal ≠ 2 then d
  else if (o1 - o2).natAbs ≤ 2 ∧ ((g1 : Int) - (g2 : Int)).natAbs * 10000 ≤ g1 + g2 then
    let up : Nat := d.free % 2
    let ofs := (o1 + o2) / 2 + (if (o1 + o2) % 2 = 0 then 0 else (up : Int))
    let gain := (g1 + g2) / 2 + (if (g1 + g2) % 2 = 0 then 0 else up)
    d.used.tcvCalAgree ofs gain
  else d.tcvCalFail

/-! ### Host writes -/

/-- The queue's level and head shown (R463). -/
def Dev.tcvShowQ (d : Dev) : Dev :=
  (d.put pgTCV TCV.Q_STAT_LEVEL d.tcv.queue.length).put pgTCV TCV.Q_HEAD_ENTRY (d.tcv.queue.headD 0x00040000)

/-- The scan stops (R457). -/
def Dev.tcvStop (d : Dev) : Dev :=
  (((d.tcvUpd fun t => { t with phase := 0, cur := none }).putb pgTCV TCV.STATUS_IN_DELAY false).tcvGo).calTcvTry false

/-- REF_EN falls: the conversion is discarded, a running calibration fails, the scan waits (R452, R468). (DEDUCED: log 145) -/
def Dev.tcvRefOff (d : Dev) : Dev :=
  let e := d.get pgTCV TCV.STATUS_ENTRY
  let run := d.tcv.cal == 2
  let d := (d.putb pgTCV TCV.STATUS_REF_READY false).tcvUpd fun t =>
    { t with inj := 0, injCur := none, phase := if t.phase = 1 ∨ t.phase = 2 then 4 else t.phase,
             next := if t.phase = 1 ∨ t.phase = 2 then e else t.next }
  (d.when run Dev.tcvCalFail).tcvGo

/-- A write of TCV_CTL (R452, R453, R457, R463). -/
def tcvCtlWrite (w : Word) (d : Dev) : Dev :=
  let ref := d.flag pgTCV TCV.CTL_REF_EN
  let scan := d.flag pgTCV TCV.CTL_SCAN_EN
  let d := d.putWs pgTCV [TCV.CTL_REF_EN, TCV.CTL_SCAN_EN, TCV.CTL_LAST] w
  let d := d.when (ref && !d.flag pgTCV TCV.CTL_REF_EN) Dev.tcvRefOff
  let now := d.flag pgTCV TCV.CTL_SCAN_EN
  let d := if scan && !now then d.tcvStop
    else if now && !scan then (d.tcvUpd fun t => { t with phase := 4, next := 0, dc := [], seen := [] }).tcvGo
    else d
  let d := d.when (bitOf w.toNat 16) (·.tcvCalAsk false)
  if bitOf w.toNat 17 then (d.tcvUpd fun t => { t with queue := [] }).tcvShowQ else d

/-- REF_READY: 2 ms after REF_EN (R452). -/
def refReadyDo (d : Dev) : Dev :=
  if d.flag pgTCV TCV.CTL_REF_EN && !d.flag pgTCV TCV.STATUS_REF_READY then
    ((d.putb pgTCV TCV.STATUS_REF_READY true).ev pgTCV 8).tcvGo
  else d

/-- The converter is idle: scan stopped or in a DELAY, no injection, no calibration, the reference ready (R458, R460). -/
def Dev.tcvIdle (d : Dev) : Bool :=
  d.flag pgTCV TCV.STATUS_REF_READY && d.tcv.inj == 0 && d.tcv.cal != 2 && (d.tcv.phase == 0 || d.tcv.phase == 3)

/-- A write of TCV_INJ with GO: dropped too while a conversion of CAL's waits (R458, R460, R485). -/
def injGoDo (w : Word) (d : Dev) : Dev :=
  let d := d.putWs pgTCV [TCV.INJ_CH, TCV.INJ_PROFILE] w
  if !bitOf w.toNat 16 then d
  else if d.tcvIdle && !d.tcv.calConv then
    let s := d.tcvSample (d.get pgTCV TCV.INJ_CH) (d.get pgTCV TCV.INJ_PROFILE) 1 0
    (d.tcvUpd fun t => { t with inj := 1, injCur := some s, chain := TcvChain.reset, ovrRun := none, dip := false }).tcvGo
  else (d.bump pgTCV TCV.INJ_DROP 1).ev pgTCV 5

/-! ### Conversions -/

/-- MUX_SETTLED: the conversion starts (R455, R458). -/
def muxSettledDo (d : Dev) : Dev :=
  if d.tcv.inj = 1 then d.tcvUpd fun t => { t with inj := 2 }
  else if d.tcv.phase = 1 then d.tcvUpd fun t => { t with phase := 2 }
  else d

/-- A saturation count and its event (R464). -/
def Dev.tcvSat (d : Dev) (f : Fld) (n : Nat) : Dev := d.when (n != 0) fun d => (d.bump pgTCV f n).ev pgTCV 7

/-- The weight of sample `i` in a sinc3 of length `r`: the convolution of three boxes (R464). -/
def box3 (r i : Nat) : Nat :=
  let c (k : Nat) : Nat := (k + 2) * (k + 1) / 2
  c i + (if 2 * r ≤ i then 3 * c (i - 2 * r) else 0) - (if r ≤ i then 3 * c (i - r) else 0)

/-- The sinc3 of a window, newest sample first, times r³ (R464). -/
def sincSum (r : Nat) (b : List Int) : Int := (List.range (3 * r - 2)).foldl (fun a i => a + (box3 r i : Int) * b.getD i 0) 0

/-- A filter stage takes one value: its new state, its output when one falls due, and whether that saturated.  Its window is `w` values
long and holds settled inputs only from the first output on, one output follows every `stride` inputs, and `f` filters, shifts and
rounds; a stage that is off passes the value on (R464). -/
def TcvStage.feed (st : TcvStage) (on : Bool) (w stride : Nat) (f : List Int → Int) (x : Option Int) : TcvStage × Option Int × Nat :=
  match x with
  | none => (st, none, 0)
  | some v =>
    if !on then (st, some v, 0)
    else
      let b := (v :: st.buf).take w
      let n := st.n + 1
      let y := f b
      if w ≤ n ∧ (n - w) % stride = 0 then (⟨n, b⟩, some (sat24 y), b2n (y != sat24 y)) else (⟨n, b⟩, none, 0)

/-- The halfband of a window of 23, newest first, in 2^-24: symmetric, one half at the centre and zero at the other even distances from
it, with a DC gain of exactly 1 (R450, R464). -/
def halfband (b : List Int) : Int :=
  let c (j : Nat) : Int := if j = 0 then 2 ^ 22 - (List.range 5).foldl (fun a i => a + Config.halfTap (2 * i + 3)) 0
    else Config.halfTap (2 * j + 1)
  (List.range 6).foldl (fun a j => a + c j * (b.getD (10 - 2 * j) 0 + b.getD (12 + 2 * j) 0)) (2 ^ 23 * b.getD 11 0)

/-- A ROM FIR over 64 inputs, newest first, in 2^-24, with a DC gain of exactly 1: the linear-phase set is symmetric (R450, R464). -/
def romFir (minPhase : Bool) (b : List Int) : Int :=
  let n := if minPhase then 64 else 32
  let first : Int := (if minPhase then 2 ^ 24 else 2 ^ 23) - (List.range (n - 1)).foldl (fun a i => a + Config.romTap minPhase (i + 1)) 0
  let c (j : Nat) : Int := if j = 0 then first else Config.romTap minPhase j
  (List.range 64).foldl (fun a k => a + c (if minPhase then k else min k (63 - k)) * b.getD k 0) 0

/-- The FIR of a sample's profile, over its last 64 inputs, shifted and rounded (R464). -/
def TcvSample.firOut (s : TcvSample) (b : List Int) : Int :=
  if s.fir = 3 then shiftRound ((List.range 64).foldl (fun a k => a + s.coef.getD k 0 * b.getD k 0) 0) (15 + s.shFir)
  else shiftRound (romFir (s.fir == 2) b) (24 + s.shFir)

/-- One modulator sample enters the chain, unless a result is out already (R464, R465). -/
def TcvSample.feed (s : TcvSample) (a : TcvFed) (x : Int) : TcvFed :=
  if a.out.isSome then a
  else
    let hb := if s.scs then 0 else s.hb
    let p := a.chain.sinc.feed true (3 * s.dec) s.dec (fun b => divRound (sincSum s.dec b) (s.dec ^ 3 * 2 ^ s.shSinc)) (some x)
    let q := a.chain.hb1.feed (decide (1 ≤ hb)) 23 2 (fun b => shiftRound (halfband b) (24 + s.shHb1)) p.2.1
    let r := a.chain.hb2.feed (hb == 2) 23 2 (fun b => shiftRound (halfband b) (24 + s.shHb2)) q.2.1
    let t := a.chain.fir.feed (!s.scs && s.fir != 0) 64 1 s.firOut r.2.1
    ⟨⟨p.1, q.1, r.1, t.1⟩, a.sinc + p.2.2, a.hb1 + q.2.2, a.hb2 + r.2.2, a.fir + t.2.2, t.2.1⟩

/-- Modulator samples pass through the chain up to its next output; after a result of single-cycle settling the sinc is flushed (R464,
R465). (DEDUCED: log 143) -/
def Dev.tcvChain (d : Dev) (s : TcvSample) (samples : List Int) : Dev × Option Int :=
  let a := samples.foldl s.feed ⟨d.tcv.chain, 0, 0, 0, 0, none⟩
  let d := d.tcvUpd fun t => { t with chain := if s.scs && a.out.isSome then TcvChain.reset else a.chain }
  ((((d.tcvSat TCV.SAT_SINC a.sinc).tcvSat TCV.SAT_HB1 a.hb1).tcvSat TCV.SAT_HB2 a.hb2).tcvSat TCV.SAT_FIR a.fir, a.out)

/-- The DC block of scan entry `e`; how the estimate rounds is open (R464, R465). (DEDUCED: log 144) -/
def Dev.tcvDcb (d : Dev) (s : TcvSample) (e : Nat) (x : Int) : Dev × Int :=
  if s.scs || !s.dcb then (d, x)
  else
    let m := (AMap.find? d.tcv.dc e).getD 0
    let y := x * 2 ^ 24 - m
    let step := y / 2 ^ s.k + (if y % 2 ^ s.k = 0 then 0 else ((d.free % 2 : Nat) : Int))
    let d := if s.frz then d else d.used.tcvUpd fun t => { t with dc := AMap.insert t.dc e (m + step) }
    let v := shiftRound y (24 + s.shDcb)
    (d.tcvSat TCV.SAT_DCB (b2n (v != sat24 v)), sat24 v)

/-- A result into the queue, or dropped on a full one (R462, R463). -/
def Dev.tcvPush (d : Dev) (w : Nat) : Dev :=
  let d := d.bump pgTCV TCV.RESULTS 1
  if 512 ≤ d.tcv.queue.length then (d.bump pgTCV TCV.Q_DROP 1).ev pgTCV 3
  else
    let d := (d.tcvUpd fun t => { t with queue := t.queue ++ [w] }).tcvShowQ
    d.when (d.tcv.queue.length == max 1 (d.get pgTCV TCV.Q_THR_THR)) (·.ev pgTCV 2)

/-- A result of a sample: clamped with OVR on an overrange, tagged after one, otherwise corrected (R450, R451, R462,
R466). -/
def Dev.tcvDeliver (d : Dev) (s : TcvSample) (entry : Nat) (inj : Bool) (x : Int) : Dev :=
  let met := d.tcv.ovrRun
  let dip := d.tcv.dip
  let d := d.tcvUpd fun t => { t with ovrRun := none, dip := false }
  let b := if inj then (d, x) else d.tcvDcb s entry x
  let d := b.1
  let since := if inj then 0 else d.tcv.since
  let tag := since != 0 && decide (4 * since * s.period ≤ 45 + 4 * s.settle)
  let code := match met with | some true => 0x7FFF | some false => -0x8000 | none => d.tcvCorrect b.2
  let d := d.when met.isSome fun d => (d.bump pgTCV TCV.OVR 1).ev pgTCV 6
  let d := d.when dip fun d => (d.bump pgTCV TCV.STALE 1).ev pgTCV 10
  let d := if inj then d
    else d.tcvUpd fun t => { t with since := if met.isSome then 1 else if t.since = 0 then 0 else t.since + 1 }
  d.tcvPush (s.ch * 2 ^ 26 + entry * 2 ^ 21 + b2n (met.isSome || tag) * 2 ^ 20 + b2n dip * 2 ^ 19 + b2n inj * 2 ^ 18 +
    s.prof * 2 ^ 16 + sTo 16 code)

/-- The channel belongs to a line die that is power-gated: it reads GND (R449). -/
def Dev.tcvGround (d : Dev) (ch : Nat) : Bool :=
  let die (p : Port) : Bool := d.flag (pgLDSYS p) LDSYS.GATED
  ((48 ≤ ch ∧ ch ≤ 50 || ch == 56) && die 0) || ((51 ≤ ch ∧ ch ≤ 53 || ch == 57) && die 1)

/-- Samples of a channel pass through the chain, and what the result in progress meets is kept until it is out (R449, R462, R466). -/
def Dev.tcvTake (d : Dev) (s : TcvSample) (r : TcvRaw) : Dev × Option Int :=
  (d.tcvUpd fun t => { t with ovrRun := if r.ovr.isSome then r.ovr else t.ovrRun, dip := t.dip || r.stale }).tcvChain s
    (if d.tcvGround s.ch then r.ground else r.samples)

/-- TCV_RESULT: modulator samples arrive, and with the last of them the injected result, or the next result of the scan entry; before the
chain has settled there is none (R454, R455, R458, R459, R464, R466). -/
def tcvResultDo (r : TcvRaw) (d : Dev) : Dev :=
  let t := d.tcv
  if t.inj = 2 then
    match t.injCur with
    | none => d
    | some s =>
      match d.tcvTake s r with
      | (d, none) => d
      | (d, some x) => (((d.tcvDeliver s 31 true x).ev pgTCV 4).tcvUpd fun t => { t with inj := 0, injCur := none }).tcvGo
  else if t.phase = 2 then
    match t.cur with
    | none => d
    | some s =>
      let e := d.get pgTCV TCV.STATUS_ENTRY
      match d.tcvTake s r with
      | (d, none) => d
      | (d, some x) =>
        let d := (d.tcvDeliver s e false x).tcvUpd fun t => { t with left := t.left - 1 }
        if d.tcv.cal = 1 then (d.tcvUpd fun t => { t with phase := 4, next := e }).tcvGo
        else if d.tcv.left ≠ 0 then d
        else if s.delay = 0 then d.tcvNext
        else
          let d := (d.tcvUpd fun t => { t with phase := 3 }).putb pgTCV TCV.STATUS_IN_DELAY true
          d.calTcvTry (decide (1850 ≤ s.delay))
  else d

/-- A supply dip ends while a conversion is in progress: its window has overlapped the dip (R462, R468, R579). -/
def Dev.tcvDip (d : Dev) : Dev :=
  if d.tcv.inj = 2 ∨ (d.tcv.phase = 2 ∧ d.tcv.inj = 0) then d.tcvUpd fun t => { t with dip := true } else d

/-- SCAN_DELAY_END: delay timers stop during a calibration; an injection in progress holds the next entry (R454, R459). -/
def scanDelayEndDo (d : Dev) : Dev := if d.tcv.phase = 3 ∧ d.tcv.cal ≠ 2 then d.tcvNext else d

/-- TCV_Q_HEAD_READ: the oldest entry is returned and removed (R463). -/
def tcvQRead (d : Dev) : Dev :=
  (d.emit (.readData (some (d.tcv.queue.headD 0x00040000)))).tcvUpd (fun t => { t with queue := t.queue.drop 1 }) |>.tcvShowQ

/-! ### CAL conversions (R475, R477, R483) -/

/-- CAL_CONVERSION, taken only while the converter is idle, otherwise waiting: VREFX, or the hub temperature, whose move beyond TCV_DT
since the last agreeing calibration is a trigger. -/
def calConversionDo (vref : Bool) (v : Nat) (d : Dev) : Dev :=
  let idle := d.tcvIdle
  let d := d.tcvUpd fun t => { t with calConv := !idle }
  if !idle then d
  else if vref then (d.put pgCAL CAL.VREF_CODE v).putb pgCAL CAL.VREF_NEW true
  else
    let d := d.put pgCAL CAL.TEMP v
    let move := (sOf 16 v - sOf 16 (d.get pgCAL CAL.TCV_LAST_TEMP)).natAbs
    d.when (d.flag pgCAL CAL.TCV_HAD && decide (16 * clampN 5 100 (d.get pgCAL CAL.CTL_TCV_DT) < 10 * move)) (·.calTcvTrigger false)

/-- Measurements that VREFX underlies are discarded (R485): a calibration of CAL's ends, gain measurements of the line dies
start again. -/
def Dev.vrefDiscard (d : Dev) : Dev :=
  let d := if d.tcv.cal ≠ 0 ∧ d.tcv.calOwn = true then d.tcvCalOver else d
  let d := (d.putb pgCAL CAL.STATUS_TCV_BUSY false).putb pgCAL CAL.TCV_WAIT false
  ([0, 1] : List Port).foldl (fun d p => d.convUpd p fun c => { c with meas := [], dacMeas := [] }) d

/-- VREF_CHECK: the last conversion of VREFX against the code where the bandgap puts it; a deviation beyond 2.0 % clears VREF_OK, after
4 checks within 1.5 % it returns (R483).  The spec gives the deviation shown no rounding. (DEDUCED: log 150) -/
def vrefCheckDo (band : Nat) (d : Dev) : Dev :=
  if !d.flag pgCAL CAL.CTL_VREF_CHK || !d.flag pgCAL CAL.VREF_NEW || band == 0 then d
  else
    let ok := d.flag pgCAL CAL.STATUS_VREF_OK
    let num : Int := ((d.get pgCAL CAL.VREF_CODE : Int) - band) * 10 ^ 4
    let dev := num / band + (if num % band = 0 then 0 else ((d.free % 2 : Nat) : Int))
    let within (lim : Nat) : Bool := decide (num.natAbs ≤ lim * band)
    let d := (d.used.putb pgCAL CAL.VREF_NEW false).put pgCAL CAL.VREF_DEV (sTo 16 (clampI (-32768) 32767 dev))
    let d := d.put pgCAL CAL.VREF_GOOD (if within 150 then min 4 (d.get pgCAL CAL.VREF_GOOD + 1) else 0)
    if within 200 = false ∧ ok = true then
      (((d.putb pgCAL CAL.STATUS_VREF_OK false).bump pgCAL CAL.VREF_BAD 1).ev pgCAL 8).vrefDiscard
    else if ok = false ∧ d.get pgCAL CAL.VREF_GOOD = 4 then
      ((d.putb pgCAL CAL.STATUS_VREF_OK true).ev pgCAL 9).calTcvTrigger false
    else d

/-- TCV_AGE: TCV_AGE minutes have passed since the last agreeing calibration, 0 acting as 1 (R475). -/
def tcvAgeDo (d : Dev) : Dev :=
  d.when (decide (clampN 1 60 (d.get pgCAL CAL.CTL_TCV_AGE) * 60000 ≤ d.get pgCAL CAL.TCV_AGE_MS)) (·.calTcvTrigger true)

/-! ### The commands -/

/-- REF_EN: a write of TCV_CTL. -/
def execRefEn (w : Word) (s : State) : Host.Outcome State Fault Refusal := s.run (tcvCtlWrite w)

def execRefReady (s : State) : Host.Outcome State Fault Refusal := s.run refReadyDo

/-- CAL: a write of TCV_CTL whose CAL bit is 1. -/
def execCal (w : Word) (s : State) : Host.Outcome State Fault Refusal := s.run (tcvCtlWrite (w ||| 0x10000#32))

def execCalDone (ofs1 ofs2 gain1 gain2 : BitVec 16) (s : State) : Host.Outcome State Fault Refusal :=
  s.run (calDoneDo ofs1.toInt ofs2.toInt gain1.toNat gain2.toNat)

/-- SCAN_EN: a write of TCV_CTL. -/
def execScanEn (w : Word) (s : State) : Host.Outcome State Fault Refusal := s.run (tcvCtlWrite w)

def execMuxSettled (s : State) : Host.Outcome State Fault Refusal := s.run muxSettledDo

def execTcvResult (raw : TcvRaw) (s : State) : Host.Outcome State Fault Refusal := s.run (tcvResultDo raw)

def execScanDelayEnd (s : State) : Host.Outcome State Fault Refusal := s.run scanDelayEndDo

/-- INJ_GO: a write of TCV_INJ whose GO bit is 1. -/
def execInjGo (w : Word) (s : State) : Host.Outcome State Fault Refusal := s.run (injGoDo (w ||| 0x10000#32))

def execTcvQHeadRead (s : State) : Host.Outcome State Fault Refusal := s.run tcvQRead

/-- Q_FLUSH: a write of TCV_CTL whose Q_FLUSH bit is 1. -/
def execQFlush (w : Word) (s : State) : Host.Outcome State Fault Refusal := s.run (tcvCtlWrite (w ||| 0x20000#32))

def execTcvAge (s : State) : Host.Outcome State Fault Refusal := s.run tcvAgeDo

/-- TCV_DEFER_EXP: a request that still waits starts anyway (R476). -/
def execTcvDeferExp (s : State) : Host.Outcome State Fault Refusal :=
  s.run fun d => if d.flag pgCAL CAL.TCV_WAIT then (d.ev pgCAL 4).calTcvGo else d

def execCalConversion (vref : Bool) (value : BitVec 16) (s : State) : Host.Outcome State Fault Refusal :=
  s.run (calConversionDo vref value.toNat)

def execVrefCheck (band : BitVec 16) (s : State) : Host.Outcome State Fault Refusal := s.run (vrefCheckDo band.toNat)

end Sys2Proof.Machine
end

