-- ==== Sys2Proof/Machine/Cal.lean ====
section
/-! DEFINITION.  Calibration orchestration: span windows and hanger hybrids (R471–R487). -/

namespace Sys2Proof.Machine

/-! ### Span windows (R473) -/

/-- The window of a port is open at the present receive span index. (DEDUCED: log 148) -/
def Dev.winOpen (d : Dev) (p : Port) : Bool :=
  let n := p.val
  let start := d.getLH pgCAL (CAL.WIN_START_LO_START.at n) (CAL.WIN_START_HI_START.at n)
  let per := d.get pgCAL (CAL.WIN_CTL_PERIOD.at n)
  let len := max 1 (d.get pgCAL (CAL.WIN_CTL_LEN.at n))
  let x := diff48 (d.rxSpan p) start
  d.flag pgCAL (CAL.WIN_CTL_EN.at n) && d.rxValid p && decide (0 ≤ x) &&
    decide ((if per = 0 then x.toNat else x.toNat % per) < len)

/-- A receive span boundary, or the loss of the counter: the window opens or closes (R473, R485). -/
def Dev.calWindow (d : Dev) (p : Port) : Dev :=
  let now := d.winOpen p
  let was := bitOf (d.get pgCAL CAL.STATUS_WIN_OPEN) p.val
  let d := d.putBit pgCAL CAL.STATUS_WIN_OPEN p.val now
  d.when (now && !was) fun d =>
    (d.bump pgCAL (if p = 0 then CAL.WIN_GRANTS0 else CAL.WIN_GRANTS1) 1).ev pgCAL p.val

/-! ### Hanger hybrids (R478–R480) -/

/-- A calibration of a port's hybrid starts, unless one is under way (R479). -/
def Dev.hgCalStart (d : Dev) (n : Nat) : Dev :=
  if (AMap.find? d.hgCal n).isSome then d
  else
    let x : HgCal := ⟨0, none, []⟩
    ({ d with hgCal := AMap.insert d.hgCal n x }).bump pgCAL CAL.HG_RUNS 1

/-- The state of a calibration replaced. -/
def Dev.hgCalSet (d : Dev) (n : Nat) (x : HgCal) : Dev := { d with hgCal := AMap.insert d.hgCal n x }

/-- The setting with the least echo, the lowest of equals. -/
def bestSetting (sums : List Int) : Nat :=
  (List.range sums.length).foldl (fun b i => if sums.getD i 0 < sums.getD b 0 then i else b) 0

/-- All 8 settings have agreed: a best one at least 3 dB better than the live one waits as NEXT; how an odd sum of the live
setting's two measurements rounds is open (R480). -/
def Dev.hgCalDone (d : Dev) (n : Nat) (sums : List Int) : Dev :=
  let d := { d with hgCal := AMap.erase d.hgCal n }
  let live := sums.getD (d.get pgCAL (CAL.HG_SEL.at n)) 0
  let b := bestSetting sums
  let d := d.put pgCAL (CAL.HG_ECHO.at n) (sTo 12 (live / 2 + (if live % 2 = 0 then 0 else ((d.free % 2 : Nat) : Int))))
  let d := (d.used.putb pgCAL (CAL.HG_SUSPECT.at n) false).put pgCAL (CAL.HG_AGE_MS.at n) 0 |>.ev pgCAL 5
  d.when (decide (sums.getD b 0 + 60 ≤ live)) fun d =>
    ((d.put pgCAL (CAL.HG_NEXT.at n) b).putb pgCAL (CAL.HG_PEND.at n) true).putBit pgCAL CAL.STATUS_HG_PEND n true

/-- HG_CAL_MEASUREMENT: each setting in turn, twice; two that differ by more than 0.5 dB fail the attempt, which is repeated
up to 3 times, then the port is suspect (R472, R478). (DEDUCED: log 149) -/
def hgMeasureDo (n : Nat) (e : Int) (d : Dev) : Dev :=
  match AMap.find? d.hgCal n with
  | none => d
  | some x =>
    match x.first with
    | none => d.hgCalSet n ⟨x.fails, some e, x.sums⟩
    | some a =>
      if (a - e).natAbs ≤ 5 then
        let sums := x.sums ++ [a + e]
        if sums.length < 8 then d.hgCalSet n ⟨x.fails, none, sums⟩ else d.hgCalDone n sums
      else
        let d := d.bump pgCAL CAL.HG_DISAGREE 1
        if x.fails < 3 then d.hgCalSet n ⟨x.fails + 1, none, []⟩
        else ({ d with hgCal := AMap.erase d.hgCal n }).putb pgCAL (CAL.HG_SUSPECT.at n) true |>.ev pgCAL 6

/-- HG_ECHO_TRIGGER: with HG_AUTO, the residual echo above THR, or AGE minutes, 0 acting as 1, since the last agreeing calibration
(R479). (DEDUCED: log 297) -/
def hgEchoDo (n : Nat) (echo : Int) (d : Dev) : Dev :=
  let loud := decide (sOf 12 (d.get pgCAL CAL.HG_CTL_THR) < echo)
  let old := decide (clampN 1 60 (d.get pgCAL CAL.HG_CTL_AGE) * 60000 ≤ d.get pgCAL (CAL.HG_AGE_MS.at n))
  d.when (d.flag pgCAL CAL.CTL_HG_AUTO && (loud || old)) (·.hgCalStart n)

/-- A write of CAL_CMD: TCV_START, HG_START, HG_APPLY (R475, R479, R480). -/
def calCmdWrite (w : Word) (d : Dev) : Dev :=
  let d := d.when (bitOf w.toNat 0) Dev.calTcvRequest
  let d := (List.range 4).foldl (fun d n => d.when (bitOf w.toNat (1 + n)) (·.hgCalStart n)) d
  (List.range 4).foldl (fun d n =>
    d.when (bitOf w.toNat (5 + n) && d.flag pgCAL (CAL.HG_PEND.at n) && decide (2 ≤ d.hgLink n)) (·.hgTrain n)) d

/-! ### The commands -/

/-- TCV_START: a write of CAL_CMD whose TCV_START bit is 1. -/
def execTcvStart (w : Word) (s : State) : Host.Outcome State Fault Refusal := s.run (calCmdWrite (w ||| 1#32))

/-- HG_START: a write of CAL_CMD. -/
def execHgStart (w : Word) (s : State) : Host.Outcome State Fault Refusal := s.run (calCmdWrite w)

/-- HG_APPLY: a write of CAL_CMD. -/
def execHgApply (w : Word) (s : State) : Host.Outcome State Fault Refusal := s.run (calCmdWrite w)

def execHgEchoTrigger (n : Fin 4) (echo : BitVec 12) (s : State) : Host.Outcome State Fault Refusal :=
  s.run (hgEchoDo n.val echo.toInt)

def execHgCalMeasurement (n : Fin 4) (echo : BitVec 12) (s : State) : Host.Outcome State Fault Refusal :=
  s.run (hgMeasureDo n.val echo.toInt)

end Sys2Proof.Machine
end

