-- ==== Sys2Proof/Machine/Mgmt.lean ====
section
/-! DEFINITION.  The management complex: cores, pier engines, the recipe checker and the host rings (R488–R519). -/

namespace Sys2Proof.Machine

/-! ### Management cores (R488–R490) -/

/-- CORE_FAULT: a core halts (R489). -/
def coreFaultDo (core : Nat) (d : Dev) : Dev :=
  if bitOf (d.get pgMGMT MGMT.STATUS_CORE_RUN) core then
    let d := (d.putBit pgMGMT MGMT.STATUS_CORE_RUN core false).putBit pgMGMT MGMT.STATUS_CORE_FAULT core true
    (d.bump pgMGMT MGMT.CORE_FAULTS 1).ev pgMGMT core
  else d

/-- A write of MGMT_HEARTBEAT: a change of the value sets RT_ALIVE, with RT_UP (R490). -/
def heartbeatWrite (w : Word) (d : Dev) : Dev :=
  let changed := d.get pgMGMT MGMT.HEARTBEAT_COUNT != w.toNat
  let up := changed && !d.flag pgMGMT MGMT.STATUS_RT_ALIVE
  ((d.putW pgMGMT MGMT.HEARTBEAT_COUNT w).when changed (·.putb pgMGMT MGMT.STATUS_RT_ALIVE true)).when up (·.ev pgMGMT 5)

/-- RT_DOWN: the heartbeat stood still for HB_TMO ms (R490). -/
def rtDownDo (d : Dev) : Dev :=
  if d.flag pgMGMT MGMT.STATUS_RT_ALIVE then
    ((d.putb pgMGMT MGMT.STATUS_RT_ALIVE false).bump pgMGMT MGMT.HB_MISSES 1).ev pgMGMT 4
  else d

/-! ### The command queue of the runtime (R503, R504) -/

/-- Consumed commands that are not executed complete when they are first in order. -/
def ringFlush : List RingCmd → Dev → Dev
  | [], d => d.mgmtUpd fun m => { m with cmds := [] }
  | c :: t, d =>
    match c.preset with
    | some r => ringFlush t ((d.mgmtUpd fun m => { m with cmds := t }).ntfPush ⟨1, c.seq, r, []⟩)
    | none => d.mgmtUpd fun m => { m with cmds := c :: t }

/-- The command first in order completes with a result and data (R503, R505). -/
def Dev.ringComplete (d : Dev) (result : Nat) (data : List Nat) : Dev :=
  match d.mgmt.cmds with
  | [] => d
  | c :: t => ringFlush t ((d.mgmtUpd fun m => { m with cmds := t }).ntfPush ⟨1, c.seq, result, data⟩)

/-- The runtime executes the command that is first in order, when it is of the given opcode (R503). (DEDUCED: log 156) -/
def Dev.ringExec (d : Dev) (op : Nat) (f : List Nat → Dev → Dev) : Dev :=
  match d.mgmt.cmds with
  | [] => d
  | c :: _ => if c.op = op && !c.started then f c.payload d else d

/-- Two little-endian bytes of a payload. -/
def pay16 (b : List Nat) (o : Nat) : Nat := b.getD o 0 + 256 * b.getD (o + 1) 0

/-- Four little-endian bytes of a payload. -/
def pay32 (b : List Nat) (o : Nat) : Nat := pay16 b o + 2 ^ 16 * pay16 b (o + 2)

/-! ### Pier engines (R491–R498) -/

/-- The page of an engine. -/
def engPage (k : Nat) : Nat := pgPIER (k / 16)

/-- A LOOP_START that waits completes once its engine is no longer in CHECK: resulting STATE and FAULT (R504). (DEDUCED: log 152) -/
def Dev.loopEnd (d : Dev) (k : Nat) : Dev :=
  match d.mgmt.cmds with
  | [] => d
  | c :: _ =>
    if c.started && pay16 c.payload 0 == k && d.engState k != 2 then
      d.ringComplete (if d.engState k = 3 then 0 else 3) [d.engState k, d.get (engPage k) (PIER.ENG_FAULT.at (k % 16))]
    else d

/-- An engine's state set: PIER STATUS.RUN follows, an engine that leaves CHECK leaves the checker, a change of the RUN or
FAULT map gives a LOOP notification (R493, R498, R505, R507, R513). -/
def Dev.engSet (d : Dev) (k st : Nat) : Dev :=
  let was := d.engState k
  let d := d.put (engPage k) (PIER.ENG_STATE.at (k % 16)) st
  let d := d.putBit (engPage k) PIER.STATUS_RUN (k % 16) (st == 3)
  let d := d.mgmtUpd fun m => { m with checks := if st = 2 then m.checks else m.checks.filter (· != k) }
  let d := d.putb pgMGMT MGMT.STATUS_CHECK_BUSY (d.mgmt.checks != [])
  (d.when ((st == 3) != (was == 3) || (st == 4) != (was == 4)) (·.notify 4 k)).loopEnd k

/-- A field of an engine's words. -/
def Dev.engPut (d : Dev) (k : Nat) (f : Fld) (v : Nat) : Dev := d.put (engPage k) (f.at (k % 16)) v

/-- The checks are skipped: debug scope 1 or 2 is open (R370, R493). -/
def Dev.checksOff (d : Dev) : Bool := d.get pgKSMB KSMB.DEBUG_SCOPE == 1 || d.get pgKSMB KSMB.DEBUG_SCOPE == 2

/-- An engine begins to run at code offset 0 (R493). -/
def Dev.engRun (d : Dev) (k version : Nat) (unchecked : Bool) : Dev :=
  let d := (d.engPut k PIER.ENG1_VERSION version).engPut k PIER.ENG_UNCHECKED (b2n unchecked)
  (d.engPut k PIER.ENG_FAULT 0).engSet k 3

/-- The directory entry with an ID (R497). -/
def Dev.recipe (d : Dev) (id : Nat) : Option Recipe := d.mgmt.recipes.find? (·.id == id)

/-- An engine in CHECK that runs unchecked under a debug unlock; the version is that of the directory entry named, if any. -/
def Dev.engSkip (d : Dev) (k : Nat) : Dev :=
  match d.recipe (d.get (engPage k) (PIER.ENG1_RECIPE.at (k % 16))) with
  | some r => d.engRun k r.version true
  | none => d.used.engRun k d.free true

/-- START: HALT and FAULT enter CHECK, other states ignore it (R493, R498, R513). (DEDUCED: log 158) -/
def Dev.engStart (d : Dev) (k : Nat) : Dev :=
  if d.engState k = 1 || d.engState k = 4 then
    let d := (d.engPut k PIER.ENG_FAULT 0).bump (engPage k) PIER.STARTS 1
    let d := (d.mgmtUpd fun m => { m with checks := m.checks ++ [k] }).engSet k 2
    if d.checksOff then d.engSkip k else d
  else d

/-- HALT: an engine in RUN stops at a code offset (R493). -/
def Dev.engHalt (d : Dev) (k pc : Nat) : Dev :=
  if d.engState k = 3 then (d.engPut k PIER.ENG2_PC pc).engSet k 1 else d

/-- An engine's event queue emptied. -/
def Dev.evqEmpty (d : Dev) (k : Nat) : Dev := { d with evt := { d.evt with evq := AMap.erase d.evt.evq k } }

/-- RESET: an engine of a powered cluster is in HALT with an empty queue; its data half is kept (R493). -/
def Dev.engReset (d : Dev) (k pc : Nat) : Dev :=
  if d.flag (engPage k) PIER.CLUSTER_POWERED then
    let d := d.when (d.engState k == 3) (·.engPut k PIER.ENG2_PC pc)
    ((d.evqEmpty k).engPut k PIER.ENG_FAULT 0).engSet k 1
  else d

/-- A write of PIER_CMD (R493, R518): START, HALT and RESET in that order where a write holds several. (DEDUCED: log 159) -/
def pierCmdWrite (c : Nat) (w : Word) (pc : Nat) (d : Dev) : Dev :=
  let k := 16 * c + PIER.CMD_ENG.ofWord w.toNat
  let d := d.when (PIER.CMD_START.ofWord w.toNat != 0) (·.engStart k)
  let d := d.when (PIER.CMD_HALT.ofWord w.toNat != 0) (·.engHalt k pc)
  d.when (PIER.CMD_RESET.ofWord w.toNat != 0) (·.engReset k pc)

/-- Power-up of a cluster: every engine in HALT with an empty queue (R493). (DEDUCED: log 165) -/
def clusterUp (c : Nat) (d : Dev) : Dev :=
  (List.range 16).foldl (fun d i => (d.evqEmpty (16 * c + i)).engSet (16 * c + i) 1) (d.putb (pgPIER c) PIER.CLUSTER_POWERED true)

/-- A cluster whose die is gated: every engine in OFF, a check abandoned without counting, its queue discarded (R493, R513). -/
def clusterDown (c : Nat) (d : Dev) : Dev :=
  (List.range 16).foldl (fun d i => (d.evqEmpty (16 * c + i)).engSet (16 * c + i) 0) (d.putb (pgPIER c) PIER.CLUSTER_POWERED false)

/-- The clusters of a line die powered up (R491). -/
def dieClustersUp (p : Port) (d : Dev) : Dev := (List.range 5).foldl (fun d i => clusterUp (5 * p.val + i) d) d

/-- The clusters of a line die gated (R491). -/
def dieClustersDown (p : Port) (d : Dev) : Dev := (List.range 5).foldl (fun d i => clusterDown (5 * p.val + i) d) d

/-- The code half of an engine (R33, R492). -/
def Dev.codeHalf (d : Dev) (k : Nat) : List Nat := (memBytes d.memFixed (memBase 3 + 0x8000 * k) 0x4000).map (·.toNat)

/-- RECIPE_CHECK_DONE: the engine whose turn it is runs, or halts with DIGEST (R493, R498). (DEDUCED: log 160) -/
def recipeCheckDo (d : Dev) : Dev :=
  match d.mgmt.checks with
  | [] => d
  | k :: _ =>
    if d.checksOff then d.engSkip k
    else
      let r := (d.recipe (d.get (engPage k) (PIER.ENG1_RECIPE.at (k % 16)))).filter fun r =>
        r.digest == Config.shake256 (d.codeHalf k) 32
      let d := ((d.bump pgMGMT MGMT.CHECKS 1).put pgMGMT MGMT.CHECK_LAST_ENGINE k).putb pgMGMT MGMT.CHECK_LAST_PASS r.isSome
      match r with
      | some r => d.engRun k r.version false
      | none => (((d.bump pgMGMT MGMT.CHECK_FAIL 1).ev pgMGMT 6).engPut k PIER.ENG_FAULT 4).engSet k 1

/-- The code of a fault (R518). -/
def engFaultCode : EngineFault → Nat
  | .wdt => 1
  | .bus => 2
  | .illegal => 3
  | .memecc => 5

/-- PIER_FAULT: a running engine enters FAULT; with WDT = 0 it has no watchdog (R493, R494, R518). -/
def pierFaultDo (k : Nat) (cause : EngineFault) (pc : Nat) (d : Dev) : Dev :=
  if d.engState k = 3 ∧ (cause = .wdt → d.get (engPage k) PIER.CTL_WDT ≠ 0) then
    let d := (d.engPut k PIER.ENG_FAULT (engFaultCode cause)).engPut k PIER.ENG2_PC pc
    let d := (d.putBit (engPage k) PIER.FAULT_ENG (k % 16) true).bump (engPage k) PIER.FAULTS 1
    let d := d.when (cause == .wdt) (·.bump (engPage k) PIER.WDT 1)
    (d.ev (engPage k) 0).engSet k 4
  else d

/-! ### The command ring (R500–R504, R508) -/

/-- STATUS.RUN: EN is set and the device fetches. -/
def Dev.ringShow (d : Dev) : Dev :=
  d.putb pgMBX MBX.STATUS_RUN (d.flag pgMBX MBX.CTL_EN && !d.flag pgMBX MBX.STATUS_CMD_STALL &&
    !d.flag pgMBX MBX.STATUS_RESYNC_BUSY)

/-- Fetching stops with CMD_STALL (R502). -/
def Dev.ringStall (d : Dev) : Dev :=
  (((d.putb pgMBX MBX.STATUS_CMD_STALL true).bump pgMBX MBX.SEQ_ERR 1).ev pgMBX 1).ringShow

/-- A doorbell value more than 256 ahead of CONSUMED, or behind it, stops fetching; while CMD_STALL is 1 it is only
recorded (R502, R513). -/
def Dev.doorbellCheck (d : Dev) : Dev :=
  let n := diff16 (d.get pgMBX MBX.CMD_DB_TAIL) (d.get pgMBX MBX.CMD_CONSUMED_SEQ)
  d.when (!d.flag pgMBX MBX.STATUS_CMD_STALL && (decide (n < 0) || decide (256 < n))) (·.ringStall)

/-- No doorbell has come since PERST_N or a SOFT_RST: what was published before is not fetched (R511). (DEDUCED: log 258) -/
def MBX.DB_OLD : Fld := hid 0 1 0

/-- MBX_CMD_DB (R502, R511). -/
def cmdDbWrite (w : Word) (d : Dev) : Dev := ((d.putW pgMBX MBX.CMD_DB_TAIL w).putb pgMBX MBX.DB_OLD false).doorbellCheck

/-- A ring address. -/
def Dev.ringBase (d : Dev) (lo hi : Fld) : Nat := d.get pgMBX lo * 2 ^ lo.lo + 2 ^ 32 * d.get pgMBX hi

/-- The head block is written while EN is 1; a PCIe error leaves it for a retry (R508, R512). -/
def Dev.headWrite (d : Dev) (err : Bool) : Dev :=
  if d.flag pgMBX MBX.CTL_EN then
    if err then d.mgmtUpd fun m => { m with retry := 3 }
    else
      let f (x : Fld) : List Nat := (beBytes 2 (d.get pgMBX x)).reverse
      d.emit (.hostWrite (d.ringBase MBX.HEAD_BASE_LO_BASE MBX.HEAD_BASE_HI_BASE)
        (f MBX.CMD_CONSUMED_SEQ ++ f MBX.CMD_DONE_SEQ ++ f MBX.NTF_WRITTEN_SEQ ++ f MBX.RESYNC_STAT_COUNT ++ List.replicate 8 0))
  else d

/-- The device fetches: EN, no stall, no RESYNC, no failed transfer waiting, the runtime alive, a command published, and a
place in the backlog for one more completion (R490, R502, R507, R509, R511, R513). (DEDUCED: log 154) -/
def Dev.fetching (d : Dev) : Bool :=
  d.flag pgMBX MBX.STATUS_RUN && !d.flag pgMBX MBX.DB_OLD && d.mgmt.retry == 0 && d.flag pgMGMT MGMT.STATUS_RT_ALIVE && !d.backlogFull &&
    decide (0 < diff16 (d.get pgMBX MBX.CMD_DB_TAIL) (d.get pgMBX MBX.CMD_CONSUMED_SEQ))

/-- BADOP or BADLEN for a command that is not executed (R504). -/
def cmdPreset (op len : Nat) : Option Nat :=
  let fits (c : Bool) : Option Nat := if c then none else some 2
  match op with
  | 1 => fits (len == 0)
  | 2 => fits (len % 8 == 0 && len ≤ 112)
  | 3 => fits (len % 4 == 0 && len ≤ 24)
  | 4 => fits (len == 4)
  | 5 => fits (len == 2)
  | 6 => fits (len == 8)
  | _ => some 1

/-- A fetched entry is checked; it stalls the ring or is consumed and handed to the runtime (R502). -/
def Dev.consume (d : Dev) (entry : List Nat) (headErr : Bool) : Dev :=
  let q := (d.get pgMBX MBX.CMD_CONSUMED_SEQ + 1) % 2 ^ 16
  if pay16 entry 0 ≠ q then d.ringStall
  else
    let op := pay16 entry 2
    let len := pay16 entry 4
    let c : RingCmd := ⟨q, op, (entry.drop 8).take len, cmdPreset op len, false⟩
    let d := (d.put pgMBX MBX.CMD_CONSUMED_SEQ q).bump pgMBX MBX.CMDS 1
    (ringFlush (d.mgmt.cmds ++ [c]) d).headWrite headErr

/-- CMD_FETCH_DONE (R502, R512). -/
def fetchDo (entry : Option (List Byte)) (headErr : Bool) (d : Dev) : Dev :=
  if d.fetching then
    match entry with
    | none => d.mgmtUpd fun m => { m with retry := 1 }
    | some e => d.consume (e.map (·.toNat)) headErr
  else d

/-- NOP completes with no effect (R504). -/
def nopDo (d : Dev) : Dev := d.ringExec 1 fun _ d => d.ringComplete 0 []

/-- LOOP_START: the recipe ID is named and the engine started; the completion carries the STATE and FAULT it comes to.  An
engine number beyond 191 starts nothing, with a result the spec does not name (R504, R513). (DEDUCED: log 155) -/
def loopStartDo (d : Dev) : Dev := d.ringExec 4 fun b d =>
  let k := pay16 b 0
  if 192 ≤ k then d.used.ringComplete (d.free % 2 ^ 16) []
  else
    let d := d.mgmtUpd fun m => { m with cmds := match m.cmds with | [] => [] | c :: t => { c with started := true } :: t }
    ((d.engPut k PIER.ENG1_RECIPE (pay16 b 2)).engStart k).loopEnd k

/-- LOOP_STOP (R504). -/
def loopStopDo (pc : Nat) (d : Dev) : Dev := d.ringExec 5 fun b d =>
  let k := pay16 b 0
  if 192 ≤ k then d.used.ringComplete (d.free % 2 ^ 16) []
  else let d := d.engHalt k pc; d.ringComplete 0 [d.engState k]

/-- NTF_EVENTS: 36 group bits (R504). -/
def ntfEventsDo (d : Dev) : Dev := d.ringExec 6 fun b d =>
  (d.mgmtUpd fun m => { m with groups := (pay32 b 0 + 2 ^ 32 * pay32 b 4) % 2 ^ 36 }).ringComplete 0 []

/-! ### The notification ring (R505–R508, R515) -/

/-- The bytes of a notification with its sequence number (R505). (DEDUCED: log 157) -/
def Ntf.bytes (n : Ntf) (seq : Nat) : List Nat :=
  let f (v : Nat) : List Nat := (beBytes 2 v).reverse
  (f seq ++ f n.typ ++ f n.ref ++ f n.result ++ n.data ++ List.replicate 24 0).take 32

/-- The NTF event, at least COALESCE µs after the one before (R514, R515). -/
def Dev.ntfEvent (d : Dev) : Dev :=
  if d.mgmt.ntfNext ≤ d.ticks then
    (d.mgmtUpd fun m =>
      { m with ntfHeld := false, ntfNext := d.ticks + cdiv (d.get pgMBX MBX.CTL_COALESCE * 5625) 4 }).ev pgMBX 0
  else d.mgmtUpd fun m => { m with ntfHeld := true }

/-- A held NTF event comes once COALESCE has passed. (DEDUCED: log 163) -/
def Dev.ntfTick (d : Dev) : Dev := d.when d.mgmt.ntfHeld (·.ntfEvent)

/-- The notification next to be written: an OVERFLOW when some were discarded, else the first that waits (R507).  A number
discarded that 16 bits do not hold has no stated form. (DEDUCED: log 151) -/
def Dev.ntfNow (d : Dev) : Option Ntf :=
  if d.mgmt.lost = 0 then d.mgmt.ntf.head?
  else some ⟨3, (if d.mgmt.lost < 2 ^ 16 then d.mgmt.lost else d.free % 2 ^ 16), 0, []⟩

/-- The entry has been written: WRITTEN and DONE, then the head block (R503, R506, R508). -/
def Dev.ntfWritten (d : Dev) (n : Ntf) (headErr : Bool) : Dev :=
  let q := (d.get pgMBX MBX.NTF_WRITTEN_SEQ + 1) % 2 ^ 16
  let a := d.ringBase MBX.NTF_BASE_LO_BASE MBX.NTF_BASE_HI_BASE + 32 * (q % 1024)
  let d := d.emit (.hostWrite a (n.bytes q))
  let d := if d.mgmt.lost = 0 then d.mgmtUpd fun m => { m with ntf := m.ntf.drop 1 }
    else d.used.mgmtUpd fun m => { m with lost := 0 }
  let d := (d.put pgMBX MBX.NTF_WRITTEN_SEQ q).bump pgMBX MBX.NTFS 1
  let d := (d.when (n.typ == 1) (·.put pgMBX MBX.CMD_DONE_SEQ n.ref)).backlogShow
  d.ntfEvent.headWrite headErr

/-- NTF: the next notification is written when the ring has room (R506, R512). -/
def ntfDo (err : RingErr) (d : Dev) : Dev :=
  match d.ntfNow with
  | none => d
  | some n =>
    if d.ntfRoom = 0 || d.mgmt.retry != 0 then d
    else match err with
      | .none => d.ntfWritten n false
      | .entry => d.mgmtUpd fun m => { m with retry := 2 }
      | .head => d.ntfWritten n true

/-- MBX_NTF_ACK (R506). -/
def ntfAckWrite (w : Word) (d : Dev) : Dev := (d.putW pgMBX MBX.NTF_ACK_SEQ w).backlogShow

/-- A write of MBX_CTL (R511, R514). -/
def mbxCtlWrite (w : Word) (d : Dev) : Dev := (d.putWs pgMBX [MBX.CTL_EN, MBX.CTL_COALESCE] w).ringShow.backlogShow

/-- RING_RETRY: the transfer is done, or EN is cleared with RING_ERR (R512). (DEDUCED: log 162) -/
def ringRetryDo (ok : Bool) (entry : List Nat) (headErr : Bool) (d : Dev) : Dev :=
  let r := d.mgmt.retry
  let d := d.mgmtUpd fun m => { m with retry := 0 }
  if r = 0 then d
  else if !ok then
    (((d.putb pgMBX MBX.CTL_EN false).bump pgMBX MBX.RING_ERR 1).ev pgMBX 6).ringShow.backlogShow
  else if r = 1 then d.when (d.flag pgMBX MBX.STATUS_RUN) (·.consume entry headErr)
  else if r = 2 then
    match d.ntfNow with
    | none => d
    | some n => if d.flag pgMBX MBX.CTL_EN then d.ntfWritten n headErr else d
  else d.headWrite false

/-! ### RESYNC (R509–R511) -/

/-- A write of MBX_RESYNC_CMD (R509, R510). -/
def resyncWrite (w : Word) (d : Dev) : Dev :=
  if MBX.RESYNC_CMD_GO.ofWord w.toNat = 0 then d
  else if d.flag pgMBX MBX.STATUS_RESYNC_BUSY then d.put pgMBX MBX.RESYNC_STAT_RESULT 3
  else
    let a := d.ringBase MBX.RESYNC_ADDR_LO_ADDR MBX.RESYNC_ADDR_HI_ADDR
    ((d.mgmtUpd fun m => { m with resync := some a }).putb pgMBX MBX.STATUS_RESYNC_BUSY true).ringShow

/-- The sources with a property as 144 bytes, bit n of the string being global source n (R509). -/
def srcBytes (f : Nat → Bool) : List Nat :=
  (List.range 144).map fun i => (List.range 8).foldl (fun v j => v + (if f (8 * i + j) then 2 ^ j else 0)) 0

/-- The global numbers of the sources of a map of local sources. -/
def globals (m : FMap) : List Nat := m.map fun e => globalSrc e.1

/-- The map of the engines of a cluster in a state. -/
def Dev.engMap (d : Dev) (c st : Nat) : Nat :=
  (List.range 16).foldl (fun v i => v + (if d.engState (16 * c + i) = st then 2 ^ i else 0)) 0

/-- The snapshot of RESYNC (R509). (DEDUCED: log 161) -/
def Dev.snapshot (d : Dev) : List Nat :=
  let f (n v : Nat) : List Nat := (beBytes n v).reverse
  let st := globals d.evt.sticky
  let un := globals d.evt.unmasked
  let maps (s : Nat) : List Nat := ((List.range 12).map fun c => f 2 (d.engMap c s)).flatten
  f 2 (d.get pgMBX MBX.CMD_CONSUMED_SEQ) ++ f 2 (d.get pgMBX MBX.CMD_DONE_SEQ) ++ f 2 (d.get pgMBX MBX.NTF_WRITTEN_SEQ) ++
    f 2 (d.get pgMBX MBX.RESYNC_STAT_COUNT) ++ f 8 (d.tbNs 0) ++ srcBytes (fun n => st.contains n) ++
    srcBytes (fun n => !un.contains n) ++ maps 3 ++ maps 4 ++
    [d.get pgMGMT MGMT.STATUS_CORE_RUN + 16 * d.get pgMGMT MGMT.STATUS_CORE_FAULT] ++ List.replicate 3743 0

/-- A command is in execution: a LOOP_START waits for its check. -/
def Dev.executing (d : Dev) : Bool := match d.mgmt.cmds with | [] => false | c :: _ => c.started

/-- RESYNC_DONE: the snapshot is in the buffer and fetching resumes, or the address drew a PCIe error (R509, R510).  While a
command is in execution the snapshot is not yet taken. -/
def resyncDoneDo (ok : Bool) (d : Dev) : Dev :=
  match d.mgmt.resync with
  | none => d
  | some a =>
    if d.executing then d
    else
      let snap := d.snapshot
      let d := (d.mgmtUpd fun m => { m with resync := none }).putb pgMBX MBX.STATUS_RESYNC_BUSY false
      if ok then
        let d := (d.emit (.hostWrite a snap)).putb pgMBX MBX.STATUS_CMD_STALL false
        let d := (d.put pgMBX MBX.RESYNC_STAT_RESULT 1).bump pgMBX MBX.RESYNC_STAT_COUNT 1
        ((d.bump pgMBX MBX.RESYNCS 1).ev pgMBX 4).ringShow.doorbellCheck
      else ((d.put pgMBX MBX.RESYNC_STAT_RESULT 2).bump pgMBX MBX.RING_ERR 1).ringShow

/-- PERST_N and CTL.SOFT_RST of the MBX page: EN and the three bases clear, the heads and the backlog are kept (R511). -/
def mbxPerst (d : Dev) : Dev :=
  let d := [MBX.CTL_EN, MBX.CMD_BASE_LO_BASE, MBX.CMD_BASE_HI_BASE, MBX.NTF_BASE_LO_BASE, MBX.NTF_BASE_HI_BASE,
    MBX.HEAD_BASE_LO_BASE, MBX.HEAD_BASE_HI_BASE].foldl (fun d f => d.put pgMBX f 0) d
  (((d.putb pgMBX MBX.DB_OLD true).putb pgMBX MBX.STAT_PERST_SEEN true).ev pgMBX 5).ringShow.backlogShow

/-! ### Meanings -/

def execCoreFault (core : Fin 4) (s : State) : Host.Outcome State Fault Refusal := s.run (coreFaultDo core.val)

def execMgmtHeartbeat (w : Word) (s : State) : Host.Outcome State Fault Refusal := s.run (heartbeatWrite w)

def execRtDown (s : State) : Host.Outcome State Fault Refusal := s.run rtDownDo

def execPierStart (cluster : Fin 12) (w : Word) (pc : BitVec 14) (s : State) : Host.Outcome State Fault Refusal :=
  s.run (pierCmdWrite cluster.val (w ||| 0x100) pc.toNat)

def execPierHalt (cluster : Fin 12) (w : Word) (pc : BitVec 14) (s : State) : Host.Outcome State Fault Refusal :=
  s.run (pierCmdWrite cluster.val (w ||| 0x200) pc.toNat)

def execPierReset (cluster : Fin 12) (w : Word) (pc : BitVec 14) (s : State) : Host.Outcome State Fault Refusal :=
  s.run (pierCmdWrite cluster.val (w ||| 0x400) pc.toNat)

def execRecipeCheckDone (s : State) : Host.Outcome State Fault Refusal := s.run recipeCheckDo

def execPierFault (engine : Fin 192) (cause : EngineFault) (pc : BitVec 14) (s : State) : Host.Outcome State Fault Refusal :=
  s.run (pierFaultDo engine.val cause pc.toNat)

def execMbxCmdDb (w : Word) (s : State) : Host.Outcome State Fault Refusal := s.run (cmdDbWrite w)

def execCmdFetchDone (entry : Option (List Byte)) (headErr : Bool) (s : State) : Host.Outcome State Fault Refusal :=
  s.run (fetchDo entry headErr)

def execNop (s : State) : Host.Outcome State Fault Refusal := s.run nopDo

def execLoopStart (s : State) : Host.Outcome State Fault Refusal := s.run loopStartDo

def execLoopStop (pc : BitVec 14) (s : State) : Host.Outcome State Fault Refusal := s.run (loopStopDo pc.toNat)

def execNtfEvents (s : State) : Host.Outcome State Fault Refusal := s.run ntfEventsDo

def execNtf (err : RingErr) (s : State) : Host.Outcome State Fault Refusal := s.run (ntfDo err)

def execMbxNtfAck (w : Word) (s : State) : Host.Outcome State Fault Refusal := s.run (ntfAckWrite w)

def execResyncGo (w : Word) (s : State) : Host.Outcome State Fault Refusal := s.run (resyncWrite (w ||| 1))

def execResyncDone (ok : Bool) (s : State) : Host.Outcome State Fault Refusal := s.run (resyncDoneDo ok)

def execMbxEn (w : Word) (s : State) : Host.Outcome State Fault Refusal := s.run (mbxCtlWrite (w ||| 1))

def execRingRetry (ok : Bool) (entry : List Byte) (headErr : Bool) (s : State) : Host.Outcome State Fault Refusal :=
  s.run (ringRetryDo ok (entry.map (·.toNat)) headErr)

end Sys2Proof.Machine
end

