-- ==== Sys2Proof/Machine/Reset.lean ====
section
/-! DEFINITION.  Returning fields and pages to their reset values (R575, R626). -/

namespace Sys2Proof.Machine

/-- The live and pending fields whose keys meet a condition return to their reset values. -/
def Dev.wipe (d : Dev) (f : Nat → Bool) : Dev :=
  { d with regs := d.regs.filter fun e => !f e.1, pend := d.pend.filter fun e => !f e.1 }

/-- The event registers of the pages that meet a condition return to reset: sticky bits clear, every source masked, EVT_FIRST
and EVT_COUNT zero. -/
def Dev.wipeEvents (d : Dev) (f : Nat → Bool) : Dev :=
  let e := d.evt
  { d with evt := { e with
      sticky := e.sticky.filter fun x => !f (x.1 / 64)
      unmasked := e.unmasked.filter fun x => !f (x.1 / 64)
      count := e.count.filter fun x => !f x.1
      first := e.first.filter fun x => !f x.1 } }

/-- An armed commit of a page is cancelled: ARM clears, STATE = IDLE, RESULT = CANCEL, the sides taken as they stood (R62,
R67, R71, R626). -/
def Dev.commitCancel (d : Dev) (pg : Nat) : Dev :=
  match AMap.find? d.commits pg with
  | none => d
  | some _ =>
    let d := { d with commits := AMap.erase d.commits pg }
    ((d.put pg COMMON.COMMIT_HI_ARM 0).put pg COMMON.COMMIT_STAT_STATE 0).put pg COMMON.COMMIT_STAT_RESULT 5

/-- The access types that SOFT_RST returns to reset (R626). -/
def softAcc (a : Option Acc) : Bool :=
  match a with
  | some .rw | some .rwst | some .rwsr | some .w1c | some .w1s => true
  | _ => false

/-- A key of a page that SOFT_RST returns to reset; EVT0 keeps the MSI-X table (R626). -/
def softKey (pg k : Nat) : Bool :=
  keyPage k == pg && softAcc (accOf k) && !(pg == pgEVT0 && decide (0x700 ≤ keyOff k))

/-- SOFT_RST as R626 lays it down. (DEDUCED: log 19) -/
def Dev.softReset (d : Dev) (pg : Nat) : Dev :=
  ((d.commitCancel pg).wipe (softKey pg)).wipeEvents (· == pg)

end Sys2Proof.Machine
end

