-- ==== Sys2Proof/Machine/Mem.lean ====
section
/-! DEFINITION.  Memory integrity and the truss links (R520–R546). -/

namespace Sys2Proof.Machine

/-! ### Model fields -/

/-- QMC_LINK_ERR at the end of the last second (R527). -/
def QMC.LINK_LAST : Fld := hid 0 48 0
/-- TRS_CRC_ERR at the end of the last second (R543). -/
def TRS.CRC_LAST : Fld := hid 0 48 0
/-- Failures in a row of the flit awaited on module `m` (R536). -/
def TRS.streak (m : Nat) : Fld := hid (8 + 4 * m) 3 0
/-- The line die has been gated or reset since its retained trims were last loaded (R14, R586). -/
def LDSYS.RESTORE : Fld := hid 8 1 0

/-! ### Windows (R33, R520, R523) -/

/-- The memory and byte offset within it that a BAR2 offset names (R33). -/
def Dev.bar2Place (d : Dev) (off : Nat) : Option (Nat × Nat) :=
  if off < 0x1000000 then some (0, off)
  else if off < 0x2000000 then some (1, off - 0x1000000)
  else if off < 0x3000000 then some (2, d.get pgSYS SYS.SRAM_WIN_SLICE * 2 ^ 24 + (off - 0x2000000))
  else if off < 0x3600000 then some (3, off - 0x3000000)
  else if 0x3800000 ≤ off ∧ off < 0x38F0000 then some (4, off - 0x3800000)
  else if 0x3900000 ≤ off ∧ off < 0x39F0000 then some (5, off - 0x3900000)
  else none

/-- The line die that holds a byte of a memory. -/
def memDie (m a : Nat) : Option Port :=
  if m = 4 then some 0 else if m = 5 then some 1
  else if m = 3 then (if a < 80 * 0x8000 then some 0 else if a < 160 * 0x8000 then some 1 else none)
  else none

/-- The fill of a memory is complete (R521–R523). -/
def Dev.filled (d : Dev) (m a : Nat) : Bool :=
  match memDie m a with
  | some p => d.flag (pgLDSYS p) LDSYS.STATUS_FILL_DONE
  | none => if m < 2 then d.flag (0x20 + m) QMC.STATUS_FILL_DONE else d.flag pgECC ECC.STATUS_FILL_DONE

/-- The memory is a QDR channel whose training failed (R539). -/
def Dev.qmOffline (d : Dev) (m : Nat) : Bool := decide (m < 2) && d.flag (0x20 + m) QMC.STATUS_OFFLINE

/-- A demand write of bytes of a word: the memory's own rule decides (R148, R492, R525). -/
def Dev.demandWrite (d : Dev) (m w mask data req : Nat) : Dev :=
  if mask = 0 then d
  else match memCtrl m with
  | some c => d.ctrlWrite c w mask data req
  | none =>
    if m = 3 then
      let k := w / 4096
      let busy := d.engState k == 2 || d.engState k == 3
      if w % 4096 < 2048 ∧ busy = true then d.bump (engPage k) PIER.CODE_WR_DROP 1 else d.directWrite m w mask data req
    else d.tripPut (if m = 4 then 0 else 1) w mask data req

/-- BAR2_READ: a fence for every merge entry, then the word, a completer abort when it is uncorrectable (R33, R34, R523, R525,
R526, R539). -/
def bar2ReadDo (off : Nat) (wide : Bool) (x : Upset) (d : Dev) : Dev :=
  match d.bar2Place off with
  | none => d.emit (.readData (some 0))
  | some (m, a) =>
    let d := d.drainIf fun _ => true
    if !d.filled m a && !d.qmOffline m then (d.ev pgECC 1).emit (.readData (some 0))
    else if d.qmOffline m then d.emit (.readData none)
    else
      let r := d.demandRead m (a / 8) x 0
      r.1.emit (.readData (r.2.1.map fun v => if wide then v else bitsOf v (if a % 8 < 4 then 0 else 32) 32))

/-- BAR2_WRITE (R33, R353, R523, R525, R528, R539). -/
def bar2WriteDo (off be data : Nat) (d : Dev) : Dev :=
  match d.bar2Place off with
  | none => d
  | some (m, a) =>
    if d.qmOffline m then d
    else if !d.filled m a then d.ev pgECC 1
    else if m = 2 ∧ d.get pgKSMB KSMB.BOOT_STATE = 5 then d.bump pgKSMB KSMB.REFUSED 1
    else d.demandWrite m (a / 8) be data 0

/-! ### Fill, training, scrubbing, buckets, raw access -/

/-- The net need of a direction of a port's truss, Gb/s to the nearest (R537). -/
def trussNeed (net : Nat) : Nat := (net * 1078 + 5) / 10

/-- The slots kept: those whose sum of 1.078 × net/32 fits the capacity (R537). -/
def slotsKept (net cap : Nat) : Nat := min 32 (cap * 320 / (net * 1078))

/-- The modules that are UP. -/
def Dev.modsUp (d : Dev) (p : Port) : Nat :=
  (List.range 3).countP fun m => d.get (pgTRS p) (TRS.MOD_STATE.at m) == 2

/-- Both ends of a port's truss. -/
def trussPages (p : Port) : List Nat := [pgTRS p, pgTRSL p]

/-- Capacity, need, dropped slots and DEGRADED follow the modules that are UP, once the die is joined (R537, R543). (DEDUCED: log 176) -/
def trussEval (p : Port) (d : Dev) : Dev :=
  let up := d.modsUp p
  let nt := (d.txCfg p).netRate
  let nr := (d.rxCfg p).netRate
  let cap := 2048 * up
  let d := (trussPages p).foldl (fun d g => d.put g TRS.CAP cap) d
  let d := (d.put (pgTRS p) TRS.CAP_NEED (trussNeed nr)).put (pgTRSL p) TRS.CAP_NEED (trussNeed nt)
  if !d.online p then d
  else
    let net := max nt nr
    let degraded := decide (cap * 10 < net * 1078)
    let drop := if degraded then 2 ^ 32 - 2 ^ slotsKept net cap else 0
    let old := d
    let d := (trussPages p).foldl (fun d g =>
      let rise := degraded && !d.flag g TRS.STATUS_DEGRADED
      (((d.put g TRS.SLOT_DROP_SLOT drop).putb g TRS.STATUS_DEGRADED degraded)).when rise (·.ev g 4)) d
    (List.finRange 32).foldl (fun d (c : Fin 32) =>
      let cut (d : Dev) : Bool := d.slotCut p (d.txSlots p c.val)
      let d := d.when (cut old && !cut d) (·.mapUpd p fun s => { s with tx := AMap.insert s.tx c.val { (s.txOf c.val) with restart := true } })
      d.when (decide (d.cliPort c = p)) (·.replCheck c)) d

/-- A line die filled and joined is clocked and ready: its pages become reachable and its pier engines leave OFF (R522, R577,
R585, R592). (DEDUCED: log 178) -/
def readyCheck (p : Port) (d : Dev) : Dev :=
  let pg := pgLDSYS p
  if d.flag pg LDSYS.STATUS_FILL_DONE && d.flag (pgTRS p) TRS.STATUS_LINK_UP && !d.online p &&
      !d.flag pg LDSYS.GATED && !d.flag pg LDSYS.HELD then
    let d := ((d.putb pg LDSYS.STATUS_PLL_LOCK true).putb pg LDSYS.STATUS_READY true).ev pg 2
    let d := (d.putBit pgSYS SYS.STATUS_LD_READY p.val true).putb (pgLFR p) LFR.STATUS_SDEF true
    let d := d.when (d.online 0 && d.online 1 && !d.flag pgPWR PWR.STATUS_WAKING) (·.putb pgPWR PWR.STATUS_READY true)
    trussEval p (dieClustersUp p d)
  else d

/-- TRAIN_DONE, or TRAIN_FAIL (R539, R540). -/
def trainDo (q : Fin 2) (ok : Bool) (d : Dev) : Dev :=
  ((d.putb (pgQMC q) QMC.STATUS_TRAINED ok).putb (pgQMC q) QMC.STATUS_OFFLINE (!ok)).ev (pgQMC q) (if ok then 0 else 1)

/-- FILL_DONE: the hub's pier clusters are released (R521, R539, R541). -/
def fillDo (d : Dev) : Dev :=
  if d.flag pgECC ECC.STATUS_FILL_DONE then d
  else
    let d := ([0, 1] : List (Fin 2)).foldl (fun d q => d.putb (pgQMC q) QMC.STATUS_FILL_DONE (d.flag (pgQMC q) QMC.STATUS_TRAINED)) d
    clusterUp 11 (clusterUp 10 ((d.putb pgECC ECC.STATUS_FILL_DONE true).ev pgECC 0))

/-- LD_FILL_DONE: of a die that is powered and out of reset (R522). -/
def ldFillDo (p : Port) (d : Dev) : Dev :=
  if d.flag (pgLDSYS p) LDSYS.GATED || d.flag (pgLDSYS p) LDSYS.HELD then d
  else readyCheck p (d.putb (pgLDSYS p) LDSYS.STATUS_FILL_DONE true)

/-- MERGE_DRAIN: the oldest entry of a controller (R525). -/
def mergeDrainDo (c : Nat) (d : Dev) : Dev :=
  match d.merge.filter fun e => e.ctrl == c with
  | [] => d
  | e :: _ => d.drain e

/-- SCRUB_READ: a correctable word is written back corrected, a poisoned one left, an uncorrectable one poisoned (R531,
R532). (DEDUCED: log 172) -/
def scrubDo (b word : Nat) (x : Upset) (last : Bool) (d : Dev) : Dev :=
  let qdr := b == 1 || b == 2
  let on := d.get pgECC (if qdr then ECC.CTL_QDR_SCRUB else ECC.CTL_SRAM_SCRUB) != 0
  let die : Option Port := if b < 5 then none else if b < 9 then some 0 else some 1
  let gone := match die with | some p => !d.online p | none => false
  if !on || gone then d
  else
    let e := eccPort b
    let pos := d.get e.pg QMC.SCRUB_POS_WORD
    let mw := bucketWord b (if qdr then pos else word)
    let r := d.eccRead mw.1 mw.2 x 1 4
    let d := match r.2.1 with
      | some v => r.1.when (r.2.2 != 0) (·.wordPut mw.1 mw.2 v 0)
      | none => r.1
    if qdr then
      let d := (d.bump e.pg QMC.SCRUB_WORDS 1).put e.pg QMC.SCRUB_POS_WORD (pos + 1)
      d.when (pos + 1 == 2 ^ 21) (·.ev e.pg e.pass)
    else (d.bump pgECC ECC.SCRUB_WORDS 1).when last (·.ev e.pg e.pass)

/-- LEAK (R530). -/
def leakDo (b : Nat) (d : Dev) : Dev :=
  d.put pgECC (ECC.BKT_LEVEL.at b) (d.get pgECC (ECC.BKT_LEVEL.at b) - 1)

/-- QMC_LINK_WINDOW: LINK_ERR when the count rose by more than LINK_THR in the second (R527). -/
def linkWindowDo (q : Fin 2) (d : Dev) : Dev :=
  let pg := pgQMC q
  let n := d.get pg QMC.LINK_ERR
  let rise := (n + m48 - d.get pg QMC.LINK_LAST) % m48
  (d.put pg QMC.LINK_LAST n).when (decide (d.get pg QMC.CTL_LINK_THR < rise)) (·.ev pg 5)

/-- A write of ECC_TEST_CMD (R528, R533, R541); of a write with both bits, WRITE_RAW is carried out first. (DEDUCED: log 167) -/
def eccTestWrite (w : Word) (d : Dev) : Dev :=
  let s := d.get pgECC ECC.TEST_ADDR_MEM
  if s = 3 then d
  else
    let m := if s = 0 then 2 else s - 1
    let a := d.get pgECC ECC.TEST_ADDR_WORD % (if m < 2 then 2 ^ 21 else 2 ^ 23)
    if w.toNat % 4 = 0 then d
    else
      let d := d.drainWord m a
      let d := d.when (bitOf w.toNat 0) fun d =>
        let v := d.getLH pgECC ECC.TEST_DATA_LO_DATA ECC.TEST_DATA_HI_DATA
        d.wordPut m a v (eccCheck v ^^^ d.get pgECC ECC.TEST_CHK_CHK)
      d.when (bitOf w.toNat 1) fun d =>
        let v := d.wordData m a
        let y := d.wordSyn m a
        let d := d.putLH pgECC ECC.TEST_RD_LO_DATA ECC.TEST_RD_HI_DATA v
        ((d.put pgECC ECC.TEST_RD_CHK_CHK (eccCheck v ^^^ y)).put pgECC ECC.TEST_RD_CHK_SYND y).put pgECC ECC.TEST_RD_CHK_CLASS (eccClass y)

/-- A write of QMC_CTL: RETRAIN trains the channel again, its data kept (R539). (DEDUCED: log 173) -/
def qmcCtlWrite (q : Fin 2) (w : Word) (d : Dev) : Dev :=
  (d.putW (pgQMC q) QMC.CTL_LINK_THR w).when (bitOf w.toNat 16) (·.putb (pgQMC q) QMC.STATUS_TRAINED false)

/-! ### Truss links (R534–R538) -/

/-- STATUS of both ends and the capacity follow the module states; LINK_UP occurs when all three come UP (R543, R544). -/
def modShow (p : Port) (d : Dev) : Dev :=
  let d := (trussPages p).foldl (fun d g =>
    let mask := (List.range 3).foldl (fun a m => a + (if d.get g (TRS.MOD_STATE.at m) = 2 then 2 ^ m else 0)) 0
    let link := mask == 7
    let rise := link && !d.flag g TRS.STATUS_LINK_UP
    ((d.put g TRS.STATUS_MOD_UP mask).putb g TRS.STATUS_LINK_UP link).when rise (·.ev g 6)) d
  trussEval p d

/-- A module that is UP is taken DOWN: its unacknowledged flits go to the others as one replay and one failover, and it
retrains (R536, R538). -/
def modDown (p : Port) (m : Nat) (d : Dev) : Dev :=
  if d.get (pgTRS p) (TRS.MOD_STATE.at m) ≠ 2 then d
  else
    let d := (trussPages p).foldl (fun d g =>
      let d := ((d.put g (TRS.MOD_STATE.at m) 1).put g (TRS.streak m) 0).ev g 0
      ((d.bump g TRS.REPLAYS 1).bump g TRS.FAILOVERS 1).ev g 7) d
    modShow p d

/-- TRUSS_FLIT (R535, R536, R538). (DEDUCED: log 175) -/
def flitDo (p : Port) (toLine : Bool) (m : Nat) (bad : Option FlitFault) (d : Dev) : Dev :=
  let g := if toLine then pgTRSL p else pgTRS p
  if d.get g (TRS.MOD_STATE.at m) ≠ 2 then d
  else match bad with
    | none => ((d.bump g TRS.FLITS 1).put g (TRS.streak m) 0).bwAdd (34 + p.val) toLine 2048
    | some f =>
      let d := d.when (f == .parity && !toLine) (·.bump pgECC ECC.PAR_FIFO 1)
      let d := d.bump g TRS.CRC_ERR 1
      let n := d.get g (TRS.streak m) + 1
      if 4 ≤ n then modDown p m d else (d.put g (TRS.streak m) n).bump g TRS.REPLAYS 1

/-- TRUSS_LANE_WINDOW: a second ends; CRC_RATE is judged with module 0's window, once a second (R536, R543). (DEDUCED: log 177) -/
def laneWindowDo (p : Port) (toLine : Bool) (m worst total : Nat) (d : Dev) : Dev :=
  let g := if toLine then pgTRSL p else pgTRS p
  let d := d.bump g TRS.PAR_ERR total
  let d := d.when (m == 0) fun d =>
    let n := d.get g TRS.CRC_ERR
    let rise := (n + m48 - d.get g TRS.CRC_LAST) % m48
    (d.put g TRS.CRC_LAST n).when (decide (d.get g TRS.CTL_CRC_THR < rise)) (·.ev g 5)
  d.when (decide (d.get g TRS.CTL_LANE_THR < worst)) (modDown p m ·)

/-- MOD_UP: a module that trains comes UP, with the lanes it replaced, or is FAILED when it cannot be repaired (R536). -/
def modUpDo (p : Port) (m : Nat) (ok : Bool) (hub line : Nat) (d : Dev) : Dev :=
  if 2 ≤ d.get (pgTRS p) (TRS.MOD_STATE.at m) || d.flag (pgLDSYS p) LDSYS.GATED || d.flag (pgLDSYS p) LDSYS.HELD then d
  else
    let fix (g v : Nat) : Nat × Nat :=
      let v := if d.flag g TRS.CTL_AUTO_REPAIR then v else 0
      (d.get g (TRS.MOD_REP_LO.at m) + v % 4, d.get g (TRS.MOD_REP_HI.at m) + v / 4 % 4)
    let a := fix (pgTRS p) hub
    let b := fix (pgTRSL p) line
    if ok = false ∨ 2 < a.1 ∨ 2 < a.2 ∨ 2 < b.1 ∨ 2 < b.2 then
      modShow p ((trussPages p).foldl (fun d g => (d.put g (TRS.MOD_STATE.at m) 3).ev g 3) d)
    else
      let one (d : Dev) (g : Nat) (n : Nat × Nat) : Dev :=
        let k := n.1 + n.2 - d.get g (TRS.MOD_REP_LO.at m) - d.get g (TRS.MOD_REP_HI.at m)
        let d := (d.put g (TRS.MOD_REP_LO.at m) n.1).put g (TRS.MOD_REP_HI.at m) n.2
        let d := d.when (k != 0) fun d => (d.bump g TRS.REPAIRS k).ev g 2
        (d.put g (TRS.MOD_STATE.at m) 2).ev g 1
      readyCheck p (modShow p (one (one d (pgTRS p) a) (pgTRSL p) b))

/-- A write of TRS_CTL on either page: RETRAIN takes an UP module through a failover and lets a FAILED or DOWN one train
(R536, R538, R545). -/
def trsCtlWrite (p : Port) (onDie : Bool) (w : Word) (d : Dev) : Dev :=
  let g := if onDie then pgTRSL p else pgTRS p
  let d := d.putWs g [TRS.CTL_CRC_THR, TRS.CTL_LANE_THR, TRS.CTL_AUTO_REPAIR] w
  (List.range 3).foldl (fun d m =>
    if !bitOf w.toNat (20 + m) then d
    else if d.get g (TRS.MOD_STATE.at m) = 2 then modDown p m d
    else if d.flag (pgLDSYS p) LDSYS.GATED || d.flag (pgLDSYS p) LDSYS.HELD then d
    else (trussPages p).foldl (fun d x => d.put x (TRS.MOD_STATE.at m) 1) d) d

/-! ### Meanings -/

def execBar2Read (off : BitVec 26) (wide : Bool) (x : Upset) (s : State) : Host.Outcome State Fault Refusal :=
  s.run (bar2ReadDo off.toNat wide x)

def execBar2Write (off : BitVec 26) (be : BitVec 8) (data : BitVec 64) (s : State) : Host.Outcome State Fault Refusal :=
  s.run (bar2WriteDo off.toNat be.toNat data.toNat)

def execTrainDone (q : Fin 2) (ok : Bool) (s : State) : Host.Outcome State Fault Refusal := s.run (trainDo q ok)

def execFillDone (s : State) : Host.Outcome State Fault Refusal := s.run fillDo

def execLdFillDone (p : Port) (s : State) : Host.Outcome State Fault Refusal := s.run (ldFillDo p)

def execMergeDrain (ctrl : Fin 3) (s : State) : Host.Outcome State Fault Refusal := s.run (mergeDrainDo ctrl.val)

def execScrubRead (b : Fin 13) (word : BitVec 23) (x : Upset) (last : Bool) (s : State) :
    Host.Outcome State Fault Refusal := s.run (scrubDo b.val word.toNat x last)

def execLeak (b : Fin 13) (s : State) : Host.Outcome State Fault Refusal := s.run (leakDo b.val)

def execQmcLinkWindow (q : Fin 2) (s : State) : Host.Outcome State Fault Refusal := s.run (linkWindowDo q)

/-- WRITE_RAW: a write of ECC_TEST_CMD whose WRITE_RAW bit is 1. -/
def execWriteRaw (w : Word) (s : State) : Host.Outcome State Fault Refusal := s.run (eccTestWrite (w ||| 1))

/-- READ_RAW: a write of ECC_TEST_CMD whose READ_RAW bit is 1. -/
def execReadRaw (w : Word) (s : State) : Host.Outcome State Fault Refusal := s.run (eccTestWrite (w ||| 2))

def execQmcRetrain (q : Fin 2) (w : Word) (s : State) : Host.Outcome State Fault Refusal :=
  s.run (qmcCtlWrite q (w ||| 0x10000))

def execTrussFlit (p : Port) (toLine : Bool) (m : Fin 3) (bad : Option FlitFault) (s : State) :
    Host.Outcome State Fault Refusal := s.run (flitDo p toLine m.val bad)

def execTrussLaneWindow (p : Port) (toLine : Bool) (m : Fin 3) (worst total : BitVec 32) (s : State) :
    Host.Outcome State Fault Refusal := s.run (laneWindowDo p toLine m.val worst.toNat total.toNat)

def execModUp (p : Port) (m : Fin 3) (ok : Bool) (hub line : BitVec 4) (s : State) : Host.Outcome State Fault Refusal :=
  s.run (modUpDo p m.val ok hub.toNat line.toNat)

/-- TRS_RETRAIN: the write of a TRSL page needs its die (R38). -/
def execTrsRetrain (p : Port) (onDie : Bool) (w : Word) (s : State) : Host.Outcome State Fault Refusal :=
  s.run fun d => if onDie then d.hostLine p (trsCtlWrite p true w) else trsCtlWrite p false w d

end Sys2Proof.Machine
end

