-- ==== Sys2Proof/Machine/Dma.lean ====
section
/-! DEFINITION.  The DMA engine: sets, checks, states, retries and the shadow set (R547–R560).  The transfer of data, which
can reach the register pages, stands in `Xfer`. -/

namespace Sys2Proof.Machine

/-! ### Model fields -/

/-- A bus error waits for its retry (R552). -/
def DMA.waiting (c : Nat) : Fld := hid (4 * c) 1 0
/-- SOFT_RST of the page waits for every channel to reach IDLE (R556). -/
def DMA.RST_PEND : Fld := hid 0x40 1 0

/-- A set of a channel, with LEN and LINES as counts (R549, R559). -/
structure DmaSet where
  src : Nat
  dst : Nat
  slen : Nat
  sstride : Nat
  slines : Nat
  dlen : Nat
  dstride : Nat
  dlines : Nat
  ssp : Nat
  dsp : Nat
  retryMax : Nat
deriving DecidableEq, Repr

/-- The fields of a set, active and shadow, register by register (R559). -/
def dmaFields : List (List Fld × List Fld) :=
  [([DMA.SRC_LO_ADDR], [DMA.SHD_SRC_LO_ADDR]), ([DMA.SRC_HI_ADDR], [DMA.SHD_SRC_HI_ADDR]),
   ([DMA.DST_LO_ADDR], [DMA.SHD_DST_LO_ADDR]), ([DMA.DST_HI_ADDR], [DMA.SHD_DST_HI_ADDR]),
   ([DMA.SRC_LEN_LEN], [DMA.SHD_SRC_LEN_LEN]), ([DMA.SRC_STRIDE_STRIDE], [DMA.SHD_SRC_STRIDE_STRIDE]),
   ([DMA.SRC_LINES_LINES], [DMA.SHD_SRC_LINES_LINES]), ([DMA.DST_LEN_LEN], [DMA.SHD_DST_LEN_LEN]),
   ([DMA.DST_STRIDE_STRIDE], [DMA.SHD_DST_STRIDE_STRIDE]), ([DMA.DST_LINES_LINES], [DMA.SHD_DST_LINES_LINES]),
   ([DMA.CFG_SRC_SP, DMA.CFG_DST_SP, DMA.CFG_RETRY_MAX], [DMA.SHD_CFG_SRC_SP, DMA.SHD_CFG_DST_SP, DMA.SHD_CFG_RETRY_MAX])]

/-- A field of a channel. -/
def Dev.dmaGet (d : Dev) (c : Nat) (f : Fld) : Nat := d.get pgDMA (f.at c)

/-- A field of a channel written. -/
def Dev.dmaPut (d : Dev) (c : Nat) (f : Fld) (v : Nat) : Dev := d.put pgDMA (f.at c) v

/-- The active set. -/
def Dev.dmaSet (d : Dev) (c : Nat) : DmaSet :=
  ⟨d.dmaGet c DMA.SRC_LO_ADDR + 2 ^ 32 * d.dmaGet c DMA.SRC_HI_ADDR, d.dmaGet c DMA.DST_LO_ADDR + 2 ^ 32 * d.dmaGet c DMA.DST_HI_ADDR,
   d.dmaGet c DMA.SRC_LEN_LEN + 1, min (2 ^ 24) (d.dmaGet c DMA.SRC_STRIDE_STRIDE), d.dmaGet c DMA.SRC_LINES_LINES + 1,
   d.dmaGet c DMA.DST_LEN_LEN + 1, min (2 ^ 24) (d.dmaGet c DMA.DST_STRIDE_STRIDE), d.dmaGet c DMA.DST_LINES_LINES + 1,
   d.dmaGet c DMA.CFG_SRC_SP, d.dmaGet c DMA.CFG_DST_SP, d.dmaGet c DMA.CFG_RETRY_MAX⟩

/-- The memory and byte offset of a DEV address, with the row of R548. -/
def devPlace (a : Nat) : Option (Nat × Nat) :=
  if a < 0x4000000 then some (2, a)
  else if a < 0x5000000 then some (0, a - 0x4000000)
  else if a < 0x6000000 then some (1, a - 0x5000000)
  else if a < 0x6600000 then some (3, a - 0x6000000)
  else if 0x6800000 ≤ a ∧ a < 0x68F0000 then some (4, a - 0x6800000)
  else if 0x6900000 ≤ a ∧ a < 0x69F0000 then some (5, a - 0x6900000)
  else none

/-- The last address of a side's bounding range (R550). -/
def dmaEnd (a len stride lines : Nat) : Nat := a + (lines - 1) * stride + len - 1

/-- A side's bounding range leaves its space (R550). -/
def dmaOut (sp a e : Nat) : Bool :=
  match sp with
  | 0 => decide (2 ^ 64 ≤ e)
  | 1 =>
    match devPlace a, devPlace e with
    | some x, some y => x.1 != y.1
    | _, _ => true
  | 2 => decide (0x400000 ≤ e)
  | _ => true

/-- The code that refuses a set, 0 when it passes: SHAPE, RANGE, ALIGN, OVERLAP (R550). -/
def DmaSet.refuse (s : DmaSet) : Nat :=
  let se := dmaEnd s.src s.slen s.sstride s.slines
  let de := dmaEnd s.dst s.dlen s.dstride s.dlines
  let odd (sp a len stride : Nat) : Bool := sp == 2 && !(a % 4 == 0 && len % 4 == 0 && stride % 4 == 0)
  if s.slen * s.slines ≠ s.dlen * s.dlines ∨ (1 < s.dlines ∧ s.dstride < s.dlen ∧ s.dsp ≠ 2) then 4
  else if dmaOut s.ssp s.src se || dmaOut s.dsp s.dst de then 5
  else if odd s.ssp s.src s.slen s.sstride || odd s.dsp s.dst s.dlen s.dstride then 6
  else if s.ssp = s.dsp ∧ s.src ≤ de ∧ s.dst ≤ se then 7
  else 0

/-- A channel's state, with STATUS.BUSY and STATUS.HALTED (R559). -/
def Dev.dmaState (d : Dev) (c st : Nat) : Dev :=
  let d := d.dmaPut c DMA.STAT_STATE st
  (d.putBit pgDMA DMA.STATUS_BUSY c (st != 0)).putBit pgDMA DMA.STATUS_HALTED c (st == 4)

/-- The number of leading bytes written. -/
def Dev.dmaPos (d : Dev) (c : Nat) : Nat := d.dmaGet c DMA.BYTES + 2 ^ 32 * d.dmaGet c DMA.STAT_BYTES32

/-- The bytes of a channel in the staging buffer, read and not yet written (R551). -/
def Dev.dmaHeld (d : Dev) (c : Nat) : List Nat := ((AMap.find? d.dmaBuf c).getD []).map (·.toNat)

/-- The bytes of a channel in the staging buffer, set. -/
def Dev.dmaHold (d : Dev) (c : Nat) (l : List Nat) : Dev :=
  { d with dmaBuf := if l.isEmpty then AMap.erase d.dmaBuf c else AMap.insert d.dmaBuf c (l.map (BitVec.ofNat 8)) }

/-- The number of leading bytes read. -/
def Dev.dmaRd (d : Dev) (c : Nat) : Nat := d.dmaPos c + (d.dmaHeld c).length

/-- The blocks of 256 bytes that a channel holds of the staging buffer, those of its request with them (R551). -/
def Dev.dmaBlocks (d : Dev) (c : Nat) : Nat :=
  if d.dmaGet c DMA.STAT_STATE = 1 then cdiv (d.dmaHeld c).length 256 + 2 else 0

/-- How many bytes of a channel may stay in the buffer while its next request is out: QUOTA and the free blocks leave room for
that request of 512 bytes (R551, R559). (DEDUCED: log 259) -/
def Dev.dmaRoom (d : Dev) (c : Nat) : Nat :=
  let others := (List.range 8).foldl (fun a i => if i = c then a else a + d.dmaBlocks i) 0
  256 * (min (16 * max 1 (min 16 (d.get pgDMA DMA.CTL_QUOTA))) (256 - others) - 2)

/-- The number of leading bytes written, set. -/
def Dev.dmaAt (d : Dev) (c k : Nat) : Dev := (d.dmaPut c DMA.BYTES k).dmaPut c DMA.STAT_BYTES32 (k / 2 ^ 32)

/-- The active set starts, or is refused (R521, R550, R554). (DEDUCED: log 180) -/
def Dev.dmaBegin (d : Dev) (c : Nat) : Dev :=
  if !d.flag pgECC ECC.STATUS_FILL_DONE then d
  else
    let r := (d.dmaSet c).refuse
    if r ≠ 0 then (d.dmaPut c DMA.STAT_RESULT r).ev pgDMA (24 + c)
    else
      let d := (d.dmaAt c 0).dmaPut c DMA.STAT_RESULT 0
      let d := (d.dmaPut c DMA.STAT_ERR 0).dmaPut c DMA.STAT_RETRIES 0
      (d.put pgDMA (DMA.waiting c) 0).dmaState c 1

/-- The shadow set becomes the active one, and starts (R555). -/
def Dev.dmaShadow (d : Dev) (c : Nat) : Dev :=
  let d := dmaFields.foldl (fun d r => (r.1.zip r.2).foldl (fun d f => d.dmaPut c f.1 (d.dmaGet c f.2)) d) d
  ((d.dmaPut c DMA.CTL_SHD_ARM 0).dmaPut c DMA.STAT_SHD_TAKEN 1).dmaBegin c

/-- SOFT_RST of the page completes once every channel is IDLE (R556). -/
def Dev.dmaResetEnd (d : Dev) : Dev :=
  if d.flag pgDMA DMA.RST_PEND && d.get pgDMA DMA.STATUS_BUSY == 0 then
    ((d.commitCancel pgDMA).wipe (fun k => keyPage k == pgDMA)).wipeEvents (· == pgDMA)
  else d

/-- ABORT; the buffered data of a running channel are discarded (R554). -/
def Dev.dmaAbort (d : Dev) (c : Nat) : Dev :=
  match d.dmaGet c DMA.STAT_STATE with
  | 1 => ((d.dmaHold c []).put pgDMA (DMA.waiting c) 0).dmaState c 2
  | 4 => d.dmaState c 0
  | _ => d

/-- A write of DMA_CTLc: ABORT, then START, START_SHD, DISARM and SHD_ARM (R554, R555, R558). -/
def dmaCtlWrite (c : Nat) (w : Word) (d : Dev) : Dev :=
  let v := w.toNat
  let d := d.when (bitOf v 2) (·.dmaAbort c)
  let idle (d : Dev) : Bool := d.dmaGet c DMA.STAT_STATE == 0
  let d := if bitOf v 0 && idle d then (d.dmaPut c DMA.STAT_SHD_TAKEN 0).dmaBegin c else d
  let d := if bitOf v 1 && idle d && d.dmaGet c DMA.CTL_SHD_ARM == 1 then d.dmaShadow c else d
  let d := d.when (bitOf v 3) (·.dmaPut c DMA.CTL_SHD_ARM 0)
  (d.when (bitOf v 8) (·.dmaPut c DMA.CTL_SHD_ARM 1)).dmaResetEnd

/-- A write of a word of a set; ignored with WR_IGN while the channel is not IDLE, or the shadow set is armed (R555, R556). -/
def dmaSetWrite (c : Nat) (shadow : Bool) (r : Nat) (w : Word) (d : Dev) : Dev :=
  let no := if shadow then d.dmaGet c DMA.CTL_SHD_ARM == 1 else d.dmaGet c DMA.STAT_STATE != 0
  if no then d.dmaPut c DMA.STAT_WR_IGN 1
  else
    let fs := (dmaFields.drop r).head?.getD ([], [])
    (if shadow then fs.2 else fs.1).foldl (fun d f => d.putW pgDMA (f.at c) w) d

/-- A request of a channel draws a bus error: it waits for its retry, or the channel halts; kinds 1 HOST, 2 MEM_UE, 3 POISON,
4 OFFLINE, 5 TIMEOUT (R552, R554). (DEDUCED: log 181) -/
def Dev.dmaError (d : Dev) (c kind addr : Nat) : Dev :=
  let d := (d.dmaPut c DMA.ERR_ADDR_LO_ADDR addr).dmaPut c DMA.ERR_ADDR_HI_ADDR (addr / 2 ^ 32)
  if d.dmaGet c DMA.STAT_RETRIES < d.dmaGet c DMA.CFG_RETRY_MAX then d.put pgDMA (DMA.waiting c) 1
  else
    let d := (((d.dmaHold c []).dmaPut c DMA.STAT_RESULT 3).dmaPut c DMA.STAT_ERR kind).dmaState c 4
    let d := (d.bump pgDMA (DMA.ERRORS.at c) 1).ev pgDMA (16 + c)
    d.when (d.flag pgDMA DMA.RST_PEND) fun d => (d.dmaState c 0).dmaResetEnd

/-- A channel has a request out. -/
def Dev.dmaOut (d : Dev) (c : Nat) : Bool :=
  (d.dmaGet c DMA.STAT_STATE == 1 || d.dmaGet c DMA.STAT_STATE == 3) && !d.flag pgDMA (DMA.waiting c)

/-- The source address of byte k (R549). -/
def DmaSet.srcAt (s : DmaSet) (k : Nat) : Nat := s.src + k / s.slen * s.sstride + k % s.slen

/-- The destination address of byte k (R549). -/
def DmaSet.dstAt (s : DmaSet) (k : Nat) : Nat := s.dst + k / s.dlen * s.dstride + k % s.dlen

/-- The number of bytes of a transfer. -/
def DmaSet.total (s : DmaSet) : Nat := s.slen * s.slines

/-- DMA_RETRY: the failing request is repeated (R552). (DEDUCED: log 182) -/
def dmaRetryDo (c : Nat) (d : Dev) : Dev :=
  if d.flag pgDMA (DMA.waiting c) then
    let d := (d.put pgDMA (DMA.waiting c) 0).dmaPut c DMA.STAT_RETRIES (d.dmaGet c DMA.STAT_RETRIES + 1)
    d.bump pgDMA (DMA.RETRIES.at c) 1
  else d

/-- DMA_DRAIN_DONE: ABORTED (R554). -/
def dmaDrainDo (c : Nat) (d : Dev) : Dev :=
  if d.dmaGet c DMA.STAT_STATE = 2 then (((d.dmaPut c DMA.STAT_RESULT 2).ev pgDMA (8 + c)).dmaState c 0).dmaResetEnd
  else d

/-- COMPLETION_TIMEOUT: of a request on a HOST side (R552). -/
def dmaTimeoutDo (c : Nat) (d : Dev) : Dev :=
  let s := d.dmaSet c
  let k := d.dmaRd c
  if !d.dmaOut c then d
  else if d.dmaGet c DMA.STAT_STATE = 1 ∧ s.ssp = 0 then d.dmaError c 5 (s.srcAt k)
  else if d.dmaGet c DMA.STAT_STATE = 3 ∧ s.dsp = 0 then d.dmaError c 5 (s.dstAt (k - 1))
  else d

/-- DONE is reported, then the shadow is sampled (R554, R555). -/
def Dev.dmaDone (d : Dev) (c : Nat) : Dev :=
  let d := (((d.dmaPut c DMA.STAT_RESULT 1).bump pgDMA (DMA.XFERS.at c) 1).ev pgDMA c).dmaState c 0
  if d.flag pgDMA DMA.RST_PEND then d.dmaResetEnd
  else if d.dmaGet c DMA.CTL_SHD_ARM = 1 then d.dmaShadow c else d.dmaPut c DMA.STAT_SHD_TAKEN 0

/-- SOFT_RST of the DMA page: an ABORT of every channel; the fields return to reset once every channel is IDLE (R556). (DEDUCED: log 183) -/
def dmaSoftReset (d : Dev) : Dev :=
  ((List.range 8).foldl (fun d c => d.dmaAbort c) (d.put pgDMA DMA.RST_PEND 1)).dmaResetEnd

/-! ### Meanings -/

/-- DMA_START: a write of DMA_CTLc whose START bit is 1. -/
def execDmaStart (c : Fin 8) (w : Word) (s : State) : Host.Outcome State Fault Refusal := s.run (dmaCtlWrite c.val (w ||| 1))

/-- START_SHD: a write of DMA_CTLc whose START_SHD bit is 1. -/
def execStartShd (c : Fin 8) (w : Word) (s : State) : Host.Outcome State Fault Refusal := s.run (dmaCtlWrite c.val (w ||| 2))

/-- ABORT: a write of DMA_CTLc whose ABORT bit is 1. -/
def execAbort (c : Fin 8) (w : Word) (s : State) : Host.Outcome State Fault Refusal := s.run (dmaCtlWrite c.val (w ||| 4))

/-- DISARM: a write of DMA_CTLc whose DISARM bit is 1. -/
def execDisarm (c : Fin 8) (w : Word) (s : State) : Host.Outcome State Fault Refusal := s.run (dmaCtlWrite c.val (w ||| 8))

/-- SHD_ARM: a write of DMA_CTLc whose SHD_ARM bit is 1. -/
def execShdArm (c : Fin 8) (w : Word) (s : State) : Host.Outcome State Fault Refusal := s.run (dmaCtlWrite c.val (w ||| 256))

def execDmaSetWrite (c : Fin 8) (shadow : Bool) (r : Fin 11) (w : Word) (s : State) : Host.Outcome State Fault Refusal :=
  s.run (dmaSetWrite c.val shadow r.val w)

def execDmaRetry (c : Fin 8) (s : State) : Host.Outcome State Fault Refusal := s.run (dmaRetryDo c.val)

def execDmaDrainDone (c : Fin 8) (s : State) : Host.Outcome State Fault Refusal := s.run (dmaDrainDo c.val)

def execCompletionTimeout (c : Fin 8) (s : State) : Host.Outcome State Fault Refusal := s.run (dmaTimeoutDo c.val)

end Sys2Proof.Machine
end

