-- ==== Sys2Proof/Machine/Perf.lean ====
section
/-! DEFINITION.  Snapshots, bandwidth, top-down slots and user access of the performance counters (R561–R571). -/

namespace Sys2Proof.Machine

/-! ### Model fields -/

/-- Line die `p` was power-gated in the bandwidth window (R565). -/
def PERFW.GATED : Fld := hid 0 2 0

/-- The top-down counters of an engine. -/
def tdOf (m : AMap TdCount) (k : Nat) : TdCount := (AMap.find? m k).getD ⟨0, 0, 0, 0, 0⟩

/-- One cycle of an engine in RUN, whose slot is of class 0 RETIRED, 1 WASTED, 2 FRONT or 3 BACK (R566). -/
def TdCount.cycle (t : TdCount) (cls : Nat) : TdCount :=
  let t := { t with cycles := (t.cycles + 1) % m48 }
  if cls = 0 then { t with retired := (t.retired + 1) % m48 }
  else if cls = 1 then { t with wasted := (t.wasted + 1) % m48 }
  else if cls = 2 then { t with front := (t.front + 1) % m48 }
  else { t with back := (t.back + 1) % m48 }

/-- An engine cycle of every engine in RUN; which class its slot falls in is open (R566). (DEDUCED: log 189) -/
def Dev.tdCycle (d : Dev) : Dev :=
  ((List.range 192).filter fun k => d.engState k == 3).foldl (fun d k =>
    { d.used with td := AMap.insert d.td k ((tdOf d.td k).cycle (d.free % 4)) }) d

/-- One hub clock: counters of KIND 0 add 1, and 32 of 45 hub clocks start a cycle of the engines (R561, R566). -/
def Dev.perfTick (d : Dev) : Dev :=
  let d := (List.range 32).foldl (fun d i => d.when (d.get pgPERFW (PERFW.SEL_KIND.at i) == 0) (·.perfAdd i 1)) d
  d.when (decide ((d.ticks + 1) * 32 / 45 ≠ d.ticks * 32 / 45)) (·.tdCycle)

/-- The copy of a snapshot (R564). (DEDUCED: log 191) -/
def Dev.perfCopy (d : Dev) : Dev :=
  let d := (List.range 32).foldl (fun d i => d.put pgPERFW (PERFW.SNAP.at i) (d.get pgPERFW (PERFW.CNT.at i))) d
  { d with tdSnap := d.td }.putb pgPERFW PERFW.STATUS_SNAP_BUSY true

/-- A write of PERFW_CMD: a SNAP while a snapshot is taken is served by it (R564). -/
def perfCmdWrite (w : Word) (d : Dev) : Dev :=
  if PERFW.CMD_SNAP.ofWord w.toNat = 0 || d.flag pgPERFW PERFW.STATUS_SNAP_BUSY then d else d.perfCopy

/-- SNAP_DONE (R564). -/
def snapDoneDo (d : Dev) : Dev :=
  if d.flag pgPERFW PERFW.STATUS_SNAP_BUSY then
    ((d.putb pgPERFW PERFW.STATUS_SNAP_BUSY false).bump pgPERFW PERFW.SEQ_SNAP_SEQ 1).ev pgPERFW 1
  else d

/-- A write of PERF_SELi, counting from the next clock (R563). -/
def perfSelDo (i : Nat) (w : Word) (d : Dev) : Dev :=
  d.putWs pgPERFW [PERFW.SEL_KIND.at i, PERFW.SEL_SRC.at i, PERFW.SEL_PAGE.at i, PERFW.SEL_IDX.at i, PERFW.SEL_CHAIN.at i] w

/-- The window length in ms (R570). -/
def Dev.bwWin (d : Dev) : Nat := clampN 1 1000 (d.get pgPERFW PERFW.BW_CTL_WIN)

/-- The port stands on line die p's truss or line (R565). -/
def bwDie (j : Nat) : Option Nat := if 32 ≤ j ∧ j < 36 then some (j % 2) else none

/-- The bits that port `j` has counted in the window, in and out: those given for the clients and PCIe (0–31 and, last, 38), and
those of the lines, trusses and QDR channels that the commands have carried (R565). (DEDUCED: log 299) -/
def Dev.bwBits (d : Dev) (bits : List (Nat × Nat)) (j : Nat) : Nat × Nat :=
  if j < 32 then bits.getD j (0, 0)
  else if j = 38 then bits.getD 32 (0, 0)
  else (d.get pgPERFW (PERFW.bits false j), d.get pgPERFW (PERFW.bits true j))

/-- A window ends: values of bits ÷ window in Mb/s, 0 for a port of a die that was gated in it; a window of no length has no
stated value (R565). (DEDUCED: log 190) -/
def Dev.bwEnd (d : Dev) (bits : List (Nat × Nat)) (num den : Nat) : Dev :=
  let d0 := d
  let gone := d.get pgPERFW PERFW.GATED
  let free := d.free
  let rate (b : Nat) : Nat := if den = 0 then free else b * num / den
  let d := (List.range 39).foldl (fun d j =>
    let b := d0.bwBits bits j
    let off := match bwDie j with | some p => bitOf gone p | none => false
    (d.put pgPERFW (PERFW.BW_IN.at j) (if off then 0 else rate b.1)).put pgPERFW (PERFW.BWO_OUT.at j)
      (if off then 0 else rate b.2)) d.used
  let d := (List.range 6).foldl (fun d j => (d.put pgPERFW (PERFW.bits false (32 + j)) 0).put pgPERFW (PERFW.bits true (32 + j)) 0) d
  let now (p : Port) : Nat := if d.flag (pgLDSYS p) LDSYS.GATED then 2 ^ p.val else 0
  let d := (d.put pgPERFW PERFW.GATED (now 0 + now 1)).bump pgPERFW PERFW.SEQ_BW_SEQ 1
  d.perfCopy.ev pgPERFW 0

/-- BW_LATCH: a window of WIN ms ends. -/
def bwLatchDo (bits : List (Nat × Nat)) (d : Dev) : Dev := d.bwEnd bits 1 (1000 * d.bwWin)

/-- A write of PERFW_BW_CTL ends the current window, `clocks` hub clocks long, and sets the length of the next (R569). -/
def bwWinDo (w : Word) (bits : List (Nat × Nat)) (clocks : Nat) (d : Dev) : Dev :=
  (d.bwEnd bits 5625 (4 * clocks)).putW pgPERFW PERFW.BW_CTL_WIN w

/-- WRAP: counter i, at its last value, wraps (R562). -/
def wrapDo (i : Nat) (d : Dev) : Dev :=
  if d.get pgPERFW (PERFW.CNT.at i) = m48 - 1 then Dev.perfCarry 32 i 1 d else d

/-- The value a pair of BAR4 words shows, none where there is no pair (R568). -/
def Dev.bar4Pair (d : Dev) (off : Nat) : Option Nat :=
  if off < 0x100 then some (d.get pgPERFW (PERFW.CNT.at (off / 8)))
  else if off < 0x200 then some (d.get pgPERFW (PERFW.SNAP.at ((off - 0x100) / 8)))
  else if 0x1000 ≤ off ∧ off < 0x4000 then
    let t := tdOf d.tdSnap ((off - 0x1000) / 64)
    [t.cycles, t.retired, t.wasted, t.front, t.back][(off - 0x1000) % 64 / 8]?
  else none

/-- A 32-bit word of BAR4; a LO read captures the HI word (R8, R568). -/
def Dev.bar4Word (d : Dev) (off : Nat) : Dev × Nat :=
  let key := 0x400 * 4096 + off
  match d.bar4Pair (off / 8 * 8) with
  | some v =>
    if off % 8 = 0 then ({ d with hiCap := AMap.insert d.hiCap (key + 4) (v / 2 ^ 32) }, v % 2 ^ 32)
    else
      match AMap.find? d.hiCap key with
      | some h => ({ d with hiCap := AMap.erase d.hiCap key }, h)
      | none => (d, v / 2 ^ 32)
  | none =>
    if 0x200 ≤ off ∧ off < 0x338 then
      let j := (off - 0x200) / 8
      (d, d.get pgPERFW (if off % 8 = 0 then PERFW.BW_IN.at j else PERFW.BWO_OUT.at j))
    else if off = 0x400 then (d, d.get pgPERFW PERFW.SEQ_BW_SEQ + 2 ^ 16 * d.get pgPERFW PERFW.SEQ_SNAP_SEQ)
    else (d, 0)

/-- BAR4_READ: zero with USER_DENIED while access is disabled (R568). -/
def bar4ReadDo (off : Nat) (wide : Bool) (d : Dev) : Dev :=
  let a := off / 4 * 4
  if !d.flag pgSYS SYS.PERF_USER_EN_EN then (d.ev pgPERFW 2).emit (.readData (some 0))
  else
    let r := d.bar4Word a
    if wide then
      let q := r.1.bar4Word (a + 4)
      q.1.emit (.readData (some (r.2 + 2 ^ 32 * q.2)))
    else r.1.emit (.readData (some r.2))

/-- SOFT_RST of PERFW: selections and controls return to reset, counter values are kept (R569). -/
def perfSoftReset (d : Dev) : Dev :=
  d.wipe fun k => keyPage k == pgPERFW && accOf k == some .rw && decide (0x100 ≤ keyOff k)

/-! ### Meanings -/

def execPerfSelWrite (i : Fin 32) (w : Word) (s : State) : Host.Outcome State Fault Refusal := s.run (perfSelDo i.val w)

/-- PERF_SNAP: a write of PERFW_CMD whose SNAP bit is 1. -/
def execPerfSnap (w : Word) (s : State) : Host.Outcome State Fault Refusal := s.run (perfCmdWrite (w ||| 1))

def execSnapDone (s : State) : Host.Outcome State Fault Refusal := s.run snapDoneDo

def execBwLatch (bits : List (BitVec 64 × BitVec 64)) (s : State) : Host.Outcome State Fault Refusal :=
  s.run (bwLatchDo (bits.map fun b => (b.1.toNat, b.2.toNat)))

def execBwWinWrite (w : Word) (bits : List (BitVec 64 × BitVec 64)) (clocks : BitVec 32) (s : State) :
    Host.Outcome State Fault Refusal := s.run (bwWinDo w (bits.map fun b => (b.1.toNat, b.2.toNat)) clocks.toNat)

def execWrap (i : Fin 32) (s : State) : Host.Outcome State Fault Refusal := s.run (wrapDo i.val)

def execBar4Read (off : BitVec 20) (wide : Bool) (s : State) : Host.Outcome State Fault Refusal :=
  s.run (bar4ReadDo off.toNat wide)

end Sys2Proof.Machine
end

