-- ==== Sys2Proof/Machine/Commit.lean ====
section
/-! DEFINITION.  Commits: the arm and its refusals (R60–R63, R627), the takes of the two sides and what they act on
(R65, R68–R72, R636), and the receive side becoming invalid. -/

namespace Sys2Proof.Machine

/-- An outcome has been shown in the current transmit frame (R82 MULTI). -/
def LFR.CMT_SEEN : Fld := hid 12 1 0
/-- The boundary at which the framer stops is under way: its outcomes fall in one frame (R54, R82). -/
def LFR.CMT_STOP : Fld := hid 36 1 0

/-- A SET (1) or an ADOPT (2) that waits for the next transmit span boundary (R55). -/
def LFR.SET_WAIT : Fld := hid 16 2 0

/-- The line die whose page this is. -/
def pagePort (pg : Nat) : Option Port := (pageInfo pg).bind (·.die)

/-- An outcome of a commit: its event on the LFR page of the named port, and LFR_CMT_LAST (R72, R82). (DEDUCED: log 35) -/
def Dev.cmtOutcome (d : Dev) (p : Port) (pg src result : Nat) : Dev :=
  let l := pgLFR p
  let d := d.ev l src
  let multi := d.flag l LFR.CMT_SEEN
  let keep := multi && decide (d.get l LFR.CMT_LAST_PAGE ≤ pg)
  let d := (d.putb l LFR.CMT_LAST_MULTI multi).putb l LFR.CMT_SEEN (d.txRun p || d.flag l LFR.CMT_STOP)
  if keep then d else (d.put l LFR.CMT_LAST_PAGE pg).put l LFR.CMT_LAST_RESULT result

/-! ### What a take acts on (R66) -/

/-- The alignment state of an ordinary subcarrier outside LOCK (R249). -/
def Dev.alignPut (d : Dev) (p : Port) (s st : Nat) : Dev :=
  let l := pgLFR p
  ((d.put l (LFR.ALIGN_STATE.at s) st).put l (LFR.ALIGN_MISSES.at s) 0).putBit l LFR.STATUS_ALIGNED s (st == 5)

/-- The subcarriers that the live K leaves out go OFF, those it brings in begin to hunt (R249). -/
def Dev.alignCount (d : Dev) (p : Port) : Dev :=
  (List.range 8).foldl (fun d s =>
    let st := d.get (pgLFR p) (LFR.ALIGN_STATE.at s)
    if s = 0 then d
    else if d.rxK p ≤ s then (if st = 0 then d else d.alignPut p s 0)
    else if st = 0 ∧ d.flag (pgLFR p) LFR.CTL_RX_EN = true then d.alignPut p s 1
    else d) d

/-- The receive symbol rate or subcarrier number has changed: the calibration round ends and a RATE pass is asked for
(R112), acquisition and equalisation restart (R139, R165), and the monitor window is given up (R178). -/
def Dev.rxMoved (d : Dev) (p : Port) : Dev :=
  let d := ((d.lcalRate p).acqRestart p).eqRestart p true  -- those the new K brings in
  (d.monAbort p).alignCount p

/-- R131: an applied dispersion beyond the limit of the live rate and profile is clamped. -/
def Dev.cdcLimit (d : Dev) (p : Port) : Dev :=
  let v := sOf 24 (d.get (pgCDC p) CDC.APPLIED_D)
  d.when (decide (4 * (d.cdcDmax p : Int) < v.natAbs)) (·.cdcApply p v)

/-- What follows the takes of one moment on a port, judged on the live values after all of them: rate conflicts, the deck period of
each direction, slots, client errors and cipher capacity (R174, R194, R276, R286, R292, R323, R538); `tx` when a transmit side was taken. (DEDUCED: log 251) -/
def Dev.takesDone (d old : Dev) (p : Port) (tx : Bool) : Dev :=
  let d := (d.rateCheck p).when (periodMoves (old.txCfg p) (d.txCfg p)) (·.txRestart old p true)
  let d := d.when (periodMoves (old.rxCfg p) (d.rxCfg p)) (·.rxRestart p)
  (trussEval 1 (trussEval 0 (d.when tx Dev.rate3Check))).cliCheck.capTake old

/-- The live values of a receive side of line die `p` have changed. -/
def Dev.lineRxFx (d old : Dev) (p : Port) (b : Block) : Dev :=
  match b with
  | .adc =>
    let moved := old.rxBaud p != d.rxBaud p
    let d := d.when moved fun d =>
      let d := ((d.putb (pgADC p) ADC.RETUNE true).put (pgADC p) ADC.STATUS_RUN 0).rxMoved p
      (d.cdcLimit p).when (d.get (pgCDC p) CDC.CTL_MODE == 0) fun d => (d.srchDrop p).srchStart p 0
    d
  | .cdc =>
    let d := d.when (old.rxK p != d.rxK p) (·.rxMoved p)
    d.cdcTake p
  | .nlc => d.nlcTake p (old.flag (pgNLC p) NLC.CTL_EN)
  | .dmp => d.scaleTake p
  | .fec => d.when (old.rxTrestle p != d.rxTrestle p) fun d =>
      ((((d.rxProfileTake p).tapsProfile p).nlcStatus p).cdcLimit p).ejAll p
  | _ => d

/-- The live values of a transmit side of line die `p` have changed. -/
def Dev.lineTxFx (d old : Dev) (p : Port) (b : Block) : Dev :=
  match b with
  | .dac => d.when (old.txBaud p != d.txBaud p) (·.putb (pgDAC p) DAC.RETUNE true)
  | .fec =>
    let moved := old.flag (pgFEC p) FEC.CTL_TX_PROFILE != d.flag (pgFEC p) FEC.CTL_TX_PROFILE
    d.when moved (·.ev (pgFEC p) 6)
  | _ => d

/-- The live values of a side of a hub page have changed: slot tables (R276, R277), clients (R301) and tributaries
(R336). -/
def Dev.hubFx (d old : Dev) (b : Block) (inst : Nat) (tx : Bool) (target : Nat) : Dev :=
  match b with
  | .map =>
    let p : Port := Fin.ofNat 2 inst
    let d :=
      if tx then
        let d := d.mapUpd p fun m => { m with takeAt := some target }
        ((d.txRestart old p false).usedUpd p).slotConflict p
      else (d.ejAll p).usedUpd p
    d
  | .enc => d.encTake old tx
  | _ => d

/-- The take of one side of a page: its pending values become live and act (R65, R66); what takes of the same moment bring about
together is `takesDone`. -/
def Dev.sideTake (d : Dev) (pg : Nat) (tx : Bool) (target : Nat) : Dev :=
  let old := d
  let d := d.takeSide pg (if tx then .rwst else .rwsr)
  match pageInfo pg with
  | none => d
  | some i =>
    let d := match i.die with
      | some p => if tx then d.lineTxFx old p i.row.blk else d.lineRxFx old p i.row.blk
      | none => d.hubFx old i.row.blk i.inst tx target
    d.encCheck

/-! ### Takes (R65, R69–R72, R636) -/

/-- A side of a page's commit is taken; `forced` when R69 brings it about. -/
def Dev.commitTake (d : Dev) (pg : Nat) (tx forced : Bool) : Dev :=
  match AMap.find? d.commits pg with
  | none => d
  | some c =>
    if (tx && c.tx) || (!tx && c.rx) then d
    else
      let d := d.when forced fun d => (d.putb pg COMMON.COMMIT_STAT_RX_FORCED true).cmtOutcome c.port pg 46 6
      let d := d.sideTake pg tx c.target
      let alone := tx && !hasRx pg
      let c := { c with tx := c.tx || tx, rx := c.rx || !tx || alone, forced := c.forced || forced }
      let c := { c with waits := 0, force := c.tx && !c.rx && !d.rxValid c.port }
      let d := (d.putb pg COMMON.COMMIT_STAT_TX_TAKEN c.tx).putb pg COMMON.COMMIT_STAT_RX_TAKEN c.rx
      if c.tx && c.rx then
        let r := if c.forced then 6 else 1
        let d := { d with commits := AMap.erase d.commits pg }
        let d := ((d.put pg COMMON.COMMIT_HI_ARM 0).put pg COMMON.COMMIT_STAT_STATE 3).put pg COMMON.COMMIT_STAT_RESULT r
        d.cmtOutcome c.port pg 44 r
      else ({ d with commits := AMap.insert d.commits pg c }).put pg COMMON.COMMIT_STAT_STATE 2

/-- One side is taken and the other waits. (DEDUCED: log 29) -/
def Commit.partly (c : Commit) : Bool := c.tx != c.rx

/-- The commits of a port that meet a condition, as they stand, each given to `f` in page order. -/
def Dev.overCommits (d : Dev) (p : Port) (sel : Commit → Bool) (f : Nat → Commit → Dev → Dev) : Dev :=
  (d.commits.filter fun e => e.2.port == p && sel e.2).foldl (fun d e => f e.1 e.2 d) d

/-- A side of some commit of the port has been taken since `old`. -/
def Dev.tookSide (d old : Dev) (p : Port) (tx : Bool) : Bool :=
  let done (c : Commit) : Bool := if tx then c.tx else c.rx
  old.commits.any fun e => e.2.port == p && !done e.2 && (match AMap.find? d.commits e.1 with | none => true | some c => done c)

/-- Takes of one moment: those that `f` brings about over the commits selected, and what follows them together. -/
def Dev.takeOver (d : Dev) (p : Port) (sel : Commit → Bool) (f : Nat → Commit → Dev → Dev) : Dev :=
  let r := d.overCommits p sel f
  let tx := r.tookSide d p true
  if tx || r.tookSide d p false then (r.takesDone d p tx).encCheck else r

/-- The waiting side of a commit is forced (R69). -/
def forceSide (pg : Nat) (c : Commit) (d : Dev) : Dev := if c.tx then d.commitTake pg false true else d.commitTake pg true true

/-- A transmit frame boundary: the receive sides to be forced are taken (R69). (DEDUCED: log 31) -/
def Dev.forceDue (d : Dev) (p : Port) : Dev := d.takeOver p (fun c => c.force && !c.rx) fun pg _ d => d.commitTake pg false true

/-- The wait limit of R69 and R636, in transmit span boundaries. -/
def Dev.rxWait (d : Dev) (p : Port) : Nat := max 1 (d.get (pgLFR p) LFR.SPAN_CTL_RXWAIT)

/-- A transmit span boundary: it counts for each side that waits, and ends the wait at the limit (R69, R636); a transmit
side whose target span begins is left to its own take. -/
def Dev.waitCount (d : Dev) (p : Port) : Dev :=
  let lim := d.rxWait p
  d.takeOver p (fun c => c.partly && !(c.rx && c.target == d.txSpan p)) fun pg c d =>
    if lim ≤ c.waits + 1 then forceSide pg c d
    else { d with commits := AMap.insert d.commits pg { c with waits := c.waits + 1 } }

/-- The transmit counter stops: every waiting side is forced (R636). -/
def Dev.stopForce (d : Dev) (p : Port) : Dev := d.takeOver p Commit.partly forceSide

/-- The transmit or receive counter reaches the first frame of a span: the sides whose target it is are taken (R68,
R70). -/
def Dev.spanTakes (d : Dev) (p : Port) (tx : Bool) : Dev :=
  let s := if tx then d.txSpan p else d.rxSpan p
  d.takeOver p (fun c => c.target == s && !(if tx then c.tx else c.rx)) fun pg _ d =>
    if tx || hasRx pg then d.commitTake pg tx false else d

/-- The receive counter has moved: a receive side whose target it has passed is to be forced, and one whose target
begins now is taken (R69). (DEDUCED: log 30) -/
def Dev.rxJump (d : Dev) (p : Port) : Dev :=
  let s := d.rxSpan p
  let d := d.when (d.get (pgLFR p) LFR.SPAN_RXPOS_FRAME == 0) (·.spanTakes p false)
  d.overCommits p (fun c => !c.rx && decide (diff48 c.target s ≤ 0)) fun pg c d =>
    if hasRx pg then { d with commits := AMap.insert d.commits pg { c with force := true } } else d

/-- Every armed commit that names a port is cancelled (R62, R67, R583). -/
def Dev.cancelPort (d : Dev) (p : Port) : Dev := d.overCommits p (fun _ => true) fun pg _ d => d.commitCancel pg

/-! ### The arm (R60–R63, R70, R627) -/

/-- A page whose staged fields all belong to the receive side (R70). -/
def rxOnly (pg : Nat) : Bool := hasRx pg && !hasTx pg

/-- The first frame of span `target` lies at or before the sampling instant on a counter that stands at `span`; `near`
says the next boundary does too (R61). -/
def lateOn (target span : Nat) (near : Bool) : Bool := decide (diff48 target span ≤ if near then 1 else 0)

/-- R61 and R70: the target is late on a counter the page uses. -/
def Dev.armLate (d : Dev) (pg : Nat) (p : Port) (target : Nat) (nearTx nearRx : Bool) : Bool :=
  let tx := lateOn target (d.txSpan p) nearTx
  let rx := d.rxValid p && lateOn target (d.rxSpan p) nearRx
  if rxOnly pg then (if d.rxValid p then rx else tx) else tx || (hasRx pg && rx)

/-- R63 and R70: the commit armed on the page may not be replaced. (DEDUCED: log 33) -/
def Dev.armBusy (d : Dev) (pg : Nat) (old : Commit) : Bool :=
  let q := old.port
  let now := if rxOnly pg && d.rxValid q then d.rxSpan q else d.txSpan q
  old.tx || old.rx || decide (diff48 old.target now ≤ 2)

/-- The refusal that an arm meets, 0 for none: 4 NOCNT, 2 LATE, 3 BUSY, in that order (R627). (DEDUCED: log 34) -/
def Dev.armRefusal (d : Dev) (pg : Nat) (p : Port) (target : Nat) (nearTx nearRx : Bool) : Nat :=
  if !d.txRun p || !d.online p then 4
  else if d.armLate pg p target nearTx nearRx then 2
  else match AMap.find? d.commits pg with
    | none => 0
    | some old => if d.armBusy pg old then 3 else 0

/-- An accepted arm (R63, R70, R71). -/
def Dev.armAccept (d : Dev) (pg : Nat) (p : Port) (target : Nat) : Dev :=
  let again := (AMap.find? d.commits pg).isSome
  let d := [COMMON.COMMIT_STAT_TX_TAKEN, COMMON.COMMIT_STAT_RX_TAKEN, COMMON.COMMIT_STAT_RX_FORCED,
    COMMON.COMMIT_STAT_WR_DROP].foldl (fun d f => d.put pg f 0) d
  let d := (d.putb pg COMMON.COMMIT_STAT_REPLACED again).put pg COMMON.COMMIT_STAT_STATE 1
  let c : Commit := ⟨target, p, false, false, false, false, 0⟩
  let d := ({ d with commits := AMap.insert d.commits pg c }).put pg COMMON.COMMIT_HI_ARM 1
  d.when (rxOnly pg && decide (diff48 target (d.txSpan p) ≤ 0)) (·.commitTake pg true false)

/-- COMMIT_LO and COMMIT_HI written (R60); on a line-die page PORT stays its die's number (R42). -/
def Dev.armWrite (d : Dev) (pg : Nat) (lo hi : Nat) : Dev :=
  let d := (d.put pg COMMON.COMMIT_LO_TARGET_LO lo).put pg COMMON.COMMIT_HI_TARGET_HI hi
  d.when (pagePort pg).isNone (·.put pg COMMON.COMMIT_HI_PORT (hi / 2 ^ 16))

/-- The evaluation of an arm (R60, R627). (DEDUCED: log 246) -/
def Dev.armEval (d : Dev) (pg : Nat) (nearTx nearRx : Bool) : Dev :=
  let p : Port := if d.flag pg COMMON.COMMIT_HI_PORT then 1 else 0
  let target := d.getLH pg COMMON.COMMIT_LO_TARGET_LO COMMON.COMMIT_HI_TARGET_HI
  let r := d.armRefusal pg p target nearTx nearRx
  if r = 0 then d.armAccept pg p target
  else (d.put pg COMMON.COMMIT_STAT_RESULT r).cmtOutcome p pg 45 r

/-- A 64-bit write of COMMIT_LO and COMMIT_HI with ARM (R60); a page without staged fields has no usable COMMIT (R42), and a
page without a block no register at all (R37). (DEDUCED: log 18) -/
def commitArmDo (pg lo hi : Nat) (nearTx nearRx : Bool) (d : Dev) : Dev :=
  let go (d : Dev) : Dev := if staged pg then (d.armWrite pg lo hi).armEval pg nearTx nearRx else d
  match pagePort pg with
  | some p => d.hostLine p go
  | none => if (pageInfo pg).isNone then d.ev pgSYS 1 else go d

/-! ### Validity of the receive counter (R57, R58, R69) -/

/-- The receive counter loses its validity (R58): waiting receive sides are to be forced (R69), a waiting ADOPT is
dropped (R55), timed commands on it fail (R439), and what follows it closes. -/
def Dev.rxInvalid (d : Dev) (p : Port) (src : Nat) : Dev :=
  if d.rxValid p then
    let l := pgLFR p
    let d := (d.putb l LFR.SPAN_RXPOS_VALID false).ev l src
    let d := d.when (d.get l LFR.SET_WAIT == 2) (·.put l LFR.SET_WAIT 0)
    let d := d.overCommits p (fun c => c.tx && !c.rx) fun pg c d =>
      { d with commits := AMap.insert d.commits pg { c with force := true } }
    (((d.hgNoCnt p false).tlRxLost p).calWindow p)
  else d

/-- COMMIT_ARM. -/
def execCommitArm (pg : BitVec 10) (lo hi : Word) (nearTx nearRx : Bool) (s : State) : Host.Outcome State Fault Refusal :=
  s.run (commitArmDo pg.toNat lo.toNat hi.toNat nearTx nearRx)

end Sys2Proof.Machine
end

