-- ==== Sys2Proof/Machine/Boundary.lean ====
section
/-! DEFINITION.  The span counters and their boundaries (R53–R58), the framer, alignment (R248–R250) and the section
overhead (R251, R252). -/

namespace Sys2Proof.Machine

/-- Consecutive disagreements of valid anchor headers with the receive counter (R58). -/
def LFR.SPAN_BAD : Fld := hid 20 2 0

/-- The subcarriers whose overhead copy of the frame under way has arrived (R252). -/
def LFR.SOH_GOT : Fld := hid 24 8 0
/-- The frame whose copies are held, and the last one taken; 4,096 while it is not known (R252). -/
def LFR.SOH_AT : Fld := hid 40 13 4096
def LFR.SOH_DONE : Fld := hid 44 13 4096
/-- The frame of the last header of a subcarrier in LOCK. -/
def LFR.SUB_POS : Fld := ⟨0x1080, 0, 13, .ro, 0, 8, 4, false⟩

/-- The overhead copies of the frame under way, by subcarrier (R251). -/
def LFR.SOH_COPY : Fld := ⟨0x1040, 0, 64, .ro, 0, 4, 8, false⟩

/-- The anchor has been in LOCK since RX_EN was set: before that, ordinary subcarriers stay in HUNT (R23). (DEDUCED: log 250) -/
def LFR.ANCHORED : Fld := hid 28 1 0

/-! ### The transmit counter (R53–R56) -/

/-- A transmit counter takes frame 0 of a span index (R53, R55). -/
def Dev.txPut (d : Dev) (p : Port) (span frame : Nat) : Dev :=
  (d.putLH (pgLFR p) LFR.SPAN_TX_LO_SPAN LFR.SPAN_TX_HI_SPAN span).put (pgLFR p) LFR.SPAN_TXPOS_FRAME frame

/-- A SET or ADOPT takes effect: the counter takes its value, the commits and timed commands of the port are cancelled
(R55, R67, R438). -/
def Dev.spanSet (d : Dev) (p : Port) (adopt : Bool) : Dev :=
  let l := pgLFR p
  let v := if adopt then (d.rxSpan p + 1) % m48 else d.getLH l LFR.SPAN_SET_LO_VALUE LFR.SPAN_SET_HI_VALUE
  let d := (d.txPut p v 0).put l LFR.SET_WAIT 0
  ((d.cancelPort p).hgCancel p).ev l 40

/-- The subframe headers of a transmitted frame, as the bits each subcarrier sends on X and on Y, with the live mode code and the section
overhead on every subcarrier (R191, R245, R246, R251). -/
def Dev.headersOut (d : Dev) (p : Port) (f : Nat) : Dev :=
  let soh := d.sohSent p f
  d.emit (.headers p ((List.range (d.txK p)).map fun s =>
    let h := headerBits f (d.txSpan p) s (sentCode (d.txCfg p).code) soh
    (ofBits h.1, ofBits h.2)))

/-- The frame that starts is sent with its section overhead, SCC cell and headers; outside a sent frame the SCC has no cell under way
(R87, R211, R251, R255). -/
def Dev.frameOut (d : Dev) (p : Port) (f : Nat) : Dev :=
  let d := d.sohFrame p
  let d := if d.framesSent p then ((d.sccCellTx p f).headersOut p f) else d.when (f % 4 == 0) (·.sccUpd p fun s => { s with cell := [] })
  let d := d.putb (pgDAC p) DAC.CUT (d.flag (pgDAC p) DAC.RETUNE)
  d.fecUpd p fun x => { x with txBips := FMap.set x.txBips ((f + 4095) % 4096) 0 }

/-- What a transmitted carrier frame does, whatever span it opens: DAC trims and mute (R98, R117), the test pattern
(R211), the shaper's counters (R195), the section overhead (R251), the SCC cell (R255) and the headers (R245). -/
def Dev.txFrameFx (d : Dev) (p : Port) : Dev :=
  let f := d.get (pgLFR p) LFR.SPAN_TXPOS_FRAME
  let d := (d.cnFrame p).dacTrimApply p
  let d := (d.put (pgDAC p) DAC.MUTE_LIVE (d.get (pgDAC p) DAC.LANE_CTL_MUTE)).patApply p
  let d := d.when (!d.flag (pgDAC p) DAC.RETUNE) (·.txsFrame p f)
  (d.frameOut p f).calWindow p

/-- A carrier frame has been sent: its lanes' samples are corrected, delayed, levelled, clipped, predistorted and converted, and what was
clipped is counted; nothing of a frame any part of which falls inside a retune (R87, R97, R98, R190, R206–R211). (DEDUCED: log 71) (DEDUCED: log 272) -/
def Dev.lanesOut (d : Dev) (p : Port) (f : TxFrame) : Dev :=
  let d :=
    if !d.txRun p || d.flag (pgDAC p) DAC.RETUNE || d.flag (pgDAC p) DAC.CUT then d
    else
      let d := (List.finRange 4).foldl (fun d (l : Fin 4) =>
        let r := d.laneFrame p l (f.writes.map (·.toNat)) (d.laneSamples p f l)
        (d.clipLane p l.val r.2).when (d.dacDrives p l)
          (·.emit (.lane p l.val (r.1.zipIdx.map fun c => d.dacOut p l c.2 c.1)))) d
      d.when (d.get (pgTXS p) TXS.PAT_LIVE == 2) fun d =>
        d.put (pgTXS p) TXS.TONE_AT ((d.get (pgTXS p) TXS.TONE_AT + (f.x.length - 64)) % (12 * d.txBaud p))
  d.convUpd p fun c => { c with pdOld := [] }

/-- The channel 0 messages of a span's first cells: QL_ANNOUNCE, TIME_TX and TIME_RX (R380, R405), in front of what
waits. (DEDUCED: log 45) -/
def Dev.spanMessages (d : Dev) (p : Port) : Dev :=
  let l := [d.qlAnnounceMsg p] ++ (d.timeTxMsg p).toList ++ (d.timeRxMsg p).toList
  d.sccUpd p fun s => { s with tx0 := l ++ s.tx0 }

/-- The first frame of a transmit span: decks and units from the start (R222, R260), time captures, takes (R68), and the span's own messages. -/
def Dev.txSpanFx (d : Dev) (p : Port) : Dev :=
  let d := (d.mapUpd p fun m => { m with txDeck := 0 }).fecUpd p FecState.txSpan
  ((d.tlTxBoundary p).spanTakes p true).spanMessages p

/-- The transmit frame index passes 4,095: the span index increments, or takes what a SET or ADOPT left waiting (R53,
R55); waits are counted (R636), the sides whose target it is are taken (R68). -/
def txSpanDo (p : Port) (d : Dev) : Dev :=
  let w := d.get (pgLFR p) LFR.SET_WAIT
  let d := d.put (pgLFR p) LFR.CMT_SEEN 0
  let d := if w = 0 then ((d.txPut p ((d.txSpan p + 1) % m48) 0).waitCount p).forceDue p else d.spanSet p (w == 2)
  (d.txSpanFx p).txFrameFx p

/-- The framer stops at this frame boundary: the counter stands at frame 0 of span S + 1, a SET or ADOPT that waits acts
at once, sides to be forced and waiting sides are forced (R54, R55, R69, R636). -/
def Dev.txStop (d : Dev) (p : Port) : Dev :=
  let l := pgLFR p
  let w := d.get l LFR.SET_WAIT
  let d := (d.put l LFR.CMT_SEEN 0).putb l LFR.CMT_STOP true
  let d := (d.txPut p ((d.txSpan p + 1) % m48) 0).putb l LFR.SPAN_TXPOS_RUN false
  let d := d.when (w != 0) (·.spanSet p (w == 2))
  let d := (((d.forceDue p).stopForce p).putb l LFR.CMT_STOP false).putb l LFR.CMT_SEEN false
  let d := (d.put (pgDAC p) DAC.MUTE_LIVE (d.get (pgDAC p) DAC.LANE_CTL_MUTE)).patApply p
  d.dacTrimApply p

/-- Entry to Bascule is under way: both transmitters are to stop (R583). -/
def PWR.ENTERING : Fld := hid 0 1 0

/-- The framer has been told to stop (R54, R277, R583). (DEDUCED: log 38) -/
def Dev.stopDue (d : Dev) (p : Port) : Bool := !d.flag (pgLFR p) LFR.CTL_TX_EN || d.flag pgPWR PWR.ENTERING

/-- A transmit frame boundary that does not pass frame 4,095 (R53, R69). -/
def txFrameDo (p : Port) (d : Dev) : Dev :=
  let l := pgLFR p
  (((d.put l LFR.CMT_SEEN 0).forceDue p).put l LFR.SPAN_TXPOS_FRAME (d.get l LFR.SPAN_TXPOS_FRAME + 1)).txFrameFx p

/-- A transmit frame boundary: the frame that ends leaves the lanes; the framer stops at it, or the counter advances (R53, R54). (DEDUCED: log 37) -/
def txBoundary (p : Port) (span : Bool) (tx : TxFrame) (d : Dev) : Dev := d.lineDo p fun d =>
  if !d.txRun p then d
  else
    let d := d.lanesOut p tx
    if d.stopDue p then d.txStop p
    else if span || d.get (pgLFR p) LFR.SPAN_TXPOS_FRAME == 4095 then txSpanDo p d
    else txFrameDo p d

/-- FRAMER_STOP: the boundary at which framing ends. -/
def framerStopDo (p : Port) (tx : TxFrame) (d : Dev) : Dev := d.lineDo p fun d =>
  if d.txRun p && d.stopDue p then (d.lanesOut p tx).txStop p else d

/-- The transmit framer starts: the counter runs from frame 0 of the span it holds (R54), with LONG sampled (R202) and the
first frame sent. (DEDUCED: log 39) -/
def Dev.txStart (d : Dev) (p : Port) : Dev :=
  let l := pgLFR p
  let d := (d.putb l LFR.SPAN_TXPOS_RUN true).putb (pgTXS p) TXS.LONG_LIVE (d.flag (pgTXS p) TXS.SYN_CTL_LONG)
  ((((d.put l LFR.CMT_SEEN 0).rateCheck p).forceDue p).txSpanFx p).txFrameFx p

/-- R636: the boundary that ends a wait of the port comes next. -/
def Dev.waitEnds (d : Dev) (p : Port) : Bool :=
  d.commits.any fun e => e.2.port == p && e.2.partly && decide (d.rxWait p ≤ e.2.waits + 1)

/-- RXWAIT_EXPIRY: the transmit span boundary that ends a wait; nothing when no wait ends at the next one. (DEDUCED: log 32) -/
def rxwaitDo (p : Port) (tx : TxFrame) (d : Dev) : Dev := if d.waitEnds p then txBoundary p true tx d else d

/-- A host write of LFR_SPAN_CTL: RXWAIT, then SET, else ADOPT (R55). (DEDUCED: log 36) -/
def spanCtlWrite (p : Port) (w : Word) (d : Dev) : Dev := d.hostLine p fun d =>
  let l := pgLFR p
  let d := d.putW l LFR.SPAN_CTL_RXWAIT w
  let go (adopt : Bool) (d : Dev) : Dev := if d.txRun p then d.put l LFR.SET_WAIT (if adopt then 2 else 1) else d.spanSet p adopt
  if bitOf w.toNat 0 then go false d
  else if bitOf w.toNat 1 && d.rxValid p then go true d
  else d

/-! ### The receive counter (R53, R57, R58) -/

/-- The receive counter takes a position. -/
def Dev.rxPut (d : Dev) (p : Port) (span frame : Nat) : Dev :=
  (d.putLH (pgLFR p) LFR.SPAN_RX_LO_SPAN LFR.SPAN_RX_HI_SPAN span).put (pgLFR p) LFR.SPAN_RXPOS_FRAME frame

/-- What a received carrier frame does: the frame's overranges (R93), the equaliser's frame (R139) and the monitor window's (R178). -/
def Dev.rxFrameFx (d : Dev) (p : Port) : Dev := ((d.adcFrame p).eqFrame p).monFrame p

/-- The first frame of a receive span: takes, time capture, the announcement count and the calibration window. -/
def Dev.rxSpanFx (d : Dev) (p : Port) : Dev := (((d.tlRxBoundary p).spanTakes p false).qlSpan p).calWindow p

/-- A frame boundary of the decoder: at that of frame 0 the units of a new span begin (R222, R223). -/
def Dev.decFrame (d : Dev) (p : Port) (span : Bool) : Dev :=
  d.when (d.flag (pgFEC p) FEC.STATUS_DEC_ACTIVE && (span || d.get (pgLFR p) LFR.FRAME_POS == 4095)) (·.rxUnits p)

/-- A received frame boundary: the blocks that have come enter the decoder (R223), and the counter advances while it is valid (R53, R57,
R58). -/
def rxBoundary (p : Port) (span : Bool) (blocks : List RxBlock) (d : Dev) : Dev := d.lineDo p fun d =>
  let l := pgLFR p
  let f := d.get l LFR.SPAN_RXPOS_FRAME
  let wraps := d.rxValid p && (span || f == 4095)
  let d := (d.rxBlocks p blocks).decFrame p wraps
  let d :=
    if !d.rxValid p then d
    else if wraps then (d.rxPut p ((d.rxSpan p + 1) % m48) 0).rxSpanFx p
    else (d.put l LFR.SPAN_RXPOS_FRAME (f + 1)).when (f == 4094) (·.lcalLast p)
  d.rxFrameFx p

/-- A SPAN_ANNOUNCE arrives: in anchor LOCK, agreeing with the header of its frame, it makes the counter valid (R57). -/
def spanAnnounceDo (p : Port) (span hdrSpan hdrFrame : Nat) (d : Dev) : Dev := d.lineDo p fun d =>
  let l := pgLFR p
  if d.aligned p 0 && !d.rxValid p && span % 2 ^ 16 == hdrSpan then
    let d := ((d.rxPut p span hdrFrame).putb l LFR.SPAN_RXPOS_VALID true).ev l 41
    ((d.put l LFR.SPAN_BAD 0).rxJump p).calWindow p
  else d

/-! ### Section overhead (R251, R252) -/

/-- The section overhead of a frame as the receiver takes it: BIP-16 is held for the decks of the frame before, BEI and BDI are shown
(R251–R253). -/
def Dev.sohApply (d : Dev) (p : Port) (soh : Nat) : Dev :=
  let l := pgLFR p
  let bei := bitsOf soh 43 5
  let bei := if 16 < bei then 0 else bei
  let bdi := bitOf soh 42
  let d := d.when (d.flag (pgFEC p) FEC.STATUS_DEC_ACTIVE) (·.mapUpd p fun m =>
    { m with bips := m.bips ++ [((d.get l LFR.FRAME_POS + 4095) % 4096, bitsOf soh 48 16)] })
  let d := ((d.put l LFR.SOH_RX_RX_BEI bei).bump l LFR.SBEI bei).putb l LFR.SOH_RX_RX_BDI bdi
  d.follow l LFR.STATUS_FAR_BDI bdi (some 17) (some 18)

/-- Each bit by majority over copies, a tie to the first (R252). (DEDUCED: log 43) -/
def sohVote (anchor : Nat) (copies : List Nat) : Nat :=
  (List.range 64).foldl (fun a i =>
    let ones := copies.countP (bitOf · i)
    let b := if 2 * ones = copies.length then bitOf anchor i else decide (copies.length < 2 * ones)
    a + (if b then 2 ^ i else 0)) 0

/-- The subcarriers in LOCK. -/
def Dev.lockedSubs (d : Dev) (p : Port) : List Nat := (List.range 8).filter fun s => d.aligned p s

/-- The vote of R252 applies. -/
def Dev.sohVotes (d : Dev) (p : Port) : Bool :=
  d.flag (pgLFR p) LFR.CTL_SOH_VOTE && d.aligned p 0 && decide (3 ≤ (d.lockedSubs p).length)

/-- The overhead of the frame under way has been taken. -/
def Dev.sohTaken (d : Dev) (p : Port) : Dev :=
  let l := pgLFR p
  ((d.put l LFR.SOH_DONE (d.get l LFR.SOH_AT)).put l LFR.SOH_GOT 0).put l LFR.SOH_AT 4096

/-- The overhead of the frame under way is taken once it is complete: the copies of all subcarriers in LOCK where the vote
applies, the anchor's alone otherwise (R252). -/
def Dev.sohTry (d : Dev) (p : Port) : Dev :=
  let l := pgLFR p
  let got := d.get l LFR.SOH_GOT
  if d.sohVotes p then
    let subs := d.lockedSubs p
    if subs.all (bitOf got ·) then
      (d.sohTaken p).sohApply p (sohVote (d.get l (LFR.SOH_COPY.at 0)) (subs.map fun x => d.get l (LFR.SOH_COPY.at x)))
    else d
  else if bitOf got 0 then (d.sohTaken p).sohApply p (d.get l (LFR.SOH_COPY.at 0)) else d

/-- A subcarrier's copy of the section overhead of frame `f` arrives.  Copies of one frame are held; one of another frame, or a
second one of the same subcarrier, opens a new frame, and a frame whose overhead has been taken is past (R251, R252). -/
def Dev.sohCopy (d : Dev) (p : Port) (s f soh : Nat) : Dev :=
  let l := pgLFR p
  if f ≠ 4096 ∧ f = d.get l LFR.SOH_DONE then d
  else
    let cur := d.get l LFR.SOH_AT
    let d := d.when (bitOf (d.get l LFR.SOH_GOT) s || (f != 4096 && cur != 4096 && f != cur)) fun d =>
      (d.put l LFR.SOH_GOT 0).put l LFR.SOH_AT 4096
    let d := d.when (f != 4096) (·.put l LFR.SOH_AT f)
    ((d.put l (LFR.SOH_COPY.at s) soh).putBit l LFR.SOH_GOT s true).sohTry p

/-! ### Alignment (R248–R250) -/

/-- The anchor leaves LOCK: everything received under it ends (R58, R223, R252, R259, R277, R635). -/
def Dev.anchorLost (d : Dev) (p : Port) : Dev :=
  let l := pgLFR p
  let d := d.rxInvalid p 42
  let d := ((d.put l LFR.SOH_RX_RX_BEI 0).put l LFR.SOH_RX_RX_BDI 0).put l LFR.STATUS_FAR_BDI 0
  let d := (((d.put l LFR.SOH_GOT 0).put l LFR.SOH_AT 4096).put l LFR.SOH_DONE 4096).put l LFR.FRAME_POS 4096
  let was := d.sccUp p
  let d := (d.sccDown p).when was (·.kaLinkDown p)
  let d := ((d.decStop p).foAnchorLost p).subcLost p 0
  let d := d.mapUpd p fun m => { m with bips := [] }
  ((d.sdefUpd p).encCheck).clkEval false

/-- The index of the receive frame whose anchor header has come: the header's, or the next one where its CRC fails (R223, R250). -/
def Dev.framePos (d : Dev) (p : Port) (hdr : Option LineHdr) : Dev :=
  let was := d.get (pgLFR p) LFR.FRAME_POS
  d.put (pgLFR p) LFR.FRAME_POS (match hdr with | some h => h.frame.toNat | none => if was = 4096 then 4096 else (was + 1) % 4096)

/-- The anchor enters LOCK (R248, R165). -/
def Dev.anchorLock (d : Dev) (p : Port) (hdr : Option LineHdr) : Dev :=
  let d := (((d.alignPut p 0 5).putb (pgLFR p) LFR.ANCHORED true).framePos p hdr).ev (pgLFR p) 0
  (((d.acqAligned p).eqAlign p 0).sdefUpd p).clkEval false

/-- The fields of a fitting header (R278). -/
def Dev.hdrShow (d : Dev) (p : Port) (s : Nat) (h : LineHdr) : Dev :=
  let l := pgLFR p
  ((d.put l (LFR.ALIGN_FRAME.at s) h.frame.toNat).put l (LFR.ALIGN_MODE.at s) h.mode.toNat).put l (LFR.ALIGN_SC.at s) h.sc.toNat

/-- The mode code of a checked anchor header: RXMODE, and the span miss from the third mismatch in a row (R81). -/
def Dev.modeCheck (d : Dev) (p : Port) (code : Nat) : Dev :=
  let l := pgLFR p
  let d := d.put l LFR.SPAN_RXPOS_RXMODE code
  if code = sentCode (d.rxCfg p).code then d.put l LFR.MODE_BAD 0
  else
    let n := d.get l LFR.MODE_BAD
    (d.put l LFR.MODE_BAD (min 3 (n + 1))).when (n == 2) (·.ev l 47)

/-- A checked anchor header against the receive counter; the third disagreement in a row clears its validity (R58). -/
def Dev.spanCheck (d : Dev) (p : Port) (h : LineHdr) : Dev :=
  let l := pgLFR p
  if !d.rxValid p then d.put l LFR.SPAN_BAD 0
  else if h.frame.toNat = d.get l LFR.SPAN_RXPOS_FRAME ∧ h.span.toNat = d.rxSpan p % 2 ^ 16 then d.put l LFR.SPAN_BAD 0
  else if 2 ≤ d.get l LFR.SPAN_BAD then (d.put l LFR.SPAN_BAD 0).rxInvalid p 43
  else d.bump l LFR.SPAN_BAD 1

/-- The fields of an anchor header in LOCK (R250): a CRC failure discards them and is counted. -/
def Dev.anchorFields (d : Dev) (p : Port) (hdr : Option LineHdr) : Dev :=
  let d := d.framePos p hdr
  match hdr with
  | none => d.bump (pgLFR p) LFR.HDR_CRC 1
  | some h => (((d.hdrShow p 0 h).modeCheck p h.mode.toNat).spanCheck p h).sdefUpd p

/-- An anchor header position (R248); in LOCK its fields are looked at, at the third miss too (R250). (DEDUCED: log 41) -/
def anchorDo (p : Port) (corr : Nat) (hdr : Option LineHdr) (soh : Nat) (d : Dev) : Dev := d.lineDo p fun d =>
  let l := pgLFR p
  let hit := decide (d.get l LFR.CTL_SYNC_THR ≤ corr)
  let st := d.get l (LFR.ALIGN_STATE.at 0)
  if st = 1 then (if hit then d.alignPut p 0 3 else d)
  else if st = 3 then (if hit then d.anchorLock p hdr else (d.alignPut p 0 1).bump l LFR.FALSE_CAND 1)
  else if st = 5 then
    let n := if hit then 0 else d.get l (LFR.ALIGN_MISSES.at 0) + 1
    let d := d.bump l LFR.ANCHOR_MISS (if hit then 0 else 1)
    if n = 3 then (((d.anchorFields p hdr).alignPut p 0 1).ev l 8).anchorLost p
    else
      let d := (d.put l (LFR.ALIGN_MISSES.at 0) n).anchorFields p hdr
      d.sohCopy p 0 (d.get l LFR.FRAME_POS) soh
  else d

/-- A header fits (R249). -/
def Dev.hdrFits (d : Dev) (p : Port) (s : Nat) (first : Bool) (h : LineHdr) : Bool :=
  h.sc.toNat == s && (first || h.frame.toNat == (d.get (pgLFR p) (LFR.ALIGN_FRAME.at s) + 1) % 4096)

/-- A header position of an ordinary subcarrier (R249).  In HUNT a position whose correlation reaches CORR_THR is CHECK's
position, and its header is the one checked.  When a port is brought up the anchor aligns first (R23). (DEDUCED: log 40) -/
def subHeaderDo (p : Port) (s : Fin 8) (corr : Nat) (hdr : Option LineHdr) (soh : Nat) (d : Dev) : Dev := d.lineDo p fun d =>
  let l := pgLFR p
  let st := if d.flag l LFR.ANCHORED then d.get l (LFR.ALIGN_STATE.at s.val) else 0
  let fits (first : Bool) : Bool := match hdr with | some h => d.hdrFits p s.val first h | none => false
  let hit := decide (d.get l LFR.CTL_CORR_THR ≤ corr)
  let shown := if st = 1 then hit && fits true else decide (3 ≤ st) && fits false
  let pos := match hdr with
    | some h => if shown then h.frame.toNat else (d.get l (LFR.SUB_POS.at s.val) + 1) % 4096
    | none => (d.get l (LFR.SUB_POS.at s.val) + 1) % 4096
  let d := match hdr with | some h => d.when shown (·.hdrShow p s.val h) | none => d.when (st == 5) (·.bump l LFR.HDR_CRC 1)
  let d := d.when (decide (4 ≤ st)) (·.put l (LFR.SUB_POS.at s.val) pos)
  if st = 1 then
    if !hit then d
    else if fits true then d.alignPut p s.val 3 else d.bump l LFR.FALSE_CAND 1
  else if st = 3 then d.alignPut p s.val (if fits false then 4 else 1)
  else if st = 4 then
    if fits false then (((d.alignPut p s.val 5).ev l s.val).eqAlign p s).sohCopy p s.val pos soh
    else d.alignPut p s.val 1
  else if st = 5 then
    let n := if fits false then 0 else d.get l (LFR.ALIGN_MISSES.at s.val) + 1
    if n = 5 then (((d.alignPut p s.val 1).ev l (8 + s.val)).subcLost p s).sohTry p
    else (d.put l (LFR.ALIGN_MISSES.at s.val) n).sohCopy p s.val pos soh
  else d

/-- Alignment switched on or off by RX_EN (R248, R249, R254). (DEDUCED: log 42) -/
def Dev.alignEnable (d : Dev) (p : Port) (on : Bool) : Dev :=
  let d := d.putb (pgLFR p) LFR.ANCHORED false
  if on then (d.alignPut p 0 1).alignCount p
  else
    let was := d.aligned p 0
    let d := (List.finRange 8).foldl (fun d s => d.alignPut p s.val 0) d
    let d := (List.finRange 8).foldl (fun d s => if s.val = 0 then d else d.subcLost p s) d
    d.when was (·.anchorLost p)

/-- A host write of LFR_CTL (R54, R254, R277, R278). -/
def lfrCtlWrite (p : Port) (w : Word) (d : Dev) : Dev := d.hostLine p fun d =>
  let l := pgLFR p
  let rx := d.flag l LFR.CTL_RX_EN
  let d := d.putWs l [LFR.CTL_TX_EN, LFR.CTL_RX_EN, LFR.CTL_SOH_VOTE, LFR.CTL_BDI_FORCE, LFR.CTL_CORR_THR, LFR.CTL_SYNC_THR] w
  let now := d.flag l LFR.CTL_RX_EN
  let d := d.when (now != rx) (·.alignEnable p now)
  let d := d.sdefUpd p
  d.when (!d.stopDue p && !d.txRun p) (·.txStart p)

/-! ### The commands -/

/-- SCC_CELL_RX: the cell; tributaries held for the SCC are released when it comes up, an exchange fails when it goes down,
and the quality level of the line reference follows (R258, R341, R372, R380). -/
def execSccCellRx (p : Port) (cell : List (BitVec 8)) (locked : Bool) (s : State) :
    Host.Outcome State Fault Refusal :=
  s.run fun d =>
    let was := d.sccUp p
    let d := sccCellRx p (cell.map (·.toNat)) locked d
    let now := d.sccUp p
    ((d.when (now != was) (·.encCheck)).when (was && !now) (·.kaLinkDown p)).when (now != was) (·.clkEval false)

/-- TX_FRAME_BOUNDARY. -/
def execTxFrameBoundary (p : Port) (tx : TxFrame) (s : State) : Host.Outcome State Fault Refusal :=
  s.run (txBoundary p false tx)

/-- TX_SPAN_BOUNDARY. -/
def execTxSpanBoundary (p : Port) (tx : TxFrame) (s : State) : Host.Outcome State Fault Refusal :=
  s.run (txBoundary p true tx)

/-- RX_FRAME_BOUNDARY. -/
def execRxFrameBoundary (p : Port) (blocks : List RxBlock) (s : State) : Host.Outcome State Fault Refusal :=
  s.run (rxBoundary p false blocks)

/-- RX_SPAN_BOUNDARY. -/
def execRxSpanBoundary (p : Port) (blocks : List RxBlock) (s : State) : Host.Outcome State Fault Refusal :=
  s.run (rxBoundary p true blocks)

/-- TX_EN_SET: a write of LFR_CTL whose TX_EN is 1. -/
def execTxEnSet (p : Port) (w : Word) (s : State) : Host.Outcome State Fault Refusal := s.run (lfrCtlWrite p (w ||| 1#32))

/-- TX_EN_CLEAR: a write of LFR_CTL whose TX_EN is 0. -/
def execTxEnClear (p : Port) (w : Word) (s : State) : Host.Outcome State Fault Refusal :=
  s.run (lfrCtlWrite p (w &&& 0xFFFFFFFE#32))

/-- FRAMER_STOP. -/
def execFramerStop (p : Port) (tx : TxFrame) (s : State) : Host.Outcome State Fault Refusal :=
  s.run (framerStopDo p tx)

/-- SET: a write of LFR_SPAN_CTL whose SET bit is 1. -/
def execSet (p : Port) (w : Word) (s : State) : Host.Outcome State Fault Refusal := s.run (spanCtlWrite p (w ||| 1#32))

/-- ADOPT: a write of LFR_SPAN_CTL whose ADOPT bit is 1; SET acts when that bit is 1 too. -/
def execAdopt (p : Port) (w : Word) (s : State) : Host.Outcome State Fault Refusal := s.run (spanCtlWrite p (w ||| 2#32))

/-- SPAN_ANNOUNCE_RX. -/
def execSpanAnnounceRx (p : Port) (span : BitVec 48) (hdrSpan : BitVec 16) (hdrFrame : BitVec 12) (s : State) :
    Host.Outcome State Fault Refusal := s.run (spanAnnounceDo p span.toNat hdrSpan.toNat hdrFrame.toNat)

/-- ANCHOR_HEADER. -/
def execAnchorHeader (p : Port) (corr : BitVec 9) (hdr : Option LineHdr) (soh : BitVec 64) (s : State) :
    Host.Outcome State Fault Refusal := s.run (anchorDo p corr.toNat hdr soh.toNat)

/-- SUBCARRIER_HEADER. -/
def execSubcarrierHeader (p : Port) (x : Fin 7) (corr : BitVec 9) (hdr : Option LineHdr) (soh : BitVec 64) (s : State) :
    Host.Outcome State Fault Refusal := s.run (subHeaderDo p x.succ corr.toNat hdr soh.toNat)

/-- RXWAIT_EXPIRY. -/
def execRxwaitExpiry (p : Port) (tx : TxFrame) (s : State) : Host.Outcome State Fault Refusal :=
  s.run (rxwaitDo p tx)

end Sys2Proof.Machine
end

