-- ==== Sys2Proof/Machine/Chain.lean ====
section
/-! DEFINITION.  The two signal chains put together: from the ADC codes of a port to the symbols the demapper is given (R126–R128,
R161), and from the payload symbols of the matcher to the codes the DACs convert (R190, R201–R204).  No command carries the
single samples; what `RxBlock` and `TxFrame` hold is what these functions compute.  The spec gives no widths inside the
chains, so values are integers in the units the docstrings name. -/

namespace Sys2Proof.Machine

/-! ### Overlap-save blocks (R126, R202) -/

/-- The sample at which block `b` of an overlap-save filter begins: each block keeps `n − cut` samples and overlaps its neighbours by
`cut`, half at either end. (DEDUCED: log 278) -/
def olsStart (n cut : Nat) (b : Int) : Int := b * (n - cut : Nat) - (cut / 2 : Nat)

/-- The block that gives sample `t`, and where in it the sample stands. -/
def olsPlace (n cut : Nat) (t : Int) : Int × Nat :=
  let b := t / (n - cut : Nat)
  (b, (t - olsStart n cut b).toNat)

/-- The discrete Fourier transform of `n` points at index `k`, in 2^-64. -/
def dft (n : Nat) (x : Nat → Cx) (k : Nat) : Cx :=
  Cx.sum ((List.range n).map fun (i : Nat) => (x i).turn (-(k * i : Nat)) n)

/-- `n` times the inverse transform at a place in the block, in 2^-64. -/
def idft (n : Nat) (spec : Nat → Cx) (i : Nat) : Cx :=
  Cx.sum ((List.range n).map fun (k : Nat) => (spec k).turn (k * i : Nat) n)

/-! ### Receive (R126–R128, R161) -/

/-- The points and the discarded samples of a CDC block (R126). -/
def Dev.cdcPlan (d : Dev) (p : Port) : Nat × Nat :=
  let l := fftPlan (d.rxTrestle p)
  (l.1, l.2.1)

/-- The spectrum of block `b` of a stream (R126). -/
def Dev.cdcSpectrum (d : Dev) (p : Port) (x : Int → Cx) (b : Int) : Nat → Cx :=
  let l := d.cdcPlan p
  dft l.1 fun (i : Nat) => x (olsStart l.1 l.2 b + i)

/-- A bin lies in the band of a subcarrier: within half the spacing of its centre (R128). (DEDUCED: log 279) -/
def Dev.inBand (d : Dev) (p : Port) (s i : Nat) : Bool :=
  let n := (d.cdcPlan p).1
  decide ((2 * 1200000 * (d.rxBaud p : Int) * binOf n i - d.rxCentre2 p s * n).natAbs ≤
    subcSpacing (d.rxBaud p) (d.rxK p) (rolloffOf (d.get (pgCDC p) CDC.SC_CTL_ROLLOFF)) * n)

/-- Sample `j` of a subcarrier as it leaves the CDC, at 2 samples per subcarrier symbol: the block that holds its instant, filtered and
turned back by the coarse rotation, cut to the subcarrier's band, moved to its centre and taken at the instant, 3 K j / 5 ADC
samples; in 2^-139 of the codes' unit times the FFT size (R126–R128, R164). -/
def Dev.subcSample (d : Dev) (p : Port) (s : Nat) (x : Int → Cx) (j : Int) : Cx :=
  let l := d.cdcPlan p
  let n : Int := (l.1 : Nat)
  let k : Int := (d.rxK p : Nat)
  let b := (olsPlace l.1 l.2 (3 * k * j / 5)).1
  let t0 := olsStart l.1 l.2 b
  let spec := d.cdcBlock p (d.cdcSpectrum p x b)
  let hz12 : Int := 12 * 1000000 * (d.rxBaud p : Nat)
  Cx.sum (((List.range l.1).filter (d.inBand p s)).map fun i =>
    (spec i).turn (binOf l.1 i * (3 * k * j - 5 * t0) * hz12 - 15 * d.rxCentre2 p s * k * j * n) (5 * n * hz12))

/-- The T/2 samples of a subcarrier on the two polarisations from the codes of the four lanes: the streams of R126, the CDC, the timing
interpolator and the level control (R161, R162). -/
def Dev.subcStreams (d : Dev) (p : Port) (s : Nat) (v : Int → Fin 4 → Int) : (Int → Cx) × (Int → Cx) :=
  let one (pol : Nat) (i : Int) : Cx :=
    let x (n : Int) : Cx := let c := d.cdcStreams p (v n); if pol = 0 then c.1 else c.2
    let r := (d.eq.get p).interpolate s (d.subcSample p s x) i
    (Config.rxLevel r.1, Config.rxLevel r.2)
  (one 0, one 1)

/-- The butterfly's outputs for symbol k of a subcarrier, in 1/256 of the amplitude unit (R137, R161). -/
def Dev.mimoOut (d : Dev) (p : Port) (s : Nat) (v : Int → Fin 4 → Int) (k : Int) : Cx × Cx :=
  let x := d.subcStreams p s v
  let r := (d.eq.get p).butterfly s x.1 x.2 k
  let out (a : Cx) : Cx := (nearest a.1 256, nearest a.2 256)
  (out r.1, out r.2)

/-- What is known beside the samples: the phases of a subcarrier's pilots on the two polarisations by symbol index ÷ 64, the track of the
blind search where those do not count yet, and the values of symbols in header and pilot positions (R143, R165, R169). -/
structure RxKnown where
  pilots : Nat → Int → Int
  track : Nat → Int → Int
  known : Nat → Int → Option Cx

/-- Symbol k of a subcarrier as the NLC hands it on, X and Y in 2^-47 of 1/256: the perturbation is formed from symbols decided on the
pilot phase (R142, R143, R161, R170). -/
def Dev.nlcSymbols (d : Dev) (p : Port) (s : Fin 8) (v : Int → Fin 4 → Int) (z : RxKnown) (k : Int) : Cx × Cx :=
  let n := ampCount (formatOf (d.rxCfg p).e256)
  let sym (pol : Nat) (i : Int) : Cx :=
    let y := d.mimoOut p s.val v i
    nlcSymbol n (z.known pol i) (if pol = 0 then y.1 else y.2) (d.pilotTrack p s (z.pilots pol) i)
  let u := d.mimoOut p s.val v k
  d.nlcOut p s u.1 u.2 (sym 0) (sym 1) k

/-- Symbol k of a subcarrier on a polarisation after phase correction, in 1/256 of the amplitude unit: coarse derotation in the CDC's
block, subcarrier extraction, timing interpolator, MIMO, NLC, then pilot-aided estimation with blind phase search, as R161 orders
them.  The symbols of an `RxBlock` are these (R161, R169). -/
def Dev.rxSymbol (d : Dev) (p : Port) (s : Fin 8) (pol : Nat) (v : Int → Fin 4 → Int) (z : RxKnown) (k : Int) : Cx :=
  let n := ampCount (formatOf (d.rxCfg p).e256)
  let y (i : Int) : Cx :=
    let r := d.nlcSymbols p s v z i
    let c := if pol = 0 then r.1 else r.2
    (nearest c.1 (2 ^ 47), nearest c.2 (2 ^ 47))
  let out := derotate (y k) (d.symbolPhase p s n (z.pilots pol) (z.track pol k) y k)
  (nearest out.1 (2 ^ 64), nearest out.2 (2 ^ 64))

/-- A matcher block as the demapper gets it, from the payload symbols' indices (R161, R195). -/
def Dev.rxBlockOf (d : Dev) (p : Port) (s : Fin 8) (pol : Bool) (noise : BitVec 32) (v : Int → Fin 4 → Int) (z : RxKnown)
    (idx : List Int) : RxBlock :=
  ⟨s, pol, noise, idx.map (d.rxSymbol p s (b2n pol) v z)⟩

/-! ### Transmit (R190, R201–R204) -/

/-- The symbols of subcarrier K-spaced by 6 K / 5 samples that stand in a block's points, by index. -/
def synRange (n cut k : Nat) (b : Int) : List Int :=
  let t0 := olsStart n cut b
  let lo := -(-(5 * t0) / (6 * k : Nat))
  let hi := -(-(5 * (t0 + (n : Nat))) / (6 * k : Nat))
  (List.range (hi - lo).toNat).map fun (i : Nat) => lo + i

/-- The spectrum of synthesis block `b` of a polarisation at index `i`: each subcarrier's symbols at its slot, shaped by the root of its
raised cosine and scaled by its gain; `sym s m` is symbol m of subcarrier s, in 2^-16 of the amplitude unit, the answer in 2^-103
of that (R128, R201, R202). -/
def Dev.synSpectrum (d : Dev) (p : Port) (sym : Nat → Int → Cx) (b : Int) (i : Nat) : Cx :=
  let l := d.synPlan p
  let n : Int := (l.1 : Nat)
  let k := d.txK p
  let mbd : Int := (d.txBaud p : Nat)
  let ro := rolloffOf (d.get (pgTXS p) TXS.SC_CTL_ROLLOFF)
  let bin := binOf l.1 i
  let t0 := olsStart l.1 l.2 b
  Cx.sum ((List.range k).map fun s =>
    let g : Int := (isqrtBig (d.synSquare p s (bin * 1200000 * mbd / n)).toNat : Nat)
    let c2 := subcCentre2 (d.txBaud p) k ro s
    let r := Cx.sum ((synRange l.1 l.2 k b).map fun m =>
      (sym s m).turn (10 ^ 7 * mbd * bin * t0 - 12 * 10 ^ 6 * mbd * bin * (k : Nat) * m + 5 * n * c2 * (k : Nat) * m) (10 ^ 7 * mbd * n))
    (g * r.1, g * r.2))

/-- Sample `t` of a polarisation after synthesis and pre-compensation, given the port before and after a take at the symbol that opens
the span, at sample 0: the first block that holds a symbol of the span works with the new values (R190, R201, R202, R204, R213).  In
2^-178 of the symbols' unit times the block's points. -/
def Dev.synSample (old new : Dev) (p : Port) (sym : Nat → Int → Cx) (t : Int) : Cx :=
  let l := new.synPlan p
  let r := olsPlace l.1 l.2 t
  let d := if 0 < olsStart l.1 l.2 r.1 + (l.1 : Nat) then new else old
  idft l.1 (d.preBlock p (d.synSpectrum p sym r.1)) r.2

/-- The symbol stream of a subcarrier on a polarisation from the start of a span, in 2^-16 of the amplitude unit: subframe after subframe
of header, pilots and payload (R190, R195, R244). -/
def Dev.txSymbols (d : Dev) (p : Port) (pol : Nat) (soh : Nat → Nat) (matcher : Nat → Nat → List Cx) (s : Nat) (m : Int) : Cx :=
  let len : Int := (subframeSymbols (d.txK p) : Nat)
  let f := (m / len).toNat
  (d.subframe p s pol f (soh f) (matcher f s)).getD (m % len).toNat (0, 0)

/-- The signal of the frame whose first sample is `t0`, of `count` samples: what a `TxFrame` holds (R190, R201–R204). -/
def Dev.txFrameOf (old new : Dev) (p : Port) (soh : Nat → Nat) (matcher : Nat → Nat → Nat → List Cx) (before : Nat → Nat → Int → Cx)
    (t0 : Int) (count : Nat) (writes : List (BitVec 18)) : TxFrame :=
  let sym (pol s : Nat) (m : Int) : Cx := if m < 0 then before pol s m else new.txSymbols p pol soh (matcher pol) s m
  let one (pol : Nat) : List Cx := (List.range (count + 64)).map fun (i : Nat) => old.synSample new p (sym pol) (t0 + i - 32)
  ⟨one 0, one 1, writes⟩

/-- The codes a lane's DAC converts in the frame, through all eight stages of R190: matcher symbols placed among headers and pilots,
synthesised and pre-compensated, corrected, delayed, levelled and clipped, predistorted (R190, R97, R98). -/
def Dev.txChain (old new : Dev) (p : Port) (lane : Fin 4) (soh : Nat → Nat) (matcher : Nat → Nat → Nat → List Cx)
    (before : Nat → Nat → Int → Cx) (t0 : Int) (count : Nat) (writes : List (BitVec 18)) : List Int :=
  let f := old.txFrameOf new p soh matcher before t0 count writes
  let r := new.laneFrame p lane (writes.map (·.toNat)) (new.laneSamples p f lane)
  r.1.zipIdx.map fun c => new.dacOut p lane c.2 c.1

end Sys2Proof.Machine
end

