-- ==== Sys2Proof/Machine/Power.lean ====
section
/-! DEFINITION.  Power, reset, supply monitoring and Bascule (R572–R593), and the boot's end (R350, R497). -/

namespace Sys2Proof.Machine

/-! ### Model fields -/

/-- A WAKE written during entry waits for it (R587). -/
def PWR.WAKE_PEND : Fld := hid 4 1 0
/-- An ENTER written during a wake waits for READY (R587). -/
def PWR.ENTER_PEND : Fld := hid 8 1 0
/-- Rails that reached their reset level and are not yet back within their warning level (R572, R580). -/
def PWR.DOWN : Fld := hid 12 9 0
/-- A sensor is above CRIT (R581). -/
def PWR.CRIT_NOW : Fld := hid 16 1 0

/-- Both ports. -/
def bothPorts : List Port := [0, 1]

/-! ### Gating a line die (R582–R586) -/

/-- A key of a line-die page. -/
def dieKey (p : Port) (k : Nat) : Bool := keyPage k / 256 == 2 + p.val

/-- The converters as retention restores them: trims with band and temperature, the retired slices and what serves the
positions; a round under way is given up first (R115, R584, R586). -/
def ConvState.retained (c : ConvState) : ConvState :=
  let c := c.abort
  let keep (s : SubDac) : SubDac := { s with suspect := false, range := false, stale := false, retries := 0 }
  { ConvState.reset with
    slices := c.slices.map fun e => (e.1, { e.2 with suspect := false, stale := false, retries := 0, ovr := 0 })
    subs := (c.dacPend.foldl (fun m e => AMap.insert m e.1 e.2) c.subs).map fun e => (e.1, keep e.2) }

/-- An address of a memory of line die `p`: its pier engines, its triplet table, its trim sets and its other memories. -/
def dieAddr (p : Port) (a : Nat) : Bool :=
  let m := a / 2 ^ 32
  let o := a % 2 ^ 32
  (m == 3 && o / (80 * 0x8000) == p.val) || m == 4 + p.val || m == 7 + p.val || m == 9 + p.val

/-- The memories of a line die, and its buckets, start afresh (R522, R538). -/
def Dev.dieMemory (d : Dev) (p : Port) : Dev :=
  let d := { d with mem := d.mem.filter fun e => !dieAddr p e.1, syn := d.syn.filter fun e => !dieAddr p (8 * e.1) }
  (List.range 4).foldl (fun d i => d.put pgECC (ECC.BKT_LEVEL.at (5 + 4 * p.val + i)) 0) d

/-- The hub's side of a port whose die is gone: every client restarts, joints empty, the SCC reassembly is lost (R277, R583,
R586). -/
def Dev.portEmpty (d : Dev) (p : Port) : Dev :=
  let d := (List.finRange 32).foldl (fun d (c : Fin 32) =>
    if (d.rxSlots p c.val).isEmpty then d else d.ejSet p c 0) (d.ejEmpty p)
  let d := ((d.txRestart d p true).rxRestart p).mapUpd p fun m => { m with tx := m.tx.map fun e => (e.1, { e.2 with joint := [], part := [] }) }
  let d := d.sccUpd p fun s => { s with rx0 := ⟨false, [], 0⟩, rx1 := ⟨false, [], 0⟩, rx2 := ⟨false, [], 0⟩, good := 0, bad := 0, cell := [] }
  d.mapUpd p fun m => { m with txDeck := 0, rxDeck := 0, bips := [], takeAt := none }

/-- What a port loses before its die is gated or reset: armed commits (R62), timed commands (R440), the converter pass
(R115). -/
def Dev.portCancel (d : Dev) (p : Port) : Dev := ((d.cancelPort p).hgNoCnt p true).lcalAbandon p

/-- A line die loses its power or is reset: its pages at reset values, its memories at zero, its clusters OFF, its modules
DOWN without an event, its reference lost; what retention holds is kept (R493, R538, R582–R586). (DEDUCED: log 199) -/
def Dev.dieDown (d : Dev) (p : Port) : Dev :=
  let d := ((d.portCancel p).anchorLost p).portEmpty p
  let trims := (d.conv.get p).retained
  let e0 := EqState.reset
  let held := d.flag (pgLDSYS p) LDSYS.HELD
  let d := (d.wipe (dieKey p)).wipeEvents fun g => g / 256 == 2 + p.val
  let d := { d with conv := d.conv.set p trims, eq := d.eq.set p e0, fec := d.fec.set p FecState.reset, occ := d.occ.filter fun k => k / 64 / 256 != 2 + p.val }
  let d := ((d.dieMemory p).putb (pgLDSYS p) LDSYS.HELD held).putb (pgLDSYS p) LDSYS.RESTORE true
  let d := d.putBit pgSYS SYS.STATUS_LD_READY p.val false
  let d := (d.putb pgPWR PWR.STATUS_READY false).putBit pgPERFW PERFW.GATED p.val true
  let d := (List.range 3).foldl (fun d m => (d.put (pgTRS p) (TRS.MOD_STATE.at m) 0).put (pgTRS p) (TRS.streak m) 0) d
  let d := dieClustersDown p (modShow p d)
  ((refLosDo (4 + p.val) d).encPortFresh p).cliCheck.encCheck

/-! ### Bascule (R581, R583, R585, R587) -/

/-- Entry starts: cancellations, and the order to both framers to stop; the line dies are gated by BASCULE_IN (R583). -/
def Dev.enterStart (d : Dev) (thermal : Bool) : Dev :=
  let d := bothPorts.foldl (fun d p => d.portCancel p) d
  let d := d.putb pgPWR PWR.STATUS_THERM_CRIT thermal
  (d.putb pgPWR PWR.ENTERING true).putb pgPWR PWR.ENTER_PEND false

/-- The wake starts: both dies are powered (R585). (DEDUCED: log 196) -/
def Dev.wakeStart (d : Dev) : Dev :=
  let d := bothPorts.foldl (fun d p => d.putb (pgLDSYS p) LDSYS.GATED false) d
  let d := (d.putb pgPWR PWR.STATUS_BASCULE false).putb pgSYS SYS.STATUS_BASCULE false
  (d.putb pgPWR PWR.STATUS_WAKING true).putb pgPWR PWR.WAKE_PEND false

/-- PWR_THERM.WARN as it acts, °C. -/
def Dev.warnAt (d : Dev) : Nat := clampN 60 125 (d.get pgPWR PWR.THERM_WARN)

/-- PWR_THERM.CRIT as it acts, °C. -/
def Dev.critAt (d : Dev) : Nat := clampN (min 125 (d.warnAt + 5)) 125 (d.get pgPWR PWR.THERM_CRIT)

/-- A sensor stays above WARN. -/
def Dev.hot (d : Dev) : Bool := decide ((16 * d.warnAt : Int) < sOf 16 (d.get pgPWR PWR.TEMP_MAX_TEMP))

/-- A write of PWR_BASCULE: ENTER, then WAKE (R583, R585, R587). -/
def pwrBascule (w : Word) (d : Dev) : Dev :=
  let d :=
    if !bitOf w.toNat 0 || d.flag pgPWR PWR.STATUS_BASCULE || d.flag pgPWR PWR.ENTERING then d
    else if d.flag pgPWR PWR.STATUS_WAKING then d.putb pgPWR PWR.ENTER_PEND true
    else d.enterStart false
  if !bitOf w.toNat 1 || d.hot then d
  else if d.flag pgPWR PWR.STATUS_BASCULE then d.wakeStart
  else if d.flag pgPWR PWR.ENTERING then d.putb pgPWR PWR.WAKE_PEND true
  else d

/-- BASCULE_IN: the entry under way reaches its gating (R583). -/
def basculeInDo (d : Dev) : Dev :=
  if !d.flag pgPWR PWR.ENTERING then d
  else
    let d := bothPorts.foldl (fun d p => (d.dieDown p).putb (pgLDSYS p) LDSYS.GATED true) d
    let d := (d.putb pgPWR PWR.ENTERING false).putb pgPWR PWR.STATUS_WAKING false
    let d := (d.putb pgPWR PWR.STATUS_BASCULE true).putb pgSYS SYS.STATUS_BASCULE true
    let d := (d.bump pgPWR PWR.BASCULE_ENTRIES 1).ev pgPWR 4
    d.when (d.flag pgPWR PWR.WAKE_PEND) Dev.wakeStart

/-- Converters of a port more than 3 °C from the capture temperature of some trim set (R586); `temps` by lane, 1/16 °C. -/
def ConvState.moved (c : ConvState) (temps : Nat → Int) : Bool :=
  let far (t : Int) (lane : Nat) : Bool := decide (48 < (t - temps lane).natAbs)
  (allKeys.any fun k => (c.slice k).role != 4 && far (c.slice k).temp (k / 256)) ||
    (List.range 64).any fun i => far (c.sub i).temp (i / 16)

/-- The trims of a port are loaded after a wake, at the temperatures given: a WAKE pass when they have moved (R586). -/
def Dev.trimsBack (d : Dev) (p : Port) (temps : Nat → Nat) : Dev :=
  let d := (List.range 4).foldl (fun d l => d.put (pgLCAL p) (LCAL.TEMP_NOW.at l) (temps l)) d
  let moved := (d.conv.get p).moved fun l => sOf 16 (temps l)
  (d.dacTrimApply p).when moved (·.lcalTrigger p 6 true none)

/-- WAKE_DONE: both dies are filled, clocked and joined, and their converters settled (R585); the trims of the dies that were
gated or reset are loaded (R14, R586); an ENTER that waited starts (R587). (DEDUCED: log 200) -/
def wakeDoneDo (temps : List Nat) (d : Dev) : Dev :=
  if !(d.flag pgPWR PWR.STATUS_WAKING && d.online 0 && d.online 1) then d
  else
    let d := bothPorts.foldl (fun d p => d.when (d.flag (pgLDSYS p) LDSYS.RESTORE) fun d =>
      (d.trimsBack p fun l => temps.getD (4 * p.val + l) 0).putb (pgLDSYS p) LDSYS.RESTORE false) d
    let d := ((d.putb pgPWR PWR.STATUS_WAKING false).putb pgPWR PWR.STATUS_READY true).ev pgPWR 5
    d.when (d.flag pgPWR PWR.ENTER_PEND) (·.enterStart false)

/-! ### Temperature (R581) -/

/-- The hottest of the eight die sensors and its number. -/
def hottest (temps : List Nat) : Nat × Int :=
  (List.range 8).foldl (fun a i => let t := sOf 16 (temps.getD i 0); if a.2 < t then (i, t) else a) (0, sOf 16 (temps.getD 0 0))

/-- The die temperatures are read: the warning rises above WARN, falls 3 °C below it, and a sensor that rises above CRIT
forces Bascule (R581, R587). (DEDUCED: log 197) -/
def thermDo (temps : List Nat) (d : Dev) : Dev :=
  let h := hottest temps
  let d := (d.put pgPWR PWR.TEMP_MAX_TEMP (sTo 16 h.2)).put pgPWR PWR.TEMP_MAX_SENSOR h.1
  let warn : Int := 16 * d.warnAt
  let was := d.flag pgPWR PWR.STATUS_THERM_WARN
  let d := d.when (!was && decide (warn < h.2)) fun d =>
    ((d.putb pgPWR PWR.STATUS_THERM_WARN true).bump pgPWR PWR.THERM_WARNS 1).ev pgPWR 2
  let d := d.when (was && decide (h.2 ≤ warn - 48)) fun d => (d.putb pgPWR PWR.STATUS_THERM_WARN false).ev pgPWR 8
  let crit := decide ((16 * d.critAt : Int) < h.2)
  let rise := crit && !d.flag pgPWR PWR.CRIT_NOW
  let d := d.putb pgPWR PWR.CRIT_NOW crit
  if rise && d.flag pgPWR PWR.CTL_CRIT_BASCULE && !d.flag pgPWR PWR.STATUS_BASCULE && !d.flag pgPWR PWR.ENTERING then
    let d := (d.putb pgPWR PWR.STATUS_WAKING false).putb pgSYS SYS.RESET_CAUSE_THERMAL true
    (d.enterStart true).ev pgPWR 3
  else d

/-! ### Rails (R572, R574, R578–R580) -/

/-- The line dies that a rail's reset level resets. -/
def railDies (rail : Nat) : List Port :=
  match rail with | 0 => [0] | 1 => [1] | 3 | 5 => [0, 1] | _ => []

/-- A rail reaches its reset level: it is seen, and below its warning level when it has one (R590). (DEDUCED: log 194) -/
def Dev.railSeen (d : Dev) (rail : Nat) : Dev :=
  let d := (d.putBit pgPWR PWR.RAIL_STAT_SEEN rail true).putBit pgPWR PWR.DOWN rail true
  d.when (decide (rail < 5)) (·.putBit pgPWR PWR.RAIL_STAT_WARN rail true)

/-- The rail of a line die is not monitored in Bascule (R587). -/
def Dev.railIdle (d : Dev) (rail : Nat) : Bool := d.flag pgPWR PWR.STATUS_BASCULE && !(railDies rail).isEmpty

/-- LD_BROWN: the dies of the rail are reset and held (R580, R587). -/
def ldBrownDo (rail : Nat) (d : Dev) : Dev :=
  if d.railIdle rail || (railDies rail).isEmpty then d
  else
    (railDies rail).foldl (fun d p =>
      let d := (d.dieDown p).putb (pgLDSYS p) LDSYS.HELD true
      let d := d.putBit pgSYS SYS.RESET_CAUSE_LD_BROWN p.val true
      (d.putb (pgLDSYS p) LDSYS.GATED false).ev pgPWR (6 + p.val)) (d.railSeen rail)

/-- SDS_BROWN: the host SerDes is held in reset and its lanes go down (R288, R572). -/
def sdsBrownDo (rail : Nat) (d : Dev) : Dev :=
  (List.finRange 32).foldl (fun d l => laneDownDo l true d) ((d.railSeen rail).putb pgSYS SYS.SDS_RST true)

/-- RAIL_RECOVERY: a rail is back within its warning level; a held die whose rails are all back starts its wake, the host
SerDes leaves reset (R572, R580). (DEDUCED: log 195) -/
def railBackDo (rail : Nat) (d : Dev) : Dev :=
  let d := (d.putBit pgPWR PWR.DOWN rail false).when (decide (rail < 5)) (·.putBit pgPWR PWR.RAIL_STAT_WARN rail false)
  let bad (r : Nat) : Bool := bitOf (d.get pgPWR PWR.DOWN) r
  let d := bothPorts.foldl (fun d p =>
    if d.flag (pgLDSYS p) LDSYS.HELD && !(bad p.val || bad 3 || bad 5) then
      (d.putb (pgLDSYS p) LDSYS.HELD false).putb pgPWR PWR.STATUS_WAKING true
    else d) d
  if bad 4 || bad 6 then d else d.putb pgSYS SYS.SDS_RST false

/-- DIP: a dip of a core rail has ended without reaching the reset level; `dur` in 10 ns, `depth` in 0.1 % (R578, R579). -/
def dipDo (rail dur depth : Nat) (d : Dev) : Dev :=
  if d.railIdle rail then d
  else
    let d := ((d.put pgPWR PWR.DIP_LAST_RAIL rail).put pgPWR PWR.DIP_LAST_DUR (satN 16 dur)).put pgPWR PWR.DIP_LAST_DEPTH depth
    let d := ((d.bump pgPWR PWR.DIPS 1).ev pgPWR 0).tcvDip
    if dur ≤ 200 then d
    else
      let d := (d.bump pgPWR PWR.LONG_DIPS 1).ev pgPWR 1
      if rail = 2 then d.calTcvTrigger false
      else (railDies rail).foldl (fun d p => d.lineDo p (·.lcalDip p)) d

/-- AVS_CHG: the die moves its VDD_LD target, by at most 5 mV and within 600 to 700 mV (R574). (DEDUCED: log 198) -/
def avsDo (p : Port) (target : Nat) (d : Dev) : Dev :=
  let pg := pgLDSYS p
  let now := d.get pg LDSYS.AVS_TARGET
  let v := clampN 600 700 (clampN (now - 5) (now + 5) target)
  if d.flag pg LDSYS.GATED || d.flag pg LDSYS.HELD || v == now then d else (d.put pg LDSYS.AVS_TARGET v).ev pg 0

/-- PLL_UNLOCK (R593). (DEDUCED: log 201) -/
def pllUnlockDo (p : Port) (d : Dev) : Dev := d.lineDo p fun d => (d.putb (pgLDSYS p) LDSYS.STATUS_PLL_LOCK false).ev (pgLDSYS p) 1

/-! ### Resets (R373, R357, R575–R577) -/

/-- The straps and the grade, bit 0 BOOT_SRC, bit 1 KS_PROV, bit 2 GRADE (R588, R604). -/
def Dev.strapPut (d : Dev) (v : Nat) : Dev :=
  let d := (d.putb pgSYS SYS.STRAP_BOOT_SRC (bitOf v 0)).putb pgSYS SYS.STRAP_KS_PROV (bitOf v 1)
  (d.putb pgSYS SYS.STRAP_GRADE (bitOf v 2)).putb pgKSMB KSMB.LIFE_PROV (bitOf v 1)

/-- Release of PWRON_N: every state at its reset value but OTP, with the straps sampled; OSPI_RST_N stays low for 10 µs more (R575, R577, R604,
R623). (DEDUCED: log 192) (DEDUCED: log 193) -/
def pwronDo (straps : Nat) (d : Dev) : Dev :=
  let d0 := { Dev.reset with ks := { Keystone.reset with owner := d.ks.owner }, freeCtr := d.freeCtr }
  let d0 := [KSMB.OTP_LIFE, KSMB.OTP_RT, KSMB.OTP_PATCH].foldl (fun x f => x.put pgKSMB f (d.get pgKSMB f)) d0
  (d0.strapPut straps).emit (.ospiRst 10)

/-- A key that RST_N keeps: straps and reset cause, HGL_ID_EXP, the retired pipelines with what counts them, the KSMB page,
the key slots, and which rails are down (R373, R575, R576). -/
def rstKeeps (k : Nat) : Bool :=
  ksKey k || accOf k == some .rwp || (keyPage k == pgSYS && (keyOff k == 0x80 || keyOff k == 0x84 || keyOff k == 0x1000)) ||
    (keyPage k == pgENC && (keyOff k == 0x30 || keyOff k == 0x80 || (decide (0x88 ≤ keyOff k) && decide (keyOff k < 0x98)))) ||
    (keyPage k == pgKEYS && keyOff k == 0x30) || k == fkey pgPWR 0x100C 0

/-- The keystone at RST_N: claims released, a running request aborted, exchanges abandoned; slots, sessions, anchors, debug
state and tamper latch kept; the boot starts again (R357, R373). -/
def Dev.ksRst (d : Dev) : Dev :=
  let busy := d.flag pgKSMB KSMB.MB_STAT_BUSY
  let d := d.when busy fun d =>
    let d := (d.putb pgKSMB KSMB.MB_STAT_BUSY false).putb pgKSMB KSMB.MB_STAT_DONE true
    ((d.put pgKSMB KSMB.MB_STAT_RESULT 13).put pgKSMB KSMB.MB_STAT_RSP_LEN 0).ev pgKSMB 2
  let d := d.put pgKSMB KSMB.MB_STAT_OWNER 0
  let d := bothPorts.foldl (fun d p =>
    if (AMap.find? d.ks.exch p.val).isSome then d.kaState p (if (AMap.find? d.ks.sessions p.val).isSome then 4 else 0) else d) d
  let d := d.ksUpd fun k => { k with
    result := none, rsp := if busy then [] else k.rsp, perst := false, exch := [], hgExch := [], runtime := 0, patch := none, image := none }
  [KSMB.BOOT_STATE, KSMB.SVN_IMAGE, KSMB.SVN_PATCH].foldl (fun d f => d.put pgKSMB f 0) d

/-- RST_N, or an internal reset equal to it: everything but retention and the keystone returns to reset (R575, R577). -/
def Dev.rst (d : Dev) : Dev :=
  let k := d.ksRst
  let e0 := Dev.reset.enc
  let ev0 := Dev.reset.evt
  let inKs (x : Nat × Nat) : Bool := x.1 / 64 == pgKSMB
  let conv : Two ConvState := ⟨(k.conv.get 0).retained, (k.conv.get 1).retained⟩
  let evt : Evt := { ev0 with
    sticky := k.evt.sticky.filter inKs
    unmasked := k.evt.unmasked.filter inKs
    count := k.evt.count.filter fun x => x.1 == pgKSMB
    first := k.evt.first.filter fun x => x.1 == pgKSMB
    asserted := k.evt.asserted.filter inKs }
  let n : Dev := { Dev.reset with
    regs := k.regs.filter fun e => rstKeeps e.1
    evt := evt
    conv := conv
    enc := { e0 with keys := k.enc.keys, ivRec := k.enc.ivRec }
    ks := k.ks
    occ := k.occ
    ticks := k.ticks
    freeCtr := k.freeCtr }
  bothPorts.foldl (fun n p =>
    let bad (r : Nat) : Bool := bitOf (n.get pgPWR PWR.DOWN) r
    n.putb (pgLDSYS p) LDSYS.HELD (bad p.val || bad 3 || bad 5)) n

/-- RST_N (R575, R576). (DEDUCED: log 204) -/
def rstDo (d : Dev) : Dev := d.rst.putb pgSYS SYS.RESET_CAUSE_RST true

/-- HUB_BROWN: a rail of index 2, 7 or 8 reaches its reset level (R572, R576). -/
def hubBrownDo (rail : Nat) (d : Dev) : Dev := (d.rst.railSeen rail).putb pgSYS SYS.RESET_CAUSE_HUB_BROWN true

/-- A HOST request of a DMA channel in flight fails (R558). (DEDUCED: log 203) -/
def Dev.dmaPerst (d : Dev) (c : Nat) : Dev :=
  let s := d.dmaSet c
  let k := d.dmaRd c
  if !d.dmaOut c then d
  else if d.dmaGet c DMA.STAT_STATE = 1 ∧ s.ssp = 0 then d.dmaError c 1 (s.srcAt k)
  else if d.dmaGet c DMA.STAT_STATE = 3 ∧ s.dsp = 0 then d.dmaError c 1 (s.dstAt (k - 1))
  else d

/-- PERST_N: the endpoint is reset, a host mailbox claim released, the rings stop, HOST requests in flight fail (R357, R511,
R558, R575). (PRESUMED: log 202) -/
def perstDo (d : Dev) : Dev :=
  let d := { d with evt := { d.evt with msixEn := false, fmask := false } }
  let d := d.when (d.mbOwns false) fun d =>
    if d.flag pgKSMB KSMB.MB_STAT_BUSY then d.ksUpd fun k => { k with perst := true } else d.put pgKSMB KSMB.MB_STAT_OWNER 0
  (List.range 8).foldl (fun d c => d.dmaPerst c) (mbxPerst d)

/-- The recipe directory of the runtime is copied and locked, and the management cores are released (R350, R497). -/
def Dev.dirLock (d : Dev) (l : List Recipe) : Dev :=
  let l := l.take 256
  let d := d.mgmtUpd fun m => { m with recipes := l }
  let d := (List.range l.length).foldl (fun d i =>
    let r := l.getD i ⟨0, 0, 0⟩
    (d.put pgMGMT (MGMT.RECIPE_DIR_ID.at i) r.id).put pgMGMT (MGMT.RECIPE_DIR_VERSION.at i) r.version) d
  ((d.put pgMGMT MGMT.DIR_ENTRIES l.length).putb pgMGMT MGMT.DIR_LOCKED true).ev pgMGMT 7 |>.put pgMGMT MGMT.STATUS_CORE_RUN 15

/-- BOOT_DONE: the boot ends the state it is in, and in RUN the directory is locked (R350, R353, R497); a boot that waits for a push
or has ended stays. (DEDUCED: log 108) -/
def bootDoneDo (selftest : Bool) (flash : Flash) (dir : List Recipe) (d : Dev) : Dev :=
  let st := d.get pgKSMB KSMB.BOOT_STATE
  let bytes (r : Option (List (BitVec 8))) : Option (List Nat) := r.map fun l => l.map (·.toNat)
  if st = 4 ∨ 6 ≤ st then d
  else
    let d := d.boot selftest (bytes flash.patch) (bytes flash.certs) (bytes flash.slotA) (bytes flash.slotB)
    d.when (d.get pgKSMB KSMB.BOOT_STATE == 6) (·.dirLock dir)

/-! ### The commands -/

/-- DIP. -/
def execDip (rail : Fin 5) (dur : BitVec 32) (depth : BitVec 8) (s : State) : Host.Outcome State Fault Refusal :=
  s.run (dipDo rail.val dur.toNat depth.toNat)

/-- LD_BROWN. -/
def execLdBrown (rail : Fin 9) (s : State) : Host.Outcome State Fault Refusal := s.run (ldBrownDo rail.val)

/-- RAIL_RECOVERY. -/
def execRailRecovery (rail : Fin 9) (s : State) : Host.Outcome State Fault Refusal := s.run (railBackDo rail.val)

/-- SDS_BROWN: VDD_SDS (4), or VDD_SDS_1V2 (6). -/
def execSdsBrown (hv : Bool) (s : State) : Host.Outcome State Fault Refusal := s.run (sdsBrownDo (if hv then 6 else 4))

/-- HUB_BROWN: VDD_HUB (2), VDD_QDR (7) or VDD_IO (8). -/
def execHubBrown (which : Fin 3) (s : State) : Host.Outcome State Fault Refusal :=
  s.run (hubBrownDo (if which = 0 then 2 else 6 + which.val))

/-- AVS_CHG. -/
def execAvsChg (p : Port) (target : BitVec 10) (s : State) : Host.Outcome State Fault Refusal := s.run (avsDo p target.toNat)

/-- THERM_WARN: the eight sensors as they read. -/
def execThermWarn (temps : List (BitVec 16)) (s : State) : Host.Outcome State Fault Refusal := s.run (thermDo (temps.map (·.toNat)))

/-- THERM_CLEAR: the eight sensors as they read. -/
def execThermClear (temps : List (BitVec 16)) (s : State) : Host.Outcome State Fault Refusal :=
  s.run (thermDo (temps.map (·.toNat)))

/-- THERM_CRIT: the eight sensors as they read. -/
def execThermCrit (temps : List (BitVec 16)) (s : State) : Host.Outcome State Fault Refusal := s.run (thermDo (temps.map (·.toNat)))

/-- ENTER: a write of PWR_BASCULE whose ENTER bit is 1. -/
def execEnter (w : Word) (s : State) : Host.Outcome State Fault Refusal := s.run (pwrBascule (w ||| 1#32))

/-- WAKE: a write of PWR_BASCULE whose WAKE bit is 1. -/
def execWake (w : Word) (s : State) : Host.Outcome State Fault Refusal := s.run (pwrBascule (w ||| 2#32))

/-- BASCULE_IN. -/
def execBasculeIn (s : State) : Host.Outcome State Fault Refusal := s.run basculeInDo

/-- WAKE_DONE: the converter temperatures by port × 4 + lane. -/
def execWakeDone (temps : List (BitVec 16)) (s : State) : Host.Outcome State Fault Refusal :=
  s.run (wakeDoneDo (temps.map (·.toNat)))

/-- OSC_IN_LOSS (R619). -/
def execOscInLoss (s : State) : Host.Outcome State Fault Refusal := s.runLoss

/-- PLL_UNLOCK. -/
def execPllUnlock (p : Port) (s : State) : Host.Outcome State Fault Refusal := s.run (pllUnlockDo p)

/-- PWRON_N. -/
def execPwronN (straps : BitVec 3) (s : State) : Host.Outcome State Fault Refusal := s.runReset (pwronDo straps.toNat)

/-- RST_N. -/
def execRstN (s : State) : Host.Outcome State Fault Refusal := s.runReset rstDo

/-- PERST_N. -/
def execPerstN (s : State) : Host.Outcome State Fault Refusal := s.run perstDo

/-- BOOT_DONE: what the keystone finds, and the recipe directory of the image that runs. -/
def execBootDone (selftest : Bool) (flash : Flash) (dir : List (BitVec 16 × BitVec 16 × BitVec 256)) (s : State) :
    Host.Outcome State Fault Refusal :=
  s.run (bootDoneDo selftest flash (dir.map fun r => ⟨r.1.toNat, r.2.1.toNat, r.2.2.toNat⟩))

end Sys2Proof.Machine
end

