-- ==== Sys2Proof/Machine/Read.lean ====
section
/-! DEFINITION.  Host reads of BAR0: the fields that follow other state instead of being stored, the composition of
register words, the pending mirror (R10), and the capture of HI words (R8, R35, R400). -/

namespace Sys2Proof.Machine

/-! ### Model fields -/

/-! ### Fields that follow other state -/

/-- Bits 32 g to 32 g + 31 of a set of numbers as a word. -/
def wordOf (f : Nat → Bool) (g : Nat) : Nat := (List.range 32).foldl (fun a i => a + (if f (32 * g + i) then 2 ^ i else 0)) 0

/-- The source with local number k of a page exists. -/
def hasSrc (pg k : Nat) : Bool := decide (k < numSrc pg)

/-- The page has content at 0x700–0xBFF (R42, CAP.TABLES). -/
def hasTables (pg : Nat) (i : PageInfo) : Bool :=
  (i.row.blk == .evt && decide (1 ≤ i.inst) && decide (i.inst ≤ 4)) ||
    (ownTable pg).any fun f => decide (0x700 ≤ f.off) && decide (f.off < 0xC00)

/-- The page has counters at 0xC00–0xFFF (R42, CAP.COUNTERS). -/
def hasCounters (pg : Nat) : Bool := (ownTable pg).any fun f => f.acc == .cnt && decide (0xC00 ≤ f.off)

/-- The byte ID.INST (R42). -/
def idInst (i : PageInfo) : Nat := match i.die with | none => i.inst | some p => 16 * p.val + i.inst

/-- A field and what its element i reads as. -/
abbrev View := Fld × (Nat → Nat)

/-- The common registers (R42, R43, R45, R71). -/
def Dev.viewCommon (d : Dev) (pg : Nat) (i : PageInfo) : List View :=
  let e := d.evt
  [(COMMON.ID_INST, fun _ => idInst i), (COMMON.ID_TYPE, fun _ => i.row.typ),
   (COMMON.CAP_FIRST_SRC, fun _ => firstSrc pg), (COMMON.CAP_NSRC, fun _ => numSrc pg),
   (COMMON.CAP_STAGED, fun _ => b2n (staged pg)), (COMMON.CAP_TABLES, fun _ => b2n (hasTables pg i)),
   (COMMON.CAP_COUNTERS, fun _ => b2n (hasCounters pg)), (COMMON.CAP_KSF, fun _ => b2n (hasSide .ks pg)),
   (COMMON.COMMIT_STAT_HAS_RX, fun _ => b2n (hasRx pg)), (COMMON.COMMIT_STAT_HAS_TX, fun _ => b2n (hasTx pg)),
   (COMMON.STATUS_EVT_ANY, fun _ => b2n (e.asserted.any fun x => x.1 / 64 == pg)),
   (COMMON.STATUS_ARMED, fun _ => b2n (AMap.find? d.commits pg).isSome),
   (COMMON.STATUS_PEND_DIRTY, fun _ => b2n (d.dirty pg)),
   (COMMON.EVT_STICKY_STICKY, wordOf fun k => hasSrc pg k && FMap.get e.sticky (pg * 64 + k) != 0),
   (COMMON.EVT_MASK_MASK, wordOf fun k => hasSrc pg k && FMap.get e.unmasked (pg * 64 + k) == 0),
   (COMMON.EVT_FIRST_LOCAL, fun _ => bitsOf (FMap.get e.first pg) 0 6),
   (COMMON.EVT_FIRST_MULTI, fun _ => bitsOf (FMap.get e.first pg) 8 1),
   (COMMON.EVT_FIRST_VALID, fun _ => bitsOf (FMap.get e.first pg) 31 1),
   (COMMON.EVT_COUNT_COUNT, fun _ => FMap.get e.count pg)]

/-- Counts of a composition, word w: amplitudes 4 w + 1 and 4 w + 3 (R214), before the other views of a page. -/
def compViews (lo hi : Fld) (e : Nat) (l : List View) : List View :=
  let c := composition e
  (lo, fun w => c.getD (2 * w) 0) :: (hi, fun w => c.getD (2 * w + 1) 0) :: l

/-- The line-die pages. (DEDUCED: log 10) (DEDUCED: log 27) (DEDUCED: log 28) -/
def Dev.viewLine (d : Dev) (pg : Nat) (p : Port) (b : Block) : List View :=
  let c := d.conv.get p
  let sl (k : Nat) : Slice := c.slice (sliceKey (d.get pg ADC.TBL_SEL_LANE) k)
  let tx := d.txCfg p
  let rx := d.rxCfg p
  match b with
  | .adc =>
    [(ADC.SR_MSPS, fun _ => d.adcMsps p),
     (ADC.SPARES_FREE, fun _ => (List.range 4).foldl (fun a l => a + c.freeSpares l * 16 ^ l) 0),
     (ADC.SUSPECT_COUNT, fun _ => (List.range 4).foldl (fun a l => a + c.suspects l * 256 ^ l) 0),
     (ADC.SLICE_OVR, fun k => (sl k).ovr), (ADC.SLICE_POS, fun k => (sl k).pos), (ADC.SLICE_ROLE, fun k => (sl k).role),
     (ADC.SLICE_SUSPECT, fun k => b2n (sl k).suspect), (ADC.SLICE_STALE, fun k => b2n (sl k).stale),
     (ADC.SLICE_RETRIES, fun k => (sl k).retries),
     (ADC.CAP_WIN_DATA, fun k => (List.range 4).foldl
        (fun a j => a + FMap.get c.capBuf (512 * d.get pg ADC.CAP_CTL_WINDOW + 4 * k + j) * 256 ^ j) 0)]
  | .dac =>
    [(DAC.STATUS_CAL_BUSY, fun _ => (List.finRange 4).foldl (fun a l => a + b2n (d.dacUnder p l) * 2 ^ l.val) 0), (DAC.STATUS_STALE, fun _ => c.staleLanes), (DAC.SUB_GAIN, fun k => sTo 8 (c.sub k).trim.gain),
     (DAC.SUB_OFFSET, fun k => sTo 8 (c.sub k).trim.offset), (DAC.SUB_CLK_TAP, fun k => (c.sub k).sel.tap.val),
     (DAC.SUB_SUSPECT, fun k => b2n (c.sub k).suspect), (DAC.SUB_RANGE, fun k => b2n (c.sub k).range),
     (DAC.SUB_STALE, fun k => b2n (c.sub k).stale)]
  | .lcal => [(LCAL.STAT_STALE, fun _ => b2n c.anyStale), (LCAL.STAT_QUEUED, fun _ => b2n (d.lcalQueued p))]
  | .cdc => [(CDC.STATUS_PROFILE, fun _ => b2n (d.rxTrestle p)), (CDC.LIMIT_DMAX, fun _ => d.cdcDmax p)]
  | .nlc => [(NLC.TBL_STAT_VALID, fun _ => d.tblValid p)]
  | .subc =>
    let tap (f : Fld) (k : Nat) : Nat := if d.rxTrestle p && (decide (k % 32 < 10) || decide (20 < k % 32)) then 0 else d.get pg (f.at k)
    [(SUBC.TAPS_RE, tap SUBC.TAPS_RE), (SUBC.TAPS_IM, tap SUBC.TAPS_IM)]
  | .crv => [(CRV.TIM_OFS_PPM, fun _ => if d.flag pg CRV.TIM_SEEN then d.free % 2 ^ 16 else 0)]
  | .dmp =>
    [(DMP.STATUS_AUTO, fun _ => d.get pg DMP.CTL_SCALE_AUTO), (DMP.RATE_LIVE_ENT, fun _ => rx.e256),
     (DMP.RATE_LIVE_MODE, fun _ => sentCode rx.code)]
  | .txs =>
    compViews TXS.COMP_NLO TXS.COMP_NHI tx.e256 [(TXS.STATUS_RUN, fun _ => b2n (d.txRun p)), (TXS.STATUS_FORMAT, fun _ => formatOf tx.e256),
     (TXS.RATE_LIVE_ENT, fun _ => tx.e256),
     (TXS.RATE_LIVE_MODE, fun _ => sentCode tx.code), (TXS.RATE_LIVE_K, fun _ => matcherK tx.e256),
     (TXS.LOSS, fun _ => rateLoss tx.e256), (TXS.PRE_LIMIT_DMAX, fun _ => d.preLimit p)]
  | .fec =>
    compViews FEC.COMP_NLO FEC.COMP_NHI rx.e256 [(FEC.STATUS_RX_PROFILE, fun _ => d.get pg FEC.CTL_RX_PROFILE), (FEC.STATUS_TX_PROFILE, fun _ => d.get pg FEC.CTL_TX_PROFILE),
     (FEC.STATUS_ENC_ACTIVE, fun _ => b2n (d.encActive p)), (FEC.STATUS_INJ, fun _ => b2n (d.injActive p)),
     (FEC.FLOOR, fun _ => d.fecFloor p), (FEC.POOL_OCC, fun _ => d.poolOcc p)]
  | _ => []

/-- The views of EVT0 and of the route pages. -/
def Dev.viewEvt (d : Dev) : List View :=
  let e := d.evt
  [(EVT0.TOP, fun _ => b2n d.topUp), (EVT0.TOP_INTN, fun _ => b2n d.intnLow),
   (EVT0.GRP_SUM_LO_SUM, fun _ => wordOf d.groupUp 0),
   (EVT0.GRP_SUM_HI_SUM, fun _ => wordOf (fun g => decide (g < 36) && d.groupUp g) 1),
   (EVT0.MSIX_PBA_PEND, wordOf fun v => FMap.get e.pba v != 0),
   (EVT0.SRC_ASSERT_ASSERT, wordOf fun s => e.asserted.any fun x => globalSrc x.1 == s)]

/-- The hub pages. -/
def Dev.viewHub (d : Dev) (pg inst : Nat) (b : Block) : List View :=
  let p : Port := Fin.ofNat 2 inst
  match b with
  | .evt => if inst = 0 then d.viewEvt else []
  | .scc =>
    let s := d.scc.get p
    let m := s.rxq.headD []
    [(SCC.STAT_RXQ, fun _ => s.rxq.length), (SCC.RX_HEAD_LEN, fun _ => m.length),
     (SCC.RX_BUF_DATA, fun k => (List.range 4).foldl (fun a j => a + m.getD (4 * k + j) 0 * 256 ^ j) 0)]
  | .map =>
    let c := d.get pg MAP.TTI_SEL_CLIENT
    [(MAP.STATUS_TX_RUN, fun _ => b2n (d.encActive p)), (MAP.STATUS_RX_RUN, fun _ => d.get (pgFEC p) FEC.STATUS_DEC_ACTIVE),
     (MAP.TTI_TX_TTI, fun k => d.get pg (MAP.ttiTx c k)), (MAP.TTI_RX_TTI, fun k => d.get pg (MAP.ttiRx c k)),
     (MAP.TTI_EXP_TTI, fun k => d.get pg (MAP.ttiExp c k))]
  | .enc =>
    let h := d.enc.log.head?
    let g (f : EncLog → Nat) : Nat → Nat := fun _ => match h with | some x => f x | none => 0
    [(ENC.LOG0_TRIB, g (·.trib)), (ENC.LOG0_KIND, g (·.kind)), (ENC.LOG0_VALID, g fun _ => 1), (ENC.LOG1_SPAN, g (·.span % 2 ^ 32)),
     (ENC.LOG2_SPAN, g (·.span / 2 ^ 32)), (ENC.LOG3_CTR, g (·.ctr)), (ENC.LOG_STAT_COUNT, fun _ => d.enc.log.length)]
  | .keys =>
    [(KEYS.STATUS_EMPTY, fun _ => d.slotsEmpty), (KEYS.SLOT_STATE, d.slotState), (KEYS.SLOT_TX_LIVE, fun k => b2n (d.slotTxLive k)),
     (KEYS.SLOT_RX_LIVE, fun k => b2n (d.slotRxLive k)), (KEYS.SLOT_ARMED_REF, fun k => b2n (d.slotArmed k)),
     (KEYS.SLOT_LATCHED, fun k => b2n (d.slotLatched k)), (KEYS.SLOT_TRIB, d.slotTrib)]
  | .ksmb => [(KSMB.REQ_BUF_DATA, d.mbReqWord), (KSMB.RSP_BUF_DATA, d.mbRspWord)]
  | .tb =>
    [(TB.BASE_NS_LO, fun n => d.tbNs n % 2 ^ 32), (TB.BASE_NS_HI, fun n => d.tbNs n / 2 ^ 32),
     (TB.BASE_FRAC, fun n => d.tbVal n % 2 ^ 16)]
  | .pier =>
    [(PIER.ENG_EVQ, fun k => ((AMap.find? d.evt.evq (16 * inst + k)).getD []).length),
     (PIER.EVQ_OVF_ENG, fun _ => wordOf (fun k => decide (k < 16) && FMap.get d.evt.evqOvf (16 * inst + k) != 0) 0),
     (PIER.EVQ_DROP, fun _ => FMap.get d.evt.evqDrop inst)]
  | .perfw =>
    let t := tdOf d.tdSnap (d.get pg PERFW.TD_SEL_ENG)
    let g (v : Nat) : Nat → Nat := fun _ => if d.get pg PERFW.TD_SEL_ENG < 192 then v else 0
    [(PERFW.TD_CYCLES, g t.cycles), (PERFW.TD_RETIRED, g t.retired), (PERFW.TD_WASTED, g t.wasted),
     (PERFW.TD_FRONT, g t.front), (PERFW.TD_BACK, g t.back)]
  | _ => []

/-- Every view of a page. -/
def Dev.views (d : Dev) (pg : Nat) (i : PageInfo) : List View :=
  d.viewCommon pg i ++ (match i.die with | some p => d.viewLine pg p i.row.blk | none => d.viewHub pg i.inst i.row.blk)

/-! ### Words -/

/-- The value a host read gets of element `off` of a field (R9); `pend` asks for the pending mirror (R10). -/
def Dev.fieldRead (d : Dev) (pg : Nat) (vs : List View) (f : Fld) (off : Nat) (pend : Bool) : Nat :=
  if f.acc = .wo ∨ f.acc = .ks then 0
  else
    let k := (off - f.off) / f.stride
    match vs.find? (fun v => v.1.off == f.off && v.1.lo == f.lo) with
    | some v => v.2 k
    | none => if pend && (f.acc == .rwst || f.acc == .rwsr) then d.pget pg (f.at k) else d.get pg (f.at k)

/-- The register word at an offset below 0x1000 of a page, the mirror apart.  A 48-bit counter takes two words (R44). -/
def Dev.wordRaw (d : Dev) (pg : Nat) (i : PageInfo) (off : Nat) (pend : Bool) : Nat :=
  let vs := d.views pg i
  (COMMON.table ++ ownTable pg).foldl (fun a f =>
    let here := f.covers off f.lo
    let above := f.width == 48 && decide (4 ≤ off) && f.covers (off - 4) f.lo
    let v := if here then d.fieldRead pg vs f off pend % 2 ^ f.width % 2 ^ 32
      else if above then d.fieldRead pg vs f (off - 4) pend % 2 ^ 48 / 2 ^ 32 else 0
    a + v * 2 ^ f.lo) 0

/-- The word of a page, the mirror and the route entries of EVT1 to EVT4 included (R10, R47, R48). -/
def Dev.wordAt (d : Dev) (pg : Nat) (i : PageInfo) (off : Nat) : Nat :=
  if 0x400 ≤ off ∧ off < 0x700 then d.wordRaw pg i (off - 0x300) true
  else if i.row.blk = .evt ∧ 1 ≤ i.inst ∧ i.inst ≤ 4 ∧ 0x700 ≤ off ∧ off < 0xB80 then
    FMap.get d.evt.route (288 * (i.inst - 1) + (off - 0x700) / 4)
  else d.wordRaw pg i off false

/-- The LO/HI pairs of a block beside its counters and COMMIT_LO/HI: offset of the first LO word, stride and number. -/
def loWords : Block → List (Nat × Nat × Nat)
  | .evt => [(0x84, 4, 1), (0x100, 4, 1)]
  | .lfr => [(0x80, 4, 1), (0x8C, 4, 1), (0x100, 4, 1)]
  | .scc => [(0xC4, 4, 1), (0x180, 4, 1)]
  | .dmp => [(0x90, 4, 1)]
  | .enc => [(0x88, 4, 1), (0x90, 4, 1)]
  | .tb => [(0x80, 16, 4), (0xC0, 16, 4), (0x110, 16, 4), (0x704, 128, 2), (0x710, 128, 2), (0x71C, 128, 2), (0x728, 128, 2), (0x800, 4, 1)]
  | .tlq => [(0x110, 4, 1)]
  | .hgl => [(0x80, 4, 1), (0x104, 4, 1), (0x180, 4, 1)]
  | .cal => [(0x110, 16, 2)]
  | .mbx => [(0x100, 4, 1), (0x108, 4, 1), (0x110, 4, 1), (0x124, 4, 1)]
  | .ecc => [(0x94, 4, 1), (0x108, 4, 1)]
  | .dma => [(0x88, 16, 8), (0x100, 64, 8), (0x108, 64, 8), (0x700, 64, 8), (0x708, 64, 8)]
  | _ => []

/-- The offset is the LO word of a LO/HI pair (R7, R8). (DEDUCED: log 15) -/
def isLo (pg : Nat) (i : PageInfo) (off : Nat) : Bool :=
  off == 0x18 || (ownTable pg).any (fun f => f.acc == .cnt && f.covers off 0) ||
    (loWords i.row.blk).any fun x => decide (x.1 ≤ off) && (off - x.1) % x.2.1 == 0 && decide ((off - x.1) / x.2.1 < x.2.2)

/-- The words captured beside a LO word: HI, and FRAC of a time base (R8, R400). -/
def capWords (i : PageInfo) (off : Nat) : List Nat :=
  if i.row.blk = .tb ∧ 0x80 ≤ off ∧ off < 0xC0 then [off + 4, off + 8] else [off + 4]

/-- A read of one word with its side effects: the capture of R8, and the queue head that a read of TCV_Q_HEAD removes
(R463).  A page without a block, or of a line die that is gated or in reset, reads zero (R37, R38).  A pattern checker has run on by the time
of a read (R305). -/
def Dev.hostRead (d : Dev) (a : Nat) : Dev × Nat :=
  let d := match pageInfo (a / 4096) with
    | some i => d.when (i.row.blk == .hln) (·.prbsRun (Fin.ofNat 32 i.inst))
    | none => d
  let pg := a / 4096
  let off := a % 4096 / 4 * 4
  let key (o : Nat) : Nat := pg * 4096 + o
  match pageInfo pg with
  | none => (d, 0)
  | some i =>
    if (match i.die with | some p => !d.online p | none => false) then (d, 0)
    else if isLo pg i off then
      let v := d.wordAt pg i off
      ((capWords i off).foldl (fun d o => { d with hiCap := AMap.insert d.hiCap (key o) (d.wordAt pg i o) }) d, v)
    else
      match AMap.find? d.hiCap (key off) with
      | some h => ({ d with hiCap := AMap.erase d.hiCap (key off) }, h)
      | none =>
        let v := d.wordAt pg i off
        if i.row.blk = .tcv ∧ off = 0x84 then ((d.tcvUpd fun t => { t with queue := t.queue.drop 1 }).tcvShowQ, v)
        else (d.when (i.row.blk == .crv) Dev.used, v)

/-- LO_READ: a host read of BAR0, 32 bits or 64 (R8, R35). -/
def bar0ReadDo (a : Nat) (wide : Bool) (d : Dev) : Dev :=
  let r := d.hostRead a
  if wide then
    let q := r.1.hostRead (a / 4 * 4 + 4)
    q.1.emit (.readData (some (r.2 + 2 ^ 32 * q.2)))
  else r.1.emit (.readData (some r.2))

/-- LO_READ. -/
def execLoRead (off : BitVec 22) (wide : Bool) (s : State) : Host.Outcome State Fault Refusal := s.run (bar0ReadDo off.toNat wide)

end Sys2Proof.Machine
end

