-- ==== Sys2Proof/Machine/Host.lean ====
section
/-! DEFINITION.  Host writes of BAR0: the common registers and events of a page (R42–R52), staged and plain fields (R9, R64),
the dispatch of a register with an action of its own to that action, SOFT_RST (R626), and the ring commands that access
registers (R504). -/

namespace Sys2Proof.Machine

/-! ### Common registers -/

/-- The sources that the ones of an event register word k name (R43). -/
def Dev.overSources (d : Dev) (pg k : Nat) (w : Word) (f : Nat → Bool → Dev → Dev) : Dev :=
  (List.range 32).foldl (fun d i => d.when (hasSrc pg (32 * k + i)) (f (pg * 64 + 32 * k + i) (bitOf w.toNat i))) d

/-- A write of EVT_STICKYk: a one clears (R42). -/
def stickyWrite (pg k : Nat) (w : Word) (d : Dev) : Dev :=
  d.overSources pg k w fun s b d => if b then { d with evt := { d.evt with sticky := FMap.set d.evt.sticky s 0 } } else d

/-- A write of EVT_MASKk (R46, R47). -/
def maskWrite (pg k : Nat) (w : Word) (d : Dev) : Dev :=
  d.overSources pg k w fun s b d => { d with evt := { d.evt with unmasked := FMap.set d.evt.unmasked s (b2n !b) } }

/-- A write of EVT_FORCEk: a one is an occurrence (R52). -/
def forceWrite (pg k : Nat) (w : Word) (d : Dev) : Dev :=
  d.overSources pg k w fun s b d => if b then d.ev (s / 64) (s % 64) else d

/-- A write of EVT_FIRST: a one at VALID re-arms the capture (R42). -/
def firstWrite (pg : Nat) (w : Word) (d : Dev) : Dev :=
  if bitOf w.toNat 31 then { d with evt := { d.evt with first := FMap.set d.evt.first pg (FMap.get d.evt.first pg % 2 ^ 31) } } else d

/-- A write of EVT_COUNT (R42). (DEDUCED: log 244) -/
def countWrite (pg : Nat) (w : Word) (d : Dev) : Dev :=
  { d with evt := { d.evt with count := FMap.set d.evt.count pg w.toNat } }

/-- A 32-bit write of COMMIT_LO or COMMIT_HI: it sets the fields and arms nothing (R60). (DEDUCED: log 16) (DEDUCED: log 17) -/
def commitWord (pg off : Nat) (w : Word) (d : Dev) : Dev :=
  let lo := d.get pg COMMON.COMMIT_LO_TARGET_LO
  let hi := d.get pg COMMON.COMMIT_HI_TARGET_HI + 2 ^ 16 * d.get pg COMMON.COMMIT_HI_PORT
  if !staged pg then d else if off = 0x18 then d.armWrite pg w.toNat hi else d.armWrite pg lo w.toNat

/-! ### MSI-X (R49) -/

/-- The messages of vectors whose pending bit is set go out as far as nothing masks them. -/
def Dev.msixFlush (d : Dev) : Dev :=
  (List.range 64).foldl (fun d v =>
    if FMap.get d.evt.pba v != 0 && d.evt.msixEn && !d.evt.fmask && !d.flag pgEVT0 (EVT0.MSIX_VCTL_MASK.at v) then
      ({ d with evt := { d.evt with pba := FMap.set d.evt.pba v 0 } }).msix v
    else d) d

/-- MSIX_ENABLE. -/
def msixEnableDo (en fmask : Bool) (d : Dev) : Dev := ({ d with evt := { d.evt with msixEn := en, fmask := fmask } }).msixFlush

/-! ### Plain fields -/

/-- A host write of one field by its access type (R9). -/
def Dev.fieldWrite (d : Dev) (pg : Nat) (near : Bool × Bool) (w : Word) (f : Fld) : Dev :=
  match f.acc with
  | .rw | .rwp => d.putW pg f w
  | .rwst | .rwsr => d.stage pg f near w
  | .w1c => d.clearW pg f w
  | .w1s => d.put pg f (d.get pg f ||| f.ofWord w.toNat)
  | .ro | .wo | .cnt | .ks => d

/-- A host write of every field of a register by its access type. -/
def Dev.plainWrite (d : Dev) (pg : Nat) (near : Bool × Bool) (off : Nat) (w : Word) : Dev :=
  (ownTable pg).foldl (fun d f => d.when (f.covers off f.lo) (·.fieldWrite pg near w (f.at ((off - f.off) / f.stride)))) d

/-- Element of an array of registers at an offset: the array starts at `o` and has `n` elements of `st` bytes. -/
def elem (off o st n : Nat) : Option Nat := if o ≤ off ∧ off < o + st * n then some ((off - o) / st) else none

/-! ### Registers with actions -/

/-- A write of a line-die register, its page being reachable. -/
def lineWrite (p : Port) (b : Block) (inst pg off : Nat) (x : HostEnv) (w : Word) (d : Dev) : Dev :=
  let near := (x.nearTx, x.nearRx)
  let plain := d.plainWrite pg near off w
  match b with
  | .lfr => if off = 0x108 then spanCtlWrite p w d else if off = 0x10C then lfrCtlWrite p w d else plain
  | .adc =>
    if off = 0x100 then
      let n := adcLaneCtl p near w d
      n.when (d.get pg ADC.LANE_CTL_EN == 0 && n.get pg ADC.LANE_CTL_EN != 0) (·.portStart p)
    else if off = 0x10C then adcCapWrite p w x.cap d
    else match elem off 0x700 4 168 with
      | some k => d.convUpd p fun c => c.setSlice (sliceKey (d.get pg ADC.TBL_SEL_LANE) k) fun s => { s with ovr := w.toNat % 2 ^ 16 }
      | none => plain
  | .dac => if off = 0x100 then dacLaneCtl p near w d else plain
  | .lcal => if off = 0x100 then lcalCtlWrite p w d else plain
  | .cdc => if off = 0x118 then srchStartWrite p w d else plain
  | .mimo => if off = 0x100 then freezeWrite p w d else if off = 0x104 then reinitWrite p w d else plain
  | .nlc => if off = 0x180 then (if bitOf w.toNat 0 then sumStartDo p d else d) else plain
  | .subc => if off = 0x100 then (if bitOf w.toNat 0 then snapWrite p (Fin.ofNat 8 inst) d else d) else plain
  | .crv => if off = 0x104 then (if bitOf w.toNat 0 then reacqDo p d else d) else plain
  | .txs =>
    if off = 0x184 then testWrite p w d
    else match elem off 0x700 4 256 with
      | some i => pdWrite p i w d
      | none => plain
  | .fec =>
    if off = 0x10C then injWrite p w d
    else if off = 0x180 then (if bitOf w.toNat 0 then peakClrDo p d else d)
    else plain
  | .trsl => if off = 0x100 then trsCtlWrite p true w d else plain
  | _ => plain

/-- A write of a hub register of the datapath and clock blocks. -/
def hubWrite1 (b : Block) (inst pg off : Nat) (x : HostEnv) (w : Word) (d : Dev) : Dev :=
  let near := (x.nearTx, x.nearRx)
  let plain := d.plainWrite pg near off w
  let p : Port := Fin.ofNat 2 inst
  let c : Fin 32 := Fin.ofNat 32 inst
  match b with
  | .scc =>
    if off = 0x18C then cnCtl p w d
    else if off = 0x190 then (if bitOf w.toNat 16 then sccSend p w d else plain)
    else if off = 0x194 then (if bitOf w.toNat 0 then sccPop p d else d)
    else plain
  | .map =>
    match elem off 0x200 4 32, elem off 0xA00 4 16, elem off 0xA80 4 16 with
    | some k, _, _ => mapCliWrite p (Fin.ofNat 32 k) near w d
    | _, some k, _ => d.put pg (MAP.ttiTx (d.get pg MAP.TTI_SEL_CLIENT) k) w.toNat
    | _, _, some k => d.put pg (MAP.ttiExp (d.get pg MAP.TTI_SEL_CLIENT) k) w.toNat
    | _, _, _ => plain
  | .hln =>
    if off = 0x100 then hlnCtlWrite c w d
    else if off = 0x104 then txffeWrite c false w d
    else if off = 0x108 then txffeWrite c true w d
    else if off = 0x10C then hlnPrbsWrite c w d
    else plain
  | .cli => if off = 0x100 then (cliCfgWriteDo c w d).clkEval false else if off = 0x104 then plain.cliCheck else plain
  | .enc =>
    match elem off 0x100 4 32 with
    | some k => (encTribWriteDo (Fin.ofNat 32 k) near w d).encCheck
    | none => if off = 0x184 then encCmdWrite w d else if off = 0x188 then encTestWrite w d else plain
  | .keys => if off = 0x100 then keysCmdWrite w d else plain
  | .clk =>
    match elem off 0x120 4 8, elem off 0x160 4 4 with
    | some r, _ => clkRefDo r w d
    | _, some _ => plain.clkOuts
    | _, _ =>
      if off = 0x100 then clkCtlDo w d
      else if off = 0x180 then clkCmdWrite w d
      else if off = 0x108 ∨ off = 0x10C then plain.clkEval false
      else if off = 0x110 then plain.freeOut
      else plain
  | .tb =>
    match elem off 0x100 4 4 with
    | some n => tbTrimWrite n w d
    | none => if off = 0x180 then tbCmdWrite w d else if off = 0x184 then tbSccCtlWrite w d else plain
  | .tlq => if off = 0x11C then tlqCmdWrite w d else plain
  | .hgl =>
    if off = 0x100 then hgCtlWrite inst w d
    else if off = 0x110 then ecCtlWrite inst w d
    else if off = 0x118 then reqGoDo inst w d
    else if off = 0x11C then hgCmdWrite inst w d
    else if off = 0x188 then tmdGoDo inst w x.pos d
    else plain
  | .tcv => if off = 0x100 then tcvCtlWrite w d else if off = 0x104 then injGoDo w d else plain
  | .cal =>
    if off = 0x104 then calCmdWrite w d
    else if off = 0x100 then plain.calTcvTry false
    else if 0x110 ≤ off ∧ off ≤ 0x128 then (plain.calWindow 0).calWindow 1
    else plain
  | _ => plain

/-- The code offset of an engine of a cluster. -/
def envPc (x : HostEnv) (e : Nat) : Nat := (x.pcs.getD e 0).toNat

/-- The bits of a bandwidth window as numbers. -/
def envBits (x : HostEnv) : List (Nat × Nat) := x.bits.map fun b => (b.1.toNat, b.2.toNat)

/-- A write of a hub register of the management, memory and power blocks; `core` says a management core writes. -/
def hubWrite2 (core : Bool) (b : Block) (inst pg off : Nat) (x : HostEnv) (w : Word) (d : Dev) : Dev :=
  let plain := d.plainWrite pg (x.nearTx, x.nearRx) off w
  match b with
  | .evt =>
    if inst = 0 then (if (elem off 0x70C 16 64).isSome ∧ off % 16 = 12 then plain.msixFlush else plain)
    else match elem off 0x700 4 288 with
      | some k =>
        if inst ≤ 4 then { d with evt := { d.evt with route := FMap.set d.evt.route (288 * (inst - 1) + k) (w.toNat &&& 0xFF73F) } }
        else d
      | none => d
  | .ksmb =>
    if off = 0x100 then mbCtlWrite core w d
    else if off = 0x104 ∨ off = 0x108 ∨ (0x700 ≤ off ∧ off < 0x900) then mbWrite core off w d
    else if off = 0x10C then ksCtlWrite core w d
    else plain
  | .mbx =>
    if off = 0x118 then mbxCtlWrite w d
    else if off = 0x11C then cmdDbWrite w d
    else if off = 0x120 then ntfAckWrite w d
    else if off = 0x12C then resyncWrite w d
    else plain
  | .mgmt => if off = 0x80 then heartbeatWrite w d else plain
  | .pier =>
    if off = 0x100 then pierCmdWrite inst w (envPc x (PIER.CMD_ENG.ofWord w.toNat)) d
    else if off = 0x88 then
      (List.range 16).foldl (fun d k =>
        if bitOf w.toNat k then { d with evt := { d.evt with evqOvf := FMap.set d.evt.evqOvf (16 * inst + k) 0 } } else d) d
    else plain
  | .qmc => if off = 0x100 then qmcCtlWrite (Fin.ofNat 2 inst) w d else plain
  | .ecc => if off = 0x114 then eccTestWrite w d else plain
  | .trs => if off = 0x100 then trsCtlWrite (Fin.ofNat 2 inst) false w d else plain
  | .dma =>
    match elem off 0x100 0x40 8, elem off 0x700 0x40 8 with
    | some c, _ =>
      let r := off % 0x40 / 4
      if r = 11 then dmaCtlWrite c w d else if r < 11 then dmaSetWrite c false r w d else d
    | _, some c => if off % 0x40 / 4 < 11 then dmaSetWrite c true (off % 0x40 / 4) w d else d
    | _, _ => plain
  | .perfw =>
    match elem off 0x100 4 32 with
    | some i => perfSelDo i w d
    | none => if off = 0x180 then bwWinDo w (envBits x) x.clocks.toNat d else if off = 0x188 then perfCmdWrite w d else plain
  | .pwr => if off = 0x108 then pwrBascule w d else plain
  | .sys => plain
  | _ => hubWrite1 b inst pg off x w d

/-! ### SOFT_RST -/

/-- The word of a register at its reset values. -/
def resetWord (pg off : Nat) : Word :=
  BitVec.ofNat 32 ((ownTable pg).foldl (fun a f => a + (if f.covers off f.lo then f.resetOn pg * 2 ^ f.lo else 0)) 0)

/-- The control fields that act when they change go to their reset values as a write would take them there. -/
def softBefore (i : PageInfo) (pg : Nat) (x : Capture) (d : Dev) : Dev :=
  let w := resetWord pg
  match i.row.blk, i.die with
  | .lfr, some p => lfrCtlWrite p (w 0x10C) d
  | .adc, some p => adcCapWrite p 2 x (adcLaneCtl p (false, false) (w 0x100) d)
  | .dac, some p => dacLaneCtl p (false, false) (w 0x100) d
  | .mimo, some p => freezeWrite p (w 0x100) d
  | .txs, some p => (testWrite p (w 0x184) d).pdNote p (List.range 256)
  | .hgl, none => hgCtlWrite i.inst (w 0x100) d
  | .hln, none =>
    let l : Fin 32 := Fin.ofNat 32 i.inst
    hlnPrbsWrite l (w 0x10C) (txffeWrite l true (w 0x108) (txffeWrite l false (w 0x104) (hlnCtlWrite l (w 0x100) d)))
  | .clk, none => clkCtlDo (w 0x100) ((List.range 8).foldl (fun d r => clkRefDo r (w (0x120 + 4 * r)) d) d)
  | _, _ => d

/-- What follows the change of live values, `old` being the state before. -/
def softAfter (i : PageInfo) (old d : Dev) : Dev :=
  let d := match i.die with
    | some p => (d.lineTxFx old p i.row.blk).lineRxFx old p i.row.blk
    | none => (d.hubFx old i.row.blk i.inst true (d.txSpan (Fin.ofNat 2 i.inst))).hubFx old i.row.blk i.inst false 0
  match i.row.blk, i.die with
  | .lfr, some p => d.sdefUpd p
  | .adc, some p | .dac, some p | .dmp, some p | .fec, some p | .txs, some p => (d.rateCheck p).encCheck
  | .map, _ => (d.rxTable (Fin.ofNat 2 i.inst)).encCheck
  | .clk, _ => ((d.clkEval true).clkOuts).freeOut
  | .cli, _ => (d.clkEval false).encCheck
  | .cal, _ => ((d.calTcvTry false).calWindow 0).calWindow 1
  | _, _ => d.encCheck

/-- The RW tables of a page that are held outside its register fields return to reset: the trail traces of MAP_TTI_TX and
MAP_TTI_EXP, and the overrange counts of ADC_SLICE (R626). -/
def softTables (i : PageInfo) (pg : Nat) (d : Dev) : Dev :=
  match i.row.blk, i.die with
  | .map, _ => d.wipe fun k => keyPage k == pg &&
      (decide ((MAP.ttiTx 0 0).off ≤ keyOff k ∧ keyOff k < (MAP.ttiTx 32 0).off) ||
        decide ((MAP.ttiExp 0 0).off ≤ keyOff k ∧ keyOff k < (MAP.ttiExp 32 0).off))
  | .adc, some p => d.convUpd p fun c => { c with slices := c.slices.map fun e => (e.1, { e.2 with ovr := 0 }) }
  | _, _ => d

/-- SOFT_RST of a PIER page: every engine of the cluster that is not OFF goes to HALT (R518). (DEDUCED: log 21) -/
def pierSoftReset (c : Nat) (pc : Nat → Nat) (d : Dev) : Dev :=
  (List.range 16).foldl (fun d e =>
    let k := 16 * c + e
    if d.engState k = 0 then d
    else (d.when (d.engState k == 3) (·.engPut k PIER.ENG2_PC (pc e))).engSet k 1) d

/-- SOFT_RST of the TCV page (R468). (DEDUCED: log 20) -/
def tcvSoftReset (d : Dev) : Dev :=
  let run := d.tcv.cal == 2
  let d := (d.put pgTCV TCV.CTL_REF_EN 0).put pgTCV TCV.CTL_SCAN_EN 0
  let d := [TCV.STATUS_REF_READY, TCV.STATUS_IN_DELAY, TCV.STATUS_RUN, TCV.STATUS_INJ_PEND].foldl (fun d f => d.put pgTCV f 0) d
  let d := d.tcvUpd fun t => { TcvState.reset with cal := t.cal, calOwn := t.calOwn, dc := t.dc, seen := t.seen }
  ((d.when run Dev.tcvCalFail).calTcvTry false).tcvShowQ

/-- A write of 1 to CTL.SOFT_RST of a page (R42, R626): ignored on KSMB, KEYS and MGMT, without effect on EVT5 to EVT7, and
with the action of the block's own chapter on TB, TCV, MBX, PIER, DMA and PERFW. -/
def softResetDo (pg : Nat) (i : PageInfo) (x : HostEnv) (d : Dev) : Dev :=
  match i.row.blk with
  | .ksmb | .keys | .mgmt => d
  | .evt => if i.inst ≤ 4 then d.softReset pg else d
  | .tb => d.tbZero
  | .tcv => tcvSoftReset d
  | .mbx => mbxPerst d
  | .pier => pierSoftReset i.inst (envPc x) d
  | .dma => dmaSoftReset d
  | .perfw => perfSoftReset d
  | _ => softAfter i d (softTables i pg ((softBefore i pg x.cap (d.commitCancel pg)).softReset pg))

/-! ### BAR0 writes -/

/-- A 32-bit write of a register of a reachable page. -/
def regWord (core : Bool) (pg : Nat) (i : PageInfo) (off : Nat) (x : HostEnv) (w : Word) (d : Dev) : Dev :=
  if off = 0x10 then (if bitOf w.toNat 31 then softResetDo pg i x d else d)
  else if off = 0x18 ∨ off = 0x1C then commitWord pg off w d
  else if 0x40 ≤ off ∧ off < 0x50 then stickyWrite pg ((off - 0x40) / 4) w d
  else if 0x50 ≤ off ∧ off < 0x60 then maskWrite pg ((off - 0x50) / 4) w d
  else if 0x60 ≤ off ∧ off < 0x70 then forceWrite pg ((off - 0x60) / 4) w d
  else if off = 0x70 then firstWrite pg w d
  else if off = 0x74 then countWrite pg w d
  else if off < 0x80 ∨ (0x400 ≤ off ∧ off < 0x700) then d
  else match i.die with
    | some p => lineWrite p i.row.blk i.inst pg off x w d
    | none => hubWrite2 core i.row.blk i.inst pg off x w d

/-- A write of one word of BAR0 (R37, R38). -/
def hostWrite (core : Bool) (a : Nat) (x : HostEnv) (w : Word) (d : Dev) : Dev :=
  let pg := a / 4096
  match pageInfo pg with
  | none => d.ev pgSYS 1
  | some i =>
    let go (d : Dev) : Dev := regWord core pg i (a % 4096 / 4 * 4) x w d
    match i.die with
    | some p => d.hostLine p go
    | none => go d

/-- An aligned 64-bit write of BAR0 (R35): COMMIT_LO and COMMIT_HI are written together. -/
def wideWrite (core : Bool) (a : Nat) (x : HostEnv) (lo hi : Word) (d : Dev) : Dev :=
  if a % 4096 / 4 * 4 = 0x18 ∧ (pageInfo (a / 4096)).isSome ∧ bitOf hi.toNat 31 = true then
    commitArmDo (a / 4096) lo.toNat hi.toNat x.nearTx x.nearRx d
  else hostWrite core (a / 4 * 4 + 4) x hi (hostWrite core a x lo d)

/-- A write of BAR0 of 32 or 64 bits as the accesses it makes: a misaligned 64-bit write is two, the lower word first, each as
if it had been issued alone (R35). (DEDUCED: log 24) -/
def bar0Writes (core : Bool) (a : Nat) (wide : Bool) (x : HostEnv) (lo hi : Word) : List (Dev → Dev) :=
  if !wide then [hostWrite core a x lo]
  else if a / 4 % 2 = 0 then [wideWrite core a x lo hi]
  else [hostWrite core a x lo, hostWrite core (a / 4 * 4 + 4) x hi]

/-- A write that meets nothing beside its word. -/
def noEnv : HostEnv := ⟨false, false, [], ⟨0, 0, 0, 0⟩, [], 0, ⟨0, [], []⟩⟩

/-! ### Ring commands (R504) -/

/-- A BAR0 offset names a KS field or an unassigned page. -/
def ringBarred (a : Nat) : Bool :=
  (pageInfo (a / 4096)).isNone || (ownTable (a / 4096)).any fun f => f.acc == .ks && f.covers (a % 4096 / 4 * 4) f.lo

/-- The pairs of offset and value before the first that is barred, and whether one is. -/
def ringPairs (b : List Nat) : Nat → Nat → List (Nat × Nat) × Bool
  | 0, _ => ([], false)
  | n + 1, k =>
    let a := pay32 b (8 * k)
    if ringBarred a then ([], true) else let r := ringPairs b n (k + 1); ((a, pay32 b (8 * k + 4)) :: r.1, r.2)

/-- REG_WRITE: each pair takes effect before the next (R39, R504), then the completion with the number applied; the spec states
no RESULT for one that stops. (DEDUCED: log 22) (DEDUCED: log 23) -/
def ringWrites (x : HostEnv) (d : Dev) : List (Dev → Dev) :=
  match d.mgmt.cmds with
  | [] => [id]
  | c :: _ =>
    if c.op = 2 && !c.started then
      let r := ringPairs c.payload (c.payload.length / 8) 0
      let last (d : Dev) : Dev := if r.2 then d.used.ringComplete (d.free % 2 ^ 16) [r.1.length] else d.ringComplete 0 [r.1.length]
      r.1.map (fun e => hostWrite true e.1 x (BitVec.ofNat 32 e.2)) ++ [last]
    else [id]

/-- REG_READ. (DEDUCED: log 243) -/
def ringReadDo (d : Dev) : Dev := d.ringExec 3 fun b d =>
  let r := (List.range (b.length / 4)).foldl (fun (st : Dev × List Nat) k =>
    let q := st.1.hostRead (pay32 b (4 * k))
    (q.1, st.2 ++ leBytes 4 q.2)) (d, [])
  r.1.ringComplete 0 r.2

/-! ### Meanings -/

/-- REGISTER_WRITE. -/
def execRegisterWrite (core : Bool) (off : BitVec 22) (wide : Bool) (data : BitVec 64) (x : HostEnv) (s : State) :
    Host.Outcome State Fault Refusal :=
  s.runCycles fun _ => bar0Writes core off.toNat wide x (data.extractLsb' 0 32) (data.extractLsb' 32 32)

/-- BAR_PARTIAL (R36): nothing but the event, whatever page it names. -/
def execBarPartial (_off : BitVec 22) (s : State) : Host.Outcome State Fault Refusal := s.run (·.ev pgSYS 0)

/-- UNMAPPED: a host write whose page has no block (R37). -/
def execUnmapped (off : BitVec 22) (w : Word) (s : State) : Host.Outcome State Fault Refusal :=
  s.run (hostWrite false off.toNat noEnv w)

/-- LD_OFFLINE: a host write whose page's die is gated or in reset (R38). -/
def execLdOffline (off : BitVec 22) (w : Word) (s : State) : Host.Outcome State Fault Refusal :=
  s.run (hostWrite false off.toNat noEnv w)

/-- EVT_MASK_WRITE. -/
def execEvtMaskWrite (pg : BitVec 10) (k : Fin 4) (w : Word) (s : State) : Host.Outcome State Fault Refusal :=
  s.run (hostWrite false (pg.toNat * 4096 + 0x50 + 4 * k.val) noEnv w)

/-- FORCE. -/
def execForce (pg : BitVec 10) (k : Fin 4) (w : Word) (s : State) : Host.Outcome State Fault Refusal :=
  s.run (hostWrite false (pg.toNat * 4096 + 0x60 + 4 * k.val) noEnv w)

/-- MSIX_ENABLE. -/
def execMsixEnable (en fmask : Bool) (s : State) : Host.Outcome State Fault Refusal := s.run (msixEnableDo en fmask)

/-- MSIX_VECTOR_UNMASK. -/
def execMsixVectorUnmask (v : Fin 64) (w : Word) (s : State) : Host.Outcome State Fault Refusal :=
  s.run (hostWrite false (pgEVT0 * 4096 + 0x70C + 16 * v.val) noEnv (w &&& 0xFFFFFFFE#32))

/-- A write of CTL with SOFT_RST. -/
def softWrite (pg : Nat) (x : HostEnv) (d : Dev) : Dev := hostWrite false (pg * 4096 + 0x10) x 0x80000000#32 d

/-- SOFT_RST. -/
def execSoftRst (pg : BitVec 10) (x : HostEnv) (s : State) : Host.Outcome State Fault Refusal := s.run (softWrite pg.toNat x)

/-- TB_SOFT_RST. -/
def execTbSoftRst (s : State) : Host.Outcome State Fault Refusal := s.run Dev.tbZero

/-- TCV_SOFT_RST. -/
def execTcvSoftRst (s : State) : Host.Outcome State Fault Refusal := s.run tcvSoftReset

/-- MBX_SOFT_RST. -/
def execMbxSoftRst (s : State) : Host.Outcome State Fault Refusal := s.run mbxPerst

/-- PIER_SOFT_RST. -/
def execPierSoftRst (cluster : Fin 12) (pcs : List (BitVec 14)) (s : State) : Host.Outcome State Fault Refusal :=
  s.run (pierSoftReset cluster.val fun e => (pcs.getD e 0).toNat)

/-- DMA_SOFT_RST. -/
def execDmaSoftRst (s : State) : Host.Outcome State Fault Refusal := s.run dmaSoftReset

/-- PERFW_SOFT_RST. -/
def execPerfwSoftRst (s : State) : Host.Outcome State Fault Refusal := s.run perfSoftReset

/-- RWS_WRITE: a host write of a register with staged fields. -/
def execRwsWrite (off : BitVec 22) (w : Word) (nearTx nearRx : Bool) (s : State) : Host.Outcome State Fault Refusal :=
  s.run (hostWrite false off.toNat { noEnv with nearTx := nearTx, nearRx := nearRx } w)

/-- REG_WRITE. -/
def execRegWrite (x : HostEnv) (s : State) : Host.Outcome State Fault Refusal := s.runCycles (ringWrites x)

/-- REG_READ. -/
def execRegRead (s : State) : Host.Outcome State Fault Refusal := s.run ringReadDo

end Sys2Proof.Machine
end

