-- ==== Sys2Proof/Machine/Xfer.lean ====
section
/-! DEFINITION.  The transfers of the DMA engine: one request of a channel read and written, and the read-back
(R547–R553). -/

namespace Sys2Proof.Machine

/-- The device memory of a DEV address cannot be reached: a QDR channel offline, or memory of a die that is gated or held in
reset (R521, R552). -/
def Dev.devGone (d : Dev) (m a : Nat) : Bool :=
  d.qmOffline m || (match memDie m a with | some p => d.flag (pgLDSYS p) LDSYS.GATED || d.flag (pgLDSYS p) LDSYS.HELD | none => false)

/-- A DEV address cannot be reached. (DEDUCED: log 184) -/
def Dev.devOff (d : Dev) (a : Nat) : Bool := match devPlace a with | some (m, o) => d.devGone m o | none => false

/-- The size of the request a channel has out: at most 512 bytes, one line of the source, one register of a REG source, no
4 KiB boundary of the host crossed (R547, R551). (DEDUCED: log 186) -/
def DmaSet.chunk (s : DmaSet) (k : Nat) : Nat :=
  let n := min (min 512 (s.slen - k % s.slen)) (s.total - k)
  if s.ssp = 2 then min 4 n else if s.ssp = 0 then min n (4096 - s.srcAt k % 4096) else n

/-- One word of a DEV source; an error gives its kind (R526, R552).  A memory whose fill is not complete reads zero (R521,
R522). -/
def Dev.devWord (d : Dev) (a : Nat) (x : Upset) : Dev × Except Nat Nat :=
  match devPlace a with
  | none => (d, .ok 0)
  | some (m, o) =>
    if d.devGone m o then (d, .error 4)
    else if !d.filled m o then (d.ev pgECC 1, .ok 0)
    else
      let r := d.demandRead m (o / 8) x 2
      (r.1, match r.2.1 with | some v => .ok v | none => .error (if eccClass r.2.2 = 4 then 3 else 2))

/-- `n` bytes of a DEV source from address a, word by word; an error gives its kind and address. -/
def Dev.devRead : Nat → Dev → Nat → Nat → List Upset → Dev × Except (Nat × Nat) (List Nat)
  | 0, d, _, _, _ => (d, .ok [])
  | fuel + 1, d, a, n, xs =>
    if n = 0 then (d, .ok [])
    else
      let take := min n (8 - a % 8)
      let r := d.devWord a (xs.headD Upset.none)
      match r.2 with
      | .error k => (r.1, .error (k, a))
      | .ok v =>
        let q := devRead fuel r.1 (a + take) (n - take) (xs.drop 1)
        (q.1, match q.2 with
          | .error e => .error e
          | .ok l => .ok ((List.range take).map (fun i => bitsOf v (8 * (a % 8 + i)) 8) ++ l))

/-- The bytes of a channel's request. -/
def Dev.dmaRead (d : Dev) (s : DmaSet) (k n : Nat) (host : Option (List Nat)) (xs : List Upset) : Dev × Except (Nat × Nat) (List Nat) :=
  let a := s.srcAt k
  if n = 0 then (d, .ok [])
  else if s.ssp = 0 then
    (d, match host with | none => .error (1, a) | some l => .ok ((List.range n).map fun i => l.getD i 0))
  else if s.ssp = 1 then d.devRead 65 a n xs
  else let r := d.hostRead a; (r.1, .ok (leBytes 4 r.2))

/-- A REG write of the DMA engine.  It is no agent the mailbox knows, so its mailbox writes are ignored and count (R357). (DEDUCED: log 185) -/
def dmaRegWrite (a : Nat) (e : HostEnv) (w : Word) (d : Dev) : Dev :=
  let o := a % 4096
  if a / 4096 = pgKSMB ∧ o = 0x100 then d.when (bitOf w.toNat 1 || bitOf w.toNat 2) Dev.ksRefuse
  else if a / 4096 = pgKSMB ∧ (o = 0x104 ∨ o = 0x108 ∨ (0x700 ≤ o ∧ o < 0x900)) then d.ksRefuse
  else hostWrite false a e w d

/-- A word of a DEV destination, the bytes named by a mask (R525, R548).  A memory whose fill is not complete ignores it. -/
def Dev.devPut (d : Dev) (a mask v : Nat) : Dev :=
  match devPlace a with
  | none => d
  | some (m, o) => if d.devGone m o then d else if !d.filled m o then d.ev pgECC 1 else d.demandWrite m (o / 8) mask v 2

/-- Bytes written from a DEV address, word by word. -/
def Dev.devWrite : Nat → Nat → List Nat → Dev → Dev
  | 0, _, _, d => d
  | fuel + 1, a, l, d =>
    if l.isEmpty then d
    else
      let s := a % 8
      let now := l.take (8 - s)
      let v := (now.foldr (fun b acc => b + 256 * acc) 0) * 256 ^ s
      devWrite fuel (a + (8 - s)) (l.drop (8 - s)) (d.devPut a ((2 ^ now.length - 1) * 2 ^ s) v)

/-- Bytes written to host memory in requests of at most 512 bytes that cross no 4 KiB boundary (R547). -/
def Dev.hostWriteRun : Nat → Nat → List Nat → Dev → Dev
  | 0, _, _, d => d
  | fuel + 1, a, l, d =>
    if l.isEmpty then d
    else
      let n := min 512 (4096 - a % 4096)
      hostWriteRun fuel (a + n) (l.drop n) (d.emit (.hostWrite a (l.take n)))

/-- Bytes written from an address of the host's or the device's space. -/
def Dev.dmaPutRun (d : Dev) (sp a : Nat) (l : List Nat) : Dev :=
  if sp = 0 then Dev.hostWriteRun l.length a l d else Dev.devWrite l.length a l d

/-- Bytes k, k + 1, … of a transfer written in ascending order, destination line by destination line (R549). -/
def Dev.dmaWrite : Nat → DmaSet → Nat → List Nat → Dev → Dev
  | 0, _, _, _, d => d
  | fuel + 1, s, k, l, d =>
    if l.isEmpty then d
    else
      let n := s.dlen - k % s.dlen
      dmaWrite fuel s (k + n) (l.drop n) (d.dmaPutRun s.dsp (s.dstAt k) (l.take n))

/-- The bytes of a request have been written: the position, its count, and the read-back after the last one (R553). -/
def dmaMoved (c k n total : Nat) (d : Dev) : Dev :=
  let d := ((d.dmaAt c (k + n)).dmaPut c DMA.STAT_RETRIES 0).bump pgDMA (DMA.BYTES_TOTAL.at c) n
  d.when (k + n == total) (·.dmaState c 3)

/-- The register writes of a request with a REG destination, in ascending order (R549). -/
def dmaRegWrites (s : DmaSet) (k : Nat) (l : List Nat) (e : HostEnv) : List (Dev → Dev) :=
  (List.range (l.length / 4)).map fun i => dmaRegWrite (s.dstAt (k + 4 * i)) e (BitVec.ofNat 32 (pay32 l (4 * i)))

/-- How many of the bytes of a channel the write engine writes once a request has come in, `keep` of them not reached: all after
the last request, whole registers of a REG destination, and no more left than the buffer holds for the channel (R547, R551).
 -/
def Dev.dmaWritten (d : Dev) (c : Nat) (s : DmaSet) (have_ keep : Nat) (last : Bool) : Nat :=
  let n := if last then have_ else have_ - min keep (d.dmaRoom c)
  if s.dsp = 2 then n / 4 * 4 else n

/-- How many of `w` bytes from byte k of a transfer a DEV destination takes before one that cannot be reached (R552). -/
def Dev.dmaReach (d : Dev) (s : DmaSet) (k w : Nat) : Nat :=
  if s.dsp = 1 then ((List.range w).takeWhile fun i => !d.devOff (s.dstAt (k + i))).length else w

/-- DMA_READ_COMPLETION: the accesses it makes, each taking effect before the next; the request is read, then what the write engine
reaches is written (R39, R551–R554). -/
def dmaCompletion (c : Nat) (host : Option (List Nat)) (xs : List Upset) (e : HostEnv) (keep : Nat) (d : Dev) : List (Dev → Dev) :=
  let s := d.dmaSet c
  let k := d.dmaRd c
  if !d.dmaOut c || d.dmaGet c DMA.STAT_STATE != 1 then [id]
  else
    let n := s.chunk k
    let at_ := d.dmaPos c
    let want := d.dmaWritten c s ((d.dmaHeld c).length + n) keep (k + n == s.total)
    let w := d.dmaReach s at_ want
    if w = 0 ∧ 0 < want then [fun d => d.dmaError c 4 (s.dstAt at_)]
    else
      let read (d : Dev) := d.dmaRead s k n host xs
      match (read d).2 with
      | .error er => [fun d => (read d).1.dmaError c er.1 er.2]
      | .ok l =>
        let l := d.dmaHeld c ++ l
        let moved (d : Dev) : Dev := (dmaMoved c at_ w s.total d).dmaHold c (l.drop w)
        if s.dsp = 2 then (fun d => (read d).1) :: dmaRegWrites s at_ (l.take w) e ++ [moved]
        else [fun d => moved (Dev.dmaWrite (w + 1) s at_ (l.take w) (read d).1)]

/-- DMA_READBACK_DONE: a fence for every merge entry, then the last written address is read (R525, R553, R554). -/
def dmaReadback (c : Nat) (hostOk : Bool) (x : Upset) (d : Dev) : Dev :=
  let s := d.dmaSet c
  let a := s.dstAt (s.total - 1)
  if !d.dmaOut c || d.dmaGet c DMA.STAT_STATE != 3 then d
  else
    let d := d.drainIf fun _ => true
    if s.dsp = 0 then (if hostOk then d.dmaDone c else d.dmaError c 1 a)
    else if s.dsp = 1 then
      let r := d.devWord a x
      match r.2 with
      | .error k => r.1.dmaError c k a
      | .ok _ => r.1.dmaDone c
    else (d.hostRead (a / 4096 * 4096 + 0x30)).1.dmaDone c

/-- DMA_READ_COMPLETION. -/
def execDmaReadCompletion (c : Fin 8) (host : Option (List Byte)) (x : List Upset) (e : HostEnv) (keep : BitVec 16)
    (s : State) : Host.Outcome State Fault Refusal :=
  s.runCycles (dmaCompletion c.val (host.map fun l => l.map (·.toNat)) x e keep.toNat)

/-- DMA_READBACK_DONE. -/
def execDmaReadbackDone (c : Fin 8) (hostOk : Bool) (x : Upset) (s : State) : Host.Outcome State Fault Refusal :=
  s.run (dmaReadback c.val hostOk x)

end Sys2Proof.Machine
end

