-- ==== Sys2Proof/Machine/Tick.lean ====
section
/-! DEFINITION.  One hub datapath clock with no command waiting: what time alone moves, namely the time bases (R399), the
clock and top-down counters (R561, R566), the ages in milliseconds of the calibrations (LCAL_AGE, CAL_TCV_AGE) and a held
NTF event (R515).  DESIGN CHOICE (log 2): the opcode table has no row for a clock. -/

namespace Sys2Proof.Machine

/-- Hub clocks of 1.40625 GHz in a millisecond. -/
def ticksPerMs : Nat := 1406250

/-- A millisecond has passed since the clocks a tick before: the ages of the last calibrations advance, saturating. (DEDUCED: log 57) -/
def Dev.msTick (d : Dev) : Dev :=
  let line (p : Port) (d : Dev) : Dev := d.lineDo p (·.bumpSat (pgLCAL p) LCAL.AGE_MS 1)
  (List.range 4).foldl (fun d n => d.bumpSat pgCAL (CAL.HG_AGE_MS.at n) 1) ((line 1 (line 0 d)).bumpSat pgCAL CAL.TCV_AGE_MS 1)

/-- One hub clock. (DESIGN CHOICE: log 2) -/
def Dev.tick (d : Dev) : Dev :=
  let d := d.tbTick.perfTick
  let d := { d with ticks := d.ticks + 1 }
  (d.when (decide (d.ticks % ticksPerMs = 0)) (·.msTick)).ntfTick

end Sys2Proof.Machine
end

