-- ==== Sys2Proof/Machine/Dispatch.lean ====
section
/-! DEFINITION.  The dispatch of commands: one arm per constructor of Instr. -/

namespace Sys2Proof.Machine

/-- The effect of a command on everything but the queue of waiting commands. -/
def exec (i : Instr) (s : State) : Host.Outcome State Fault Refusal :=
  match i with
  | .registerWrite core off wide data x => Sys2Proof.Machine.execRegisterWrite core off wide data x s
  | .loRead off wide => Sys2Proof.Machine.execLoRead off wide s
  | .barPartial off => Sys2Proof.Machine.execBarPartial off s
  | .unmapped off w => Sys2Proof.Machine.execUnmapped off w s
  | .ldOffline off w => Sys2Proof.Machine.execLdOffline off w s
  | .bar2Read off wide x => Sys2Proof.Machine.execBar2Read off wide x s
  | .bar2Write off be data => Sys2Proof.Machine.execBar2Write off be data s
  | .bar4Read off wide => Sys2Proof.Machine.execBar4Read off wide s
  | .evtMaskWrite pg k w => Sys2Proof.Machine.execEvtMaskWrite pg k w s
  | .force pg k w => Sys2Proof.Machine.execForce pg k w s
  | .msixEnable en fmask => Sys2Proof.Machine.execMsixEnable en fmask s
  | .msixVectorUnmask v w => Sys2Proof.Machine.execMsixVectorUnmask v w s
  | .softRst pg x => Sys2Proof.Machine.execSoftRst pg x s
  | .tbSoftRst => Sys2Proof.Machine.execTbSoftRst s
  | .tcvSoftRst => Sys2Proof.Machine.execTcvSoftRst s
  | .mbxSoftRst => Sys2Proof.Machine.execMbxSoftRst s
  | .pierSoftRst cluster pcs => Sys2Proof.Machine.execPierSoftRst cluster pcs s
  | .dmaSoftRst => Sys2Proof.Machine.execDmaSoftRst s
  | .perfwSoftRst => Sys2Proof.Machine.execPerfwSoftRst s
  | .txFrameBoundary p tx => Sys2Proof.Machine.execTxFrameBoundary p tx s
  | .txSpanBoundary p tx => Sys2Proof.Machine.execTxSpanBoundary p tx s
  | .rxFrameBoundary p blocks => Sys2Proof.Machine.execRxFrameBoundary p blocks s
  | .rxSpanBoundary p blocks => Sys2Proof.Machine.execRxSpanBoundary p blocks s
  | .txEnSet p w => Sys2Proof.Machine.execTxEnSet p w s
  | .txEnClear p w => Sys2Proof.Machine.execTxEnClear p w s
  | .framerStop p tx => Sys2Proof.Machine.execFramerStop p tx s
  | .set p w => Sys2Proof.Machine.execSet p w s
  | .adopt p w => Sys2Proof.Machine.execAdopt p w s
  | .spanAnnounceRx p span hdrSpan hdrFrame => Sys2Proof.Machine.execSpanAnnounceRx p span hdrSpan hdrFrame s
  | .anchorHeader p corr hdr soh => Sys2Proof.Machine.execAnchorHeader p corr hdr soh s
  | .subcarrierHeader p x corr hdr soh => Sys2Proof.Machine.execSubcarrierHeader p x corr hdr soh s
  | .commitArm pg lo hi nearTx nearRx => Sys2Proof.Machine.execCommitArm pg lo hi nearTx nearRx s
  | .rwsWrite off w nearTx nearRx => Sys2Proof.Machine.execRwsWrite off w nearTx nearRx s
  | .rxwaitExpiry p tx => Sys2Proof.Machine.execRxwaitExpiry p tx s
  | .propose p w => Sys2Proof.Machine.execPropose p w s
  | .accept p w => Sys2Proof.Machine.execAccept p w s
  | .reject p w => Sys2Proof.Machine.execReject p w s
  | .cnResend p => Sys2Proof.Machine.execCnResend p s
  | .cnTimeout p => Sys2Proof.Machine.execCnTimeout p s
  | .cnPropose p seq target cls tag => Sys2Proof.Machine.execCnPropose p seq target cls tag s
  | .cnAck p seq target => Sys2Proof.Machine.execCnAck p seq target s
  | .cnNack p seq target reason => Sys2Proof.Machine.execCnNack p seq target reason s
  | .cnLateReply p => Sys2Proof.Machine.execCnLateReply p s
  | .converterPllSettle p rx => Sys2Proof.Machine.execConverterPllSettle p rx s
  | .adcOverrange p lane pos => Sys2Proof.Machine.execAdcOverrange p lane pos s
  | .dacLaneCtlWrite p w nearTx nearRx => Sys2Proof.Machine.execDacLaneCtlWrite p w nearTx nearRx s
  | .lcalTempTrigger p lane temp => Sys2Proof.Machine.execLcalTempTrigger p lane temp s
  | .lcalLoadTrigger p power => Sys2Proof.Machine.execLcalLoadTrigger p power s
  | .lcalAgeTrigger p => Sys2Proof.Machine.execLcalAgeTrigger p s
  | .lcalStart p w => Sys2Proof.Machine.execLcalStart p w s
  | .lcalHold p w => Sys2Proof.Machine.execLcalHold p w s
  | .passStart p elig => Sys2Proof.Machine.execPassStart p elig s
  | .lcalMeasurementEnd p dac lane unit m res sel => Sys2Proof.Machine.execLcalMeasurementEnd p dac lane unit m res sel s
  | .roundEnd p elig => Sys2Proof.Machine.execRoundEnd p elig s
  | .prioLate p => Sys2Proof.Machine.execPrioLate p s
  | .adcCapArm p w x => Sys2Proof.Machine.execAdcCapArm p w x s
  | .adcCapAbort p w x => Sys2Proof.Machine.execAdcCapAbort p w x s
  | .capDone p x => Sys2Proof.Machine.execCapDone p x s
  | .cdcCoefReady p => Sys2Proof.Machine.execCdcCoefReady p s
  | .cdcBlockBoundary p fine cdEst tones clk => Sys2Proof.Machine.execCdcBlockBoundary p fine cdEst tones clk s
  | .start p w => Sys2Proof.Machine.execStart p w s
  | .srchDone p => Sys2Proof.Machine.execSrchDone p s
  | .srchRetry p => Sys2Proof.Machine.execSrchRetry p s
  | .mimoTapUpdate p sc grads => Sys2Proof.Machine.execMimoTapUpdate p sc grads s
  | .mimoWindow p sc var xcorr => Sys2Proof.Machine.execMimoWindow p sc var xcorr s
  | .mimoSeedTimeout p sc => Sys2Proof.Machine.execMimoSeedTimeout p sc s
  | .mimoPilotDone p sc => Sys2Proof.Machine.execMimoPilotDone p sc s
  | .mimoHoldTimeout p sc => Sys2Proof.Machine.execMimoHoldTimeout p sc s
  | .freeze p w => Sys2Proof.Machine.execFreeze p w s
  | .reinit p w => Sys2Proof.Machine.execReinit p w s
  | .snap p sc => Sys2Proof.Machine.execSnap p sc s
  | .tripletWrite p woff w => Sys2Proof.Machine.execTripletWrite p woff w s
  | .tblOpen p => Sys2Proof.Machine.execTblOpen p s
  | .sumStart p => Sys2Proof.Machine.execSumStart p s
  | .sumDone p => Sys2Proof.Machine.execSumDone p s
  | .tblEcc p e => Sys2Proof.Machine.execTblEcc p e s
  | .reacq p => Sys2Proof.Machine.execReacq p s
  | .coarseFoDone p est => Sys2Proof.Machine.execCoarseFoDone p est s
  | .timLock p => Sys2Proof.Machine.execTimLock p s
  | .timLost p => Sys2Proof.Machine.execTimLost p s
  | .acqTimeout p => Sys2Proof.Machine.execAcqTimeout p s
  | .acqRetry p => Sys2Proof.Machine.execAcqRetry p s
  | .pilot p sc pol frame n phase rmsOk wrong drift => Sys2Proof.Machine.execPilot p sc pol frame n phase rmsOk wrong drift s
  | .monLatch p m => Sys2Proof.Machine.execMonLatch p m s
  | .txsPdWrite p idx w => Sys2Proof.Machine.execTxsPdWrite p idx w s
  | .decoderStart p => Sys2Proof.Machine.execDecoderStart p s
  | .codewordRelease p blocks iters parity => Sys2Proof.Machine.execCodewordRelease p blocks iters parity s
  | .trestleRelease p blocks parity => Sys2Proof.Machine.execTrestleRelease p blocks parity s
  | .peakClr p => Sys2Proof.Machine.execPeakClr p s
  | .injOn p w => Sys2Proof.Machine.execInjOn p w s
  | .sectionBipCompare p => Sys2Proof.Machine.execSectionBipCompare p s
  | .sccCellRx p cell locked => Sys2Proof.Machine.execSccCellRx p cell locked s
  | .send p w => Sys2Proof.Machine.execSend p w s
  | .txDone p => Sys2Proof.Machine.execTxDone p s
  | .pop p => Sys2Proof.Machine.execPop p s
  | .deckTx p offers => Sys2Proof.Machine.execDeckTx p offers s
  | .deckRx p fills parity => Sys2Proof.Machine.execDeckRx p fills parity s
  | .ejUnf p c => Sys2Proof.Machine.execEjUnf p c s
  | .recentre p c w nearTx nearRx => Sys2Proof.Machine.execRecentre p c w nearTx nearRx s
  | .adaptRestart l w => Sys2Proof.Machine.execAdaptRestart l w s
  | .adaptDone l snr => Sys2Proof.Machine.execAdaptDone l snr s
  | .laneDown l signal => Sys2Proof.Machine.execLaneDown l signal s
  | .hlnTxffeWrite l one w => Sys2Proof.Machine.execHlnTxffeWrite l one w s
  | .cliCfgWrite c w => Sys2Proof.Machine.execCliCfgWrite c w s
  | .rsCodeword c cw frames => Sys2Proof.Machine.execRsCodeword c cw frames s
  | .ptpIngress c m => Sys2Proof.Machine.execPtpIngress c m s
  | .ptpEgress c m => Sys2Proof.Machine.execPtpEgress c m s
  | .encTxBlock c data miss ghash => Sys2Proof.Machine.execEncTxBlock c data miss ghash s
  | .encRxBlock c header body miss ghash => Sys2Proof.Machine.execEncRxBlock c header body miss ghash s
  | .encFrameRelease c last more => Sys2Proof.Machine.execEncFrameRelease c last more s
  | .resync w => Sys2Proof.Machine.execResync w s
  | .logPop w => Sys2Proof.Machine.execLogPop w s
  | .inject w => Sys2Proof.Machine.execInject w s
  | .encTribWrite c w nearTx nearRx => Sys2Proof.Machine.execEncTribWrite c w nearTx nearRx s
  | .erase w => Sys2Proof.Machine.execErase w s
  | .eraseAll w => Sys2Proof.Machine.execEraseAll w s
  | .controlRecord p rec agreed => Sys2Proof.Machine.execControlRecord p rec agreed s
  | .pwronN straps => Sys2Proof.Machine.execPwronN straps s
  | .rstN => Sys2Proof.Machine.execRstN s
  | .perstN => Sys2Proof.Machine.execPerstN s
  | .bootDone selftest flash dir => Sys2Proof.Machine.execBootDone selftest flash dir s
  | .pushDone w => Sys2Proof.Machine.execPushDone w s
  | .claim core w => Sys2Proof.Machine.execClaim core w s
  | .release core w => Sys2Proof.Machine.execRelease core w s
  | .claimExpired => Sys2Proof.Machine.execClaimExpired s
  | .info => Sys2Proof.Machine.execInfo s
  | .getCerts => Sys2Proof.Machine.execGetCerts s
  | .quote => Sys2Proof.Machine.execQuote s
  | .svnCommit took => Sys2Proof.Machine.execSvnCommit took s
  | .ownerBurn took => Sys2Proof.Machine.execOwnerBurn took s
  | .anchorSet => Sys2Proof.Machine.execAnchorSet s
  | .kaStart => Sys2Proof.Machine.execKaStart s
  | .keyInstall => Sys2Proof.Machine.execKeyInstall s
  | .debugChallenge => Sys2Proof.Machine.execDebugChallenge s
  | .debugUnlock => Sys2Proof.Machine.execDebugUnlock s
  | .hgKeyAgree => Sys2Proof.Machine.execHgKeyAgree s
  | .mbDone => Sys2Proof.Machine.execMbDone s
  | .kaInit p msg => Sys2Proof.Machine.execKaInit p msg s
  | .kaResp p msg => Sys2Proof.Machine.execKaResp p msg s
  | .kaFin p msg agreed => Sys2Proof.Machine.execKaFin p msg agreed s
  | .kaAbort p reason session => Sys2Proof.Machine.execKaAbort p reason session s
  | .kaInitResend p => Sys2Proof.Machine.execKaInitResend p s
  | .kaFinTimeout p => Sys2Proof.Machine.execKaFinTimeout p s
  | .challengeExpiry => Sys2Proof.Machine.execChallengeExpiry s
  | .tamper monitor lasts => Sys2Proof.Machine.execTamper monitor lasts s
  | .zeroise monitor => Sys2Proof.Machine.execZeroise monitor s
  | .tamperAck w => Sys2Proof.Machine.execTamperAck w s
  | .tamperAbsent => Sys2Proof.Machine.execTamperAbsent s
  | .firewall agent => Sys2Proof.Machine.execFirewall agent s
  | .refLos r => Sys2Proof.Machine.execRefLos r s
  | .monitorWindow freqs dpll phase => Sys2Proof.Machine.execMonitorWindow freqs dpll phase s
  | .freqSubwindow r count => Sys2Proof.Machine.execFreqSubwindow r count s
  | .wtrExpiry r => Sys2Proof.Machine.execWtrExpiry r s
  | .wtrClr w => Sys2Proof.Machine.execWtrClr w s
  | .histClr w => Sys2Proof.Machine.execHistClr w s
  | .clkCtlWrite r w => Sys2Proof.Machine.execClkCtlWrite r w s
  | .esmcPdu h m => Sys2Proof.Machine.execEsmcPdu h m s
  | .esmcTimeout r => Sys2Proof.Machine.execEsmcTimeout r s
  | .qlAnnounce p ssm essm => Sys2Proof.Machine.execQlAnnounce p ssm essm s
  | .dpllStageDone phase => Sys2Proof.Machine.execDpllStageDone phase s
  | .dpllLockLoss phase => Sys2Proof.Machine.execDpllLockLoss phase s
  | .tbStep w => Sys2Proof.Machine.execTbStep w s
  | .tbSnap w => Sys2Proof.Machine.execTbSnap w s
  | .trimClamp n w => Sys2Proof.Machine.execTrimClamp n w s
  | .timeTx p span ns frac => Sys2Proof.Machine.execTimeTx p span ns frac s
  | .timeRx p span ns frac => Sys2Proof.Machine.execTimeRx p span ns frac s
  | .ppsOut => Sys2Proof.Machine.execPpsOut s
  | .ppsIn => Sys2Proof.Machine.execPpsIn s
  | .enq w => Sys2Proof.Machine.execEnq w s
  | .tlqEnqDone => Sys2Proof.Machine.execTlqEnqDone s
  | .flushAll w => Sys2Proof.Machine.execFlushAll w s
  | .tlqDue e => Sys2Proof.Machine.execTlqDue e s
  | .tlqLaunchDone e lag => Sys2Proof.Machine.execTlqLaunchDone e lag s
  | .hglEn n w => Sys2Proof.Machine.execHglEn n w s
  | .hgPreamble n corr peak line => Sys2Proof.Machine.execHgPreamble n corr peak line s
  | .hgHeader n w => Sys2Proof.Machine.execHgHeader n w s
  | .hgPacket n words => Sys2Proof.Machine.execHgPacket n words s
  | .rsp n tag status words => Sys2Proof.Machine.execRsp n tag status words s
  | .tel n seq body => Sys2Proof.Machine.execTel n seq body s
  | .event n code b1 b2 => Sys2Proof.Machine.execEvent n code b1 b2 s
  | .srsp n record agreed => Sys2Proof.Machine.execSrsp n record agreed s
  | .key n body agreed => Sys2Proof.Machine.execKey n body agreed s
  | .hgRto n => Sys2Proof.Machine.execHgRto n s
  | .hgAckTimer n => Sys2Proof.Machine.execHgAckTimer n s
  | .hgIdleTimer n => Sys2Proof.Machine.execHgIdleTimer n s
  | .hgLinkTimeout n => Sys2Proof.Machine.execHgLinkTimeout n s
  | .hglAccept n w => Sys2Proof.Machine.execHglAccept n w s
  | .retrain n w => Sys2Proof.Machine.execRetrain n w s
  | .noiseClr n w => Sys2Proof.Machine.execNoiseClr n w s
  | .ecReset n w => Sys2Proof.Machine.execEcReset n w s
  | .reqGo n w pier => Sys2Proof.Machine.execReqGo n w pier s
  | .tmdGo n w pos => Sys2Proof.Machine.execTmdGo n w pos s
  | .triggerReservation n pos => Sys2Proof.Machine.execTriggerReservation n pos s
  | .trigger n pos => Sys2Proof.Machine.execTrigger n pos s
  | .execDoneTimeout n h => Sys2Proof.Machine.execExecDoneTimeout n h s
  | .kxTimeout n => Sys2Proof.Machine.execKxTimeout n s
  | .noiseGap n power => Sys2Proof.Machine.execNoiseGap n power s
  | .refEn w => Sys2Proof.Machine.execRefEn w s
  | .refReady => Sys2Proof.Machine.execRefReady s
  | .cal w => Sys2Proof.Machine.execCal w s
  | .calDone ofs1 ofs2 gain1 gain2 => Sys2Proof.Machine.execCalDone ofs1 ofs2 gain1 gain2 s
  | .scanEn w => Sys2Proof.Machine.execScanEn w s
  | .muxSettled => Sys2Proof.Machine.execMuxSettled s
  | .tcvResult raw => Sys2Proof.Machine.execTcvResult raw s
  | .scanDelayEnd => Sys2Proof.Machine.execScanDelayEnd s
  | .injGo w => Sys2Proof.Machine.execInjGo w s
  | .tcvQHeadRead => Sys2Proof.Machine.execTcvQHeadRead s
  | .qFlush w => Sys2Proof.Machine.execQFlush w s
  | .tcvStart w => Sys2Proof.Machine.execTcvStart w s
  | .tcvAge => Sys2Proof.Machine.execTcvAge s
  | .tcvDeferExp => Sys2Proof.Machine.execTcvDeferExp s
  | .calConversion vref value => Sys2Proof.Machine.execCalConversion vref value s
  | .vrefCheck band => Sys2Proof.Machine.execVrefCheck band s
  | .hgStart w => Sys2Proof.Machine.execHgStart w s
  | .hgApply w => Sys2Proof.Machine.execHgApply w s
  | .hgEchoTrigger n echo => Sys2Proof.Machine.execHgEchoTrigger n echo s
  | .hgCalMeasurement n echo => Sys2Proof.Machine.execHgCalMeasurement n echo s
  | .coreFault core => Sys2Proof.Machine.execCoreFault core s
  | .mgmtHeartbeat w => Sys2Proof.Machine.execMgmtHeartbeat w s
  | .rtDown => Sys2Proof.Machine.execRtDown s
  | .pierStart cluster w pc => Sys2Proof.Machine.execPierStart cluster w pc s
  | .pierHalt cluster w pc => Sys2Proof.Machine.execPierHalt cluster w pc s
  | .pierReset cluster w pc => Sys2Proof.Machine.execPierReset cluster w pc s
  | .recipeCheckDone => Sys2Proof.Machine.execRecipeCheckDone s
  | .pierFault engine cause pc => Sys2Proof.Machine.execPierFault engine cause pc s
  | .mbxCmdDb w => Sys2Proof.Machine.execMbxCmdDb w s
  | .cmdFetchDone entry headErr => Sys2Proof.Machine.execCmdFetchDone entry headErr s
  | .nop => Sys2Proof.Machine.execNop s
  | .regWrite x => Sys2Proof.Machine.execRegWrite x s
  | .regRead => Sys2Proof.Machine.execRegRead s
  | .loopStart => Sys2Proof.Machine.execLoopStart s
  | .loopStop pc => Sys2Proof.Machine.execLoopStop pc s
  | .ntfEvents => Sys2Proof.Machine.execNtfEvents s
  | .ntf err => Sys2Proof.Machine.execNtf err s
  | .mbxNtfAck w => Sys2Proof.Machine.execMbxNtfAck w s
  | .resyncGo w => Sys2Proof.Machine.execResyncGo w s
  | .resyncDone ok => Sys2Proof.Machine.execResyncDone ok s
  | .mbxEn w => Sys2Proof.Machine.execMbxEn w s
  | .ringRetry ok entry headErr => Sys2Proof.Machine.execRingRetry ok entry headErr s
  | .trainDone q ok => Sys2Proof.Machine.execTrainDone q ok s
  | .fillDone => Sys2Proof.Machine.execFillDone s
  | .ldFillDone p => Sys2Proof.Machine.execLdFillDone p s
  | .mergeDrain ctrl => Sys2Proof.Machine.execMergeDrain ctrl s
  | .scrubRead b word x last => Sys2Proof.Machine.execScrubRead b word x last s
  | .leak b => Sys2Proof.Machine.execLeak b s
  | .qmcLinkWindow q => Sys2Proof.Machine.execQmcLinkWindow q s
  | .writeRaw w => Sys2Proof.Machine.execWriteRaw w s
  | .readRaw w => Sys2Proof.Machine.execReadRaw w s
  | .qmcRetrain q w => Sys2Proof.Machine.execQmcRetrain q w s
  | .trussFlit p toLine m bad => Sys2Proof.Machine.execTrussFlit p toLine m bad s
  | .trussLaneWindow p toLine m worst total => Sys2Proof.Machine.execTrussLaneWindow p toLine m worst total s
  | .modUp p m ok hub line => Sys2Proof.Machine.execModUp p m ok hub line s
  | .trsRetrain p onDie w => Sys2Proof.Machine.execTrsRetrain p onDie w s
  | .dmaStart c w => Sys2Proof.Machine.execDmaStart c w s
  | .startShd c w => Sys2Proof.Machine.execStartShd c w s
  | .abort c w => Sys2Proof.Machine.execAbort c w s
  | .disarm c w => Sys2Proof.Machine.execDisarm c w s
  | .shdArm c w => Sys2Proof.Machine.execShdArm c w s
  | .dmaSetWrite c shadow r w => Sys2Proof.Machine.execDmaSetWrite c shadow r w s
  | .dmaReadCompletion c host x e keep => Sys2Proof.Machine.execDmaReadCompletion c host x e keep s
  | .dmaRetry c => Sys2Proof.Machine.execDmaRetry c s
  | .dmaDrainDone c => Sys2Proof.Machine.execDmaDrainDone c s
  | .dmaReadbackDone c hostOk x => Sys2Proof.Machine.execDmaReadbackDone c hostOk x s
  | .perfSelWrite idx w => Sys2Proof.Machine.execPerfSelWrite idx w s
  | .perfSnap w => Sys2Proof.Machine.execPerfSnap w s
  | .snapDone => Sys2Proof.Machine.execSnapDone s
  | .bwLatch bits => Sys2Proof.Machine.execBwLatch bits s
  | .bwWinWrite w bits clocks => Sys2Proof.Machine.execBwWinWrite w bits clocks s
  | .wrap idx => Sys2Proof.Machine.execWrap idx s
  | .dip rail dur depth => Sys2Proof.Machine.execDip rail dur depth s
  | .ldBrown rail => Sys2Proof.Machine.execLdBrown rail s
  | .hubBrown which => Sys2Proof.Machine.execHubBrown which s
  | .avsChg p target => Sys2Proof.Machine.execAvsChg p target s
  | .thermWarn temps => Sys2Proof.Machine.execThermWarn temps s
  | .thermClear temps => Sys2Proof.Machine.execThermClear temps s
  | .thermCrit temps => Sys2Proof.Machine.execThermCrit temps s
  | .enter w => Sys2Proof.Machine.execEnter w s
  | .basculeIn => Sys2Proof.Machine.execBasculeIn s
  | .wake w => Sys2Proof.Machine.execWake w s
  | .wakeDone temps => Sys2Proof.Machine.execWakeDone temps s
  | .oscInLoss => Sys2Proof.Machine.execOscInLoss s
  | .sigDet l => Sys2Proof.Machine.execSigDet l s
  | .pcsAlignmentLock c lock skew => Sys2Proof.Machine.execPcsAlignmentLock c lock skew s
  | .egressBlock c kind marked fill adj par => Sys2Proof.Machine.execEgressBlock c kind marked fill adj par s
  | .completionTimeout c => Sys2Proof.Machine.execCompletionTimeout c s
  | .railRecovery rail => Sys2Proof.Machine.execRailRecovery rail s
  | .sdsBrown hv => Sys2Proof.Machine.execSdsBrown hv s
  | .pllUnlock p => Sys2Proof.Machine.execPllUnlock p s
  | .ppsPulseEnd => Sys2Proof.Machine.execPpsPulseEnd s

end Sys2Proof.Machine
end

