-- ==== Sys2Proof/Safety.lean ====
section
/-! DEFINITION.  The words the statements are made of: what a command answers, an event raised, what the end of a command
may touch, the frame of a command, and the invariant of the machine. -/

namespace Sys2Proof.Machine

/-- The command answers a next state, leaves the waiting commands alone, and what it makes of the device satisfies `Q`. -/
def Yields (c : Instr) (s : State) (Q : Dev → Prop) : Prop :=
  ∃ t, exec c s = .next t ∧ t.pending = s.pending ∧ Q t.dev

/-- OSC_IN runs: the state outside the keystone is specified (R619). -/
abbrev State.clocked (s : State) : Prop := s.dev.lost = false

/-- The sticky bit of a local event source is set (R45). -/
abbrev Dev.raised (d : Dev) (pg src : Nat) : Prop := FMap.get d.evt.sticky (pg * 64 + src) ≠ 0

/-- A key that the end of any command may write: the general performance counters (R561), and what shows the backlog of
notifications (R507, R515). -/
def settleKey (k : Nat) : Bool :=
  (keyPage k == pgPERFW && decide (0xC00 ≤ keyOff k) && decide (keyOff k < 0xD00)) ||
    k == fkey pgMBX MBX.STATUS_NTF_FULL.off MBX.STATUS_NTF_FULL.lo ||
    k == fkey pgMBX MBX.STAT_BACKLOG.off MBX.STAT_BACKLOG.lo || k == fkey pgMBX MBX.NTF_LOST.off MBX.NTF_LOST.lo

/-- What the event machinery alone may do between `a` and `b`: sticky bits only set, EVT_COUNT, EVT_FIRST, assertion, MSI-X
pending bits, pier event queues, notifications and performance counters move; masks, routes, every other register, every
memory, queue and table stay. -/
structure Quiet (a b : Dev) : Prop where
  regs : ∀ k, settleKey k = false → FMap.get b.regs k = FMap.get a.regs k
  rest : b = { a with regs := b.regs, evt := b.evt, mgmt := b.mgmt, occ := b.occ, out := b.out }
  mgmt : b.mgmt = { a.mgmt with ntf := b.mgmt.ntf, lost := b.mgmt.lost }
  masks : b.evt.unmasked = a.evt.unmasked ∧ b.evt.route = a.evt.route ∧ b.evt.msixEn = a.evt.msixEn ∧ b.evt.fmask = a.evt.fmask
  sticky : ∀ k, FMap.get a.evt.sticky k ≠ 0 → FMap.get b.evt.sticky k ≠ 0

/-- The frame of a command: between `a` and `b` no register changes but those whose keys `ks` names (and what `Quiet` lets
the end of any command write), and no pending value, memory, queue or table does. -/
structure Frame (ks : List Nat) (a b : Dev) : Prop where
  regs : ∀ k, k ∉ ks → settleKey k = false → FMap.get b.regs k = FMap.get a.regs k
  rest : b = { a with regs := b.regs, evt := b.evt, mgmt := b.mgmt, occ := b.occ, out := b.out }
  mgmt : b.mgmt = { a.mgmt with ntf := b.mgmt.ntf, lost := b.mgmt.lost }
  masks : b.evt.unmasked = a.evt.unmasked ∧ b.evt.route = a.evt.route ∧ b.evt.msixEn = a.evt.msixEn ∧ b.evt.fmask = a.evt.fmask
  sticky : ∀ k, FMap.get a.evt.sticky k ≠ 0 → FMap.get b.evt.sticky k ≠ 0

/-- The key of a field on a page. -/
def Fld.key (f : Fld) (pg : Nat) : Nat := fkey pg f.off f.lo

/-- Every byte of memory reads in `b` as in `a`, but for the `n` bytes from `lo`. -/
def memKept (a b : Dev) (lo n : Nat) : Prop := ∀ k, (k < lo ∨ lo + n ≤ k) → memRead b.mem k = memRead a.mem k

/-- The four classes of an engine's slots sum to its cycles modulo 2^48 (R567). -/
def TdCount.balanced (t : TdCount) : Prop := (t.retired + t.wasted + t.front + t.back) % 2 ^ 48 = t.cycles % 2 ^ 48

/-- Every engine's top-down counters balance, live and in the last snapshot. -/
def Dev.tdBalanced (d : Dev) : Prop := ∀ k, (tdOf d.td k).balanced ∧ (tdOf d.tdSnap k).balanced

/-- The register store and the sticky bits have their canonical form and, as long as OSC_IN is known to run, the pending
values and the memory too. -/
def Dev.canonical (d : Dev) : Prop :=
  FMap.wf d.regs = true ∧ FMap.wf d.evt.sticky = true ∧ (d.lost = false → FMap.wf d.pend = true ∧ Memory.wf d.mem = true)

/-- The end of a command leaves no occurrence over, and the assertions follow the sticky and mask bits (R46). -/
def Dev.settled (d : Dev) : Prop := d.occ = [] ∧ (d.lost = false → d.evt.asserted = d.evt.assertedNow)

/-- A message as numbers. -/
abbrev bytesOf (l : List (BitVec 8)) : List Nat := l.map (·.toNat)

/-- The keystone runs a mailbox request with this opcode and body length: STATE RUN, no debug scope open, no zeroise latched,
no tamper warning under way, no result settled yet (R358, R359, R371, R629). -/
abbrev Dev.ksWaits (d : Dev) (op len : Nat) : Prop :=
  d.get pgKSMB KSMB.MB_STAT_BUSY = 1 ∧ d.get pgKSMB KSMB.REQ_OPCODE = op ∧ d.get pgKSMB KSMB.REQ_LEN = len ∧
    d.get pgKSMB KSMB.BOOT_STATE = 6 ∧ d.get pgKSMB KSMB.STATUS_DEBUG = 0 ∧ d.get pgKSMB KSMB.STATUS_TAMPER = 0 ∧ d.ks.result = none ∧
    d.ks.warn = []

end Sys2Proof.Machine
end

