-- ==== Sys2Proof/Certificates/Slice0/Obligations.lean ====
section
/-! DEFINITION.  The statements about the block.  Each command of the table has a clause that says what it answers where the
rules give it its effect; `s.clocked` is the premise that OSC_IN runs, since without it the spec gives no state (R619). -/

open Sys2Proof Sys2Proof.Machine

/-- For every command and every state whose queue begins with it, the step is that command carried out on the state with the rest of the queue. -/
def Obligations.StepRunsFront : Prop :=
  ∀ (c : Instr) (rest : List Instr) (s : State), s.pending = c :: rest →
  step s = exec c { s with pending := rest }

/-- Every command of the table, in every state, answers a next state, with the waiting commands as they were; a step removes the front command and no other. Nothing is refused and nothing faults. -/
def Obligations.EveryCommandCompletes : Prop :=
  (∀ (c : Instr) (s : State), ∃ t, exec c s = .next t ∧ t.pending = s.pending) ∧
  (∀ (s : State), ∃ t, step s = .next t ∧ t.pending = s.pending.drop 1)

/-- The opcode table gives no row of this block any bits: every word decodes to nothing, and a state with such a word placed is the state itself. -/
def Obligations.NoWordSpellsACommand : Prop :=
  ∀ (nbits w : Nat) (s : State), decodeTableWord nbits w = none ∧ s.withFetchWord nbits w = s

/-- The state after reset has its registers, sticky bits, pending values and memory in canonical form, is settled, has balanced top-down counters, OSC_IN running, no waiting command, and no commit armed. -/
def Obligations.ResetMeetsInvariants : Prop :=
  ∀ (s : State), s = State.reset → s.dev.canonical ∧ s.dev.settled ∧ s.dev.tdBalanced ∧ s.clocked ∧ s.dev.mem = [] ∧ s.dev.commits = [] ∧ s.pending = []

/-- After every step from any state, while OSC_IN is known to run: no occurrence is left over; a source is asserted exactly when its sticky bit is set and its mask bit is clear; a group of 32 global sources is asserted exactly when one of its sources is and EVT_GRP_MASK does not mask it; the top summary exactly when some group is. The group clause reads the sticky bits in their canonical form, which CanonicalForm keeps. -/
def Obligations.EventsFollowStickyAndMask : Prop :=
  (∀ (s t : State), step s = .next t → t.dev.settled) ∧
  (∀ (s t : State), step s = .next t → t.clocked → ∀ k, (FMap.get t.dev.evt.asserted k ≠ 0 ↔
        FMap.get t.dev.evt.sticky k ≠ 0 ∧ FMap.get t.dev.evt.unmasked k ≠ 0)) ∧
  (∀ (s t : State), step s = .next t → t.clocked → FMap.wf t.dev.evt.sticky = true → ∀ g, g < 36 → (t.dev.groupUp g = true ↔
        (∃ k, FMap.get t.dev.evt.asserted k ≠ 0 ∧ globalSrc k / 32 = g) ∧
          (if g < 32 then bitOf (t.dev.get pgEVT0 EVT0.GRP_MASK_LO_MASK) g else bitOf (t.dev.get pgEVT0 EVT0.GRP_MASK_HI_MASK) (g - 32)) = false)) ∧
  (∀ (s : State), s.dev.topUp = true ↔ ∃ g, g < 36 ∧ s.dev.groupUp g = true)

/-- From every state in canonical form a step leads to one in canonical form: keys rising, nothing listed at what an unlisted key reads as, for the registers, the sticky bits and, while OSC_IN is known to run, the pending values and the bytes of memory. The canonical form is the model's own way of holding them. -/
def Obligations.CanonicalForm : Prop :=
  ∀ (s t : State), s.dev.canonical → step s = .next t → t.dev.canonical

/-- From every state whose top-down counters balance, live and snapshotted, every step leads to such a state while OSC_IN is known to run, so in any snapshot RETIRED + WASTED + FRONT + BACK equals CYCLES modulo 2^48 for every engine; and the differences of the classes between two balanced snapshots sum to the difference of CYCLES modulo 2^48. -/
def Obligations.TopDownBalance : Prop :=
  (∀ (s t : State), s.dev.tdBalanced → step s = .next t → t.clocked → t.dev.tdBalanced) ∧
  (∀ (a b : TdCount), a.balanced → b.balanced →
      ((b.retired : Int) - a.retired + (b.wasted - a.wasted) + (b.front - a.front) + (b.back - a.back)) % 2 ^ 48 = ((b.cycles : Int) - a.cycles) % 2 ^ 48)

/-- On a page that has no block, a 32-bit or 64-bit read returns zero, and a write, a masking, a force, a soft reset, a staged write or an arm of it changes nothing but sets the sticky bit of UNMAPPED, SYS source 1. -/
def Obligations.UnassignedPages : Prop :=
  (∀ (off : BitVec 22) (wide : Bool) (s : State), s.clocked → pageInfo (off.toNat / 4096) = none → off.toNat % (if wide then 8 else 4) = 0 →
      Yields (.loRead off wide) s fun d => Output.readData (some 0) ∈ d.out ∧ Frame [] s.dev d) ∧
  (∀ (core wide : Bool) (off : BitVec 22) (data : BitVec 64) (x : HostEnv) (s : State), s.clocked → pageInfo (off.toNat / 4096) = none → off.toNat % (if wide then 8 else 4) = 0 →
      Yields (.registerWrite core off wide data x) s fun d => d.raised pgSYS 1 ∧ Frame [] s.dev d) ∧
  (∀ (pg : BitVec 10) (k : Fin 4) (w lo hi : Word) (x : HostEnv) (nearTx nearRx : Bool) (s : State), s.clocked → pageInfo pg.toNat = none →
      Yields (.evtMaskWrite pg k w) s (fun d => d.raised pgSYS 1 ∧ Frame [] s.dev d) ∧
      Yields (.force pg k w) s (fun d => d.raised pgSYS 1 ∧ Frame [] s.dev d) ∧
      Yields (.softRst pg x) s (fun d => d.raised pgSYS 1 ∧ Frame [] s.dev d) ∧
      Yields (.commitArm pg lo hi nearTx nearRx) s (fun d => d.raised pgSYS 1 ∧ Frame [] s.dev d)) ∧
  (∀ (off : BitVec 22) (w : Word) (nearTx nearRx : Bool) (s : State), s.clocked → pageInfo (off.toNat / 4096) = none →
      Yields (.rwsWrite off w nearTx nearRx) s (fun d => d.raised pgSYS 1 ∧ Frame [] s.dev d) ∧
      Yields (.unmapped off w) s (fun d => d.raised pgSYS 1 ∧ Frame [] s.dev d))

/-- A write of TBn_TRIM is held as written and applied as a signed number of units of 10^-12, limited to plus or minus 500,000,000; beyond the limits it sets TRIM_SAT[n] and raises TRIM_CLAMP; nothing else changes. At the next hub clock time base n advances by one clock, 32/45 ns, times 1 + trim x 10^-12. -/
def Obligations.TimeBaseTrim : Prop :=
  (∀ (n : Fin 4) (w : Word) (s : State), s.clocked →
      Yields (.trimClamp n w) s fun d => d.get pgTB (TB.TRIM.at n.val) = w.toNat ∧
        d.tbTrim n.val = (if w.toInt < -500000000 then -500000000 else if 500000000 < w.toInt then 500000000 else w.toInt) ∧
        ((w.toInt < -500000000 ∨ 500000000 < w.toInt) → bitOf (d.get pgTB TB.STATUS_TRIM_SAT) n.val = true ∧ d.raised pgTB 7) ∧
        Frame [(TB.TRIM.at n.val).key pgTB, TB.STATUS_TRIM_SAT.key pgTB] s.dev d) ∧
  (∀ (s : State), s.pending = [] → s.clocked →
      ∃ t, step s = .next t ∧ t.clocked ∧ ∀ n : Fin 4, FMap.get t.dev.tb n.val =
        (((FMap.get s.dev.tb n.val : Int) + 2 ^ 21 * (10 ^ 12 + s.dev.tbTrim n.val)) % ((m80 * tbParts : Nat) : Int)).toNat)

/-- The model's choice of log 2: with an empty queue a step is one hub clock. Memory, commits, pending values, keys and queues stay; the count of clocks advances by one; an engine that is not in RUN counts nothing; on one of the 32 of every 45 hub clocks that start an engine cycle, an engine in RUN counts one cycle. -/
def Obligations.EmptyQueueIsOneClock : Prop :=
  ∀ (s : State), s.pending = [] → s.clocked →
  ∃ t, step s = .next t ∧ t.pending = [] ∧ t.dev.ticks = s.dev.ticks + 1 ∧ t.dev.mem = s.dev.mem ∧ t.dev.commits = s.dev.commits ∧ t.dev.pend = s.dev.pend ∧
    t.dev.enc = s.dev.enc ∧ t.dev.ks = s.dev.ks ∧ t.dev.scc = s.dev.scc ∧ t.dev.map = s.dev.map ∧ t.dev.conv = s.dev.conv ∧ t.dev.eq = s.dev.eq ∧
    (∀ k : Fin 192, s.dev.engState k.val ≠ 3 → tdOf t.dev.td k.val = tdOf s.dev.td k.val) ∧
    (∀ k : Fin 192, s.dev.engState k.val = 3 → (s.dev.ticks + 1) * 32 / 45 ≠ s.dev.ticks * 32 / 45 →
      (tdOf t.dev.td k.val).cycles = ((tdOf s.dev.td k.val).cycles + 1) % 2 ^ 48)

/-- A write of plain registers takes their fields, the upper word of a 64-bit write going to the next register; a read of a counter's low word returns it and captures the high word, and a 64-bit read returns both; a partial access, a write of an unassigned page and a write of a page of a line die out of reach do nothing but raise their event of the SYS page. -/
def Obligations.RegisterAccess : Prop :=
  (∀ (core wide : Bool) (off : BitVec 22) (data : BitVec 64) (x : HostEnv) (s : State), s.clocked → off.toNat = pgSYS * 4096 + 0x100 →
      Yields (.registerWrite core off wide data x) s fun d => d.get pgSYS SYS.SRAM_WIN_SLICE = data.toNat % 4 ∧
        d.get pgSYS SYS.PERF_USER_EN_EN = (if wide then data.toNat / 2 ^ 32 % 2 else s.dev.get pgSYS SYS.PERF_USER_EN_EN) ∧
        Frame [SYS.SRAM_WIN_SLICE.key pgSYS, SYS.PERF_USER_EN_EN.key pgSYS] s.dev d) ∧
  (∀ (core : Bool) (p : Port) (off : BitVec 22) (data : BitVec 64) (x : HostEnv) (s : State), s.clocked → s.dev.online p = true → off.toNat = pgTXS p * 4096 + 0x188 →
      Yields (.registerWrite core off false data x) s fun d => d.get (pgTXS p) TXS.NET = s.dev.get (pgTXS p) TXS.NET ∧
        (∀ f ∈ TXS.table, f.acc = .rw → f.off = 0x188 → d.get (pgTXS p) f = f.ofWord (data.toNat % 2 ^ 32)) ∧ d.mem = s.dev.mem ∧ d.commits = s.dev.commits) ∧
  (∀ (c : Fin 8) (off : BitVec 22) (s : State), s.clocked → off.toNat = pgDMA * 4096 + 0xC00 + 32 * c.val →
      Yields (.loRead off false) s fun d => Output.readData (some (s.dev.get pgDMA (DMA.BYTES_TOTAL.at c.val) % 2 ^ 32)) ∈ d.out ∧
        AMap.find? d.hiCap (off.toNat + 4) = some (s.dev.get pgDMA (DMA.BYTES_TOTAL.at c.val) % 2 ^ 48 / 2 ^ 32) ∧ Frame [] { s.dev with hiCap := d.hiCap } d) ∧
  (∀ (c : Fin 8) (off : BitVec 22) (s : State), s.clocked → off.toNat = pgDMA * 4096 + 0xC00 + 32 * c.val →
      Yields (.loRead off true) s fun d => Output.readData (some (s.dev.get pgDMA (DMA.BYTES_TOTAL.at c.val) % 2 ^ 48)) ∈ d.out ∧
        AMap.find? d.hiCap (off.toNat + 4) = none ∧ Frame [] { s.dev with hiCap := d.hiCap } d) ∧
  (∀ (off : BitVec 22) (v : Nat) (s : State), s.clocked → off.toNat = pgDMA * 4096 + 0xC04 → AMap.find? s.dev.hiCap (pgDMA * 4096 + 0xC04) = some v →
      Yields (.loRead off false) s fun d => Output.readData (some v) ∈ d.out ∧ AMap.find? d.hiCap (pgDMA * 4096 + 0xC04) = none ∧ Frame [] { s.dev with hiCap := d.hiCap } d) ∧
  (∀ (off : BitVec 22) (s : State), s.clocked →
      Yields (.barPartial off) s fun d => d.raised pgSYS 0 ∧ Frame [] s.dev d) ∧
  (∀ (off : BitVec 22) (w : Word) (s : State), s.clocked → pageInfo (off.toNat / 4096) = none →
      Yields (.unmapped off w) s fun d => d.raised pgSYS 1 ∧ Frame [] s.dev d) ∧
  (∀ (p : Port) (off : BitVec 22) (w : Word) (i : PageInfo) (s : State), s.clocked → pageInfo (off.toNat / 4096) = some i → i.die = some p → s.dev.online p = false →
      Yields (.ldOffline off w) s fun d => d.raised pgSYS 2 ∧ Frame [] s.dev d)

/-- A write of an event mask masks and unmasks the page's sources bit by bit and touches no register; a one written to a force register sets the sticky bit of its source, and an unmasked one whose route enables MSI-X sends its message; enabling MSI-X sends what was pending on unmasked vectors; unmasking a vector sends its pending message. -/
def Obligations.EventRegisters : Prop :=
  (∀ (pg : BitVec 10) (k : Fin 4) (w : Word) (i : PageInfo) (s : State), s.clocked → pageInfo pg.toNat = some i → i.die = none →
      Yields (.evtMaskWrite pg k w) s fun d => (∀ b : Fin 32, hasSrc pg.toNat (32 * k.val + b.val) = true →
          FMap.get d.evt.unmasked (pg.toNat * 64 + 32 * k.val + b.val) = b2n (!w.getLsbD b.val)) ∧
        Quiet { s.dev with evt := { s.dev.evt with unmasked := d.evt.unmasked } } d) ∧
  (∀ (pg : BitVec 10) (k : Fin 4) (w : Word) (i : PageInfo) (s : State), s.clocked → pageInfo pg.toNat = some i → i.die = none →
      Yields (.force pg k w) s fun d => (∀ b : Fin 32, hasSrc pg.toNat (32 * k.val + b.val) = true → w.getLsbD b.val = true → d.raised pg.toNat (32 * k.val + b.val)) ∧
        Frame [] s.dev d) ∧
  (∀ (en fmask : Bool) (s : State), s.clocked →
      Yields (.msixEnable en fmask) s fun d => d.evt.msixEn = en ∧ d.evt.fmask = fmask ∧
        (∀ v : Fin 64, en = true → fmask = false → s.dev.flag pgEVT0 (EVT0.MSIX_VCTL_MASK.at v.val) = false → FMap.get s.dev.evt.pba v.val ≠ 0 →
          FMap.get d.evt.pba v.val = 0 ∧ Output.msix v.val (s.dev.getLH pgEVT0 (EVT0.MSIX_ADDR_ADDR.at v.val) (EVT0.MSIX_UADDR_ADDR.at v.val))
            (s.dev.get pgEVT0 (EVT0.MSIX_DATA_DATA.at v.val)) ∈ d.out)) ∧
  (∀ (v : Fin 64) (w : Word) (s : State), s.clocked → s.dev.evt.msixEn = true → s.dev.evt.fmask = false → FMap.get s.dev.evt.pba v.val ≠ 0 →
      Yields (.msixVectorUnmask v w) s fun d => d.flag pgEVT0 (EVT0.MSIX_VCTL_MASK.at v.val) = false ∧ FMap.get d.evt.pba v.val = 0 ∧
        Output.msix v.val (s.dev.getLH pgEVT0 (EVT0.MSIX_ADDR_ADDR.at v.val) (EVT0.MSIX_UADDR_ADDR.at v.val)) (s.dev.get pgEVT0 (EVT0.MSIX_DATA_DATA.at v.val)) ∈ d.out) ∧
  (∀ (k : Fin 4) (b : Fin 32) (w : Word) (key v : Nat) (s : State), s.clocked → key = pgSYS * 64 + 32 * k.val + b.val → hasSrc pgSYS (32 * k.val + b.val) = true →
      w.toNat = 2 ^ b.val → s.dev.occ = [] → FMap.get s.dev.evt.unmasked key ≠ 0 → FMap.get s.dev.evt.asserted key = 0 → bitOf (FMap.get s.dev.evt.route (globalSrc key)) 8 = true →
      v = bitsOf (FMap.get s.dev.evt.route (globalSrc key)) 0 6 → s.dev.evt.msixEn = true → s.dev.evt.fmask = false → s.dev.flag pgEVT0 (EVT0.MSIX_VCTL_MASK.at v) = false →
      Yields (.force (BitVec.ofNat 10 pgSYS) k w) s fun d => d.raised pgSYS (32 * k.val + b.val) ∧
        Output.msix v (s.dev.getLH pgEVT0 (EVT0.MSIX_ADDR_ADDR.at v) (EVT0.MSIX_UADDR_ADDR.at v)) (s.dev.get pgEVT0 (EVT0.MSIX_DATA_DATA.at v)) ∈ d.out)

/-- A soft reset of the SYS, PWR, TLQ, QMC, ECC, TRS or SCC page returns its RW, W1C and RWS fields, live and pending, to their reset values, keeps its RO fields but those of COMMIT_STAT and its counters, clears its sticky bits, masks its sources, cancels its armed commit and keeps memory. One of the CAL page returns its RW fields to reset, masks its sources and keeps memory. One of EVT0 returns the group masks and EVT_INTN_CTL to reset and keeps the MSI-X table and its pending bits; one of EVT1 to EVT4 keeps the routes. One of the KSMB, KEYS, MGMT, EVT5, EVT6 or EVT7 page changes nothing. TB's puts every time base at zero. TCV's ends the scan and the injection, empties the queue, and clears REF_EN and REF_READY; a calibration it ends fails. MBX's clears EN and the three bases, sets PERST_SEEN, raises PERST and keeps the commands fetched and the heads. A PIER page's puts every engine of the cluster that is not OFF into HALT, and leaves the engines of other clusters as they are. -/
def Obligations.SoftResets : Prop :=
  (∀ (pg : BitVec 10) (x : HostEnv) (s : State), s.clocked → pg.toNat ∈ [pgSYS, pgPWR, pgTLQ, pgQMC 0, pgQMC 1, pgECC, pgTRS 0, pgTRS 1, pgSCC 0, pgSCC 1] →
      Yields (.softRst pg x) s fun d => (∀ f ∈ ownTable pg.toNat, ∀ i < f.count, f.acc = .rw ∨ f.acc = .w1c ∨ f.acc = .rwst ∨ f.acc = .rwsr → d.get pg.toNat (f.at i) = (f.at i).resetOn pg.toNat) ∧
        (∀ f ∈ ownTable pg.toNat, ∀ i < f.count, f.acc = .rwst ∨ f.acc = .rwsr → d.pget pg.toNat (f.at i) = (f.at i).resetOn pg.toNat) ∧
        (∀ f ∈ ownTable pg.toNat, ∀ i < f.count, f.acc = .ro ∨ f.acc = .cnt → d.get pg.toNat (f.at i) = s.dev.get pg.toNat (f.at i)) ∧
        (∀ e ∈ d.evt.sticky, e.1 / 64 ≠ pg.toNat) ∧ (∀ e ∈ d.evt.unmasked, e.1 / 64 ≠ pg.toNat) ∧ AMap.find? d.commits pg.toNat = none ∧ d.mem = s.dev.mem) ∧
  (∀ (pg : BitVec 10) (x : HostEnv) (s : State), s.clocked → pg.toNat = pgCAL →
      Yields (.softRst pg x) s fun d => (∀ f ∈ ownTable pg.toNat, ∀ i < f.count, f.acc = .rw → d.get pg.toNat (f.at i) = (f.at i).resetOn pg.toNat) ∧
        d.mem = s.dev.mem ∧ (∀ e ∈ d.evt.unmasked, e.1 / 64 ≠ pg.toNat)) ∧
  (∀ (pg : BitVec 10) (x : HostEnv) (s : State), s.clocked → pg.toNat = pgEVT0 →
      Yields (.softRst pg x) s fun d => d.get pgEVT0 EVT0.GRP_MASK_LO_MASK = 0 ∧ d.get pgEVT0 EVT0.GRP_MASK_HI_MASK = 0 ∧
        d.get pgEVT0 EVT0.INTN_CTL_EN = 0 ∧ d.get pgEVT0 EVT0.INTN_CTL_TEST = 0 ∧ (∀ e ∈ s.dev.evt.pba, e.2 ≠ 0 → FMap.get d.evt.pba e.1 ≠ 0) ∧
        ∀ v : Fin 64, d.get pgEVT0 (EVT0.MSIX_ADDR_ADDR.at v.val) = s.dev.get pgEVT0 (EVT0.MSIX_ADDR_ADDR.at v.val) ∧
          d.get pgEVT0 (EVT0.MSIX_UADDR_ADDR.at v.val) = s.dev.get pgEVT0 (EVT0.MSIX_UADDR_ADDR.at v.val) ∧
          d.get pgEVT0 (EVT0.MSIX_DATA_DATA.at v.val) = s.dev.get pgEVT0 (EVT0.MSIX_DATA_DATA.at v.val) ∧
          d.get pgEVT0 (EVT0.MSIX_VCTL_MASK.at v.val) = s.dev.get pgEVT0 (EVT0.MSIX_VCTL_MASK.at v.val)) ∧
  (∀ (pg : BitVec 10) (x : HostEnv) (s : State), s.clocked → pg.toNat ∈ [pgEVT0 + 1, pgEVT0 + 2, pgEVT0 + 3, pgEVT0 + 4] →
      Yields (.softRst pg x) s fun d => d.evt.route = s.dev.evt.route ∧ d.mem = s.dev.mem) ∧
  (∀ (pg : BitVec 10) (x : HostEnv) (s : State), s.clocked → pg.toNat ∈ [pgKSMB, pgKEYS, pgMGMT, pgEVT0 + 5, pgEVT0 + 6, pgEVT0 + 7] →
      Yields (.softRst pg x) s fun d => Frame [] s.dev d) ∧
  (∀ (s : State), s.clocked →
      Yields (.tbSoftRst) s fun d => d.tb = [] ∧ ∀ n : Fin 4, d.tbNs n.val = 0) ∧
  (∀ (s : State), s.clocked → s.dev.tcv.cal ≠ 2 →
      Yields (.tcvSoftRst) s fun d => d.tcv.queue = [] ∧ d.tcv.phase = 0 ∧ d.tcv.inj = 0 ∧ d.get pgTCV TCV.CTL_SCAN_EN = 0 ∧ d.get pgTCV TCV.CTL_REF_EN = 0 ∧
        d.get pgTCV TCV.STATUS_RUN = 0 ∧ d.get pgTCV TCV.STATUS_REF_READY = 0 ∧ d.get pgTCV TCV.Q_STAT_LEVEL = 0) ∧
  (∀ (s : State), s.clocked → s.dev.tcv.cal = 2 →
      Yields (.tcvSoftRst) s fun d => d.tcv.queue = [] ∧ d.tcv.cal = 0 ∧ d.get pgTCV TCV.CTL_SCAN_EN = 0 ∧ d.get pgTCV TCV.CTL_REF_EN = 0 ∧
        d.get pgTCV TCV.STATUS_RUN = 0 ∧ d.get pgTCV TCV.STATUS_REF_READY = 0 ∧ d.get pgTCV TCV.Q_STAT_LEVEL = 0 ∧
        d.get pgTCV TCV.CAL_STAT_RESULT = 2 ∧ d.raised pgTCV 1) ∧
  (∀ (s : State), s.clocked →
      Yields (.mbxSoftRst) s fun d => d.get pgMBX MBX.CTL_EN = 0 ∧ d.get pgMBX MBX.CMD_BASE_LO_BASE = 0 ∧ d.get pgMBX MBX.CMD_BASE_HI_BASE = 0 ∧
        d.get pgMBX MBX.NTF_BASE_LO_BASE = 0 ∧ d.get pgMBX MBX.NTF_BASE_HI_BASE = 0 ∧ d.get pgMBX MBX.HEAD_BASE_LO_BASE = 0 ∧
        d.get pgMBX MBX.HEAD_BASE_HI_BASE = 0 ∧ d.get pgMBX MBX.STATUS_RUN = 0 ∧ d.get pgMBX MBX.STAT_PERST_SEEN = 1 ∧ d.raised pgMBX 5 ∧
        d.mgmt.cmds = s.dev.mgmt.cmds ∧ d.get pgMBX MBX.CMD_CONSUMED_SEQ = s.dev.get pgMBX MBX.CMD_CONSUMED_SEQ ∧
        d.get pgMBX MBX.CMD_DONE_SEQ = s.dev.get pgMBX MBX.CMD_DONE_SEQ ∧ d.get pgMBX MBX.NTF_WRITTEN_SEQ = s.dev.get pgMBX MBX.NTF_WRITTEN_SEQ) ∧
  (∀ (cluster : Fin 12) (pcs : List (BitVec 14)) (s : State), s.clocked →
      Yields (.pierSoftRst cluster pcs) s fun d => (∀ e : Fin 16, d.engState (16 * cluster.val + e.val) = (if s.dev.engState (16 * cluster.val + e.val) = 0 then 0 else 1)) ∧
        ∀ k : Fin 192, k.val / 16 ≠ cluster.val → d.engState k.val = s.dev.engState k.val)

/-- A REG_WRITE at the head of the ring applies its pairs and completes with the number applied; one whose first pair names a keystone field applies nothing and completes all the same, with a result the spec does not state; a REG_READ completes with the words read; neither does anything where another command is at the head. -/
def Obligations.RingRegisterAccess : Prop :=
  (∀ (x : HostEnv) (c : RingCmd) (v : BitVec 32) (s : State), s.clocked → s.dev.mgmt.cmds = [c] → c.op = 2 → c.started = false →
      c.payload = leBytes 4 0x100 ++ leBytes 4 v.toNat →
      Yields (.regWrite x) s fun d => d.get pgSYS SYS.SRAM_WIN_SLICE = v.toNat % 4 ∧ d.mgmt.cmds = [] ∧ ⟨1, c.seq, 0, [1]⟩ ∈ d.mgmt.ntf) ∧
  (∀ (x : HostEnv) (c : RingCmd) (v : BitVec 32) (s : State), s.clocked → s.dev.mgmt.cmds = [c] → c.op = 2 → c.started = false →
      c.payload = leBytes 4 0x3FF000 ++ leBytes 4 v.toNat →
      Yields (.regWrite x) s fun d => d.mgmt.cmds = [] ∧ (∃ n ∈ d.mgmt.ntf, n.typ = 1 ∧ n.ref = c.seq ∧ n.data = [0]) ∧ d.mem = s.dev.mem ∧ d.commits = s.dev.commits) ∧
  (∀ (c : RingCmd) (s : State), s.clocked → s.dev.mgmt.cmds = [c] → c.op = 3 → c.started = false → c.payload = leBytes 4 0x104 →
      Yields (.regRead) s fun d => d.mgmt.cmds = [] ∧ ⟨1, c.seq, 0, leBytes 4 (s.dev.get pgSYS SYS.PERF_USER_EN_EN % 2)⟩ ∈ d.mgmt.ntf) ∧
  (∀ (x : HostEnv) (s : State), s.clocked → s.dev.mgmt.cmds = [] →
      Yields (.regWrite x) s fun d => Frame [] s.dev d)

/-- A transmit frame boundary advances the frame index; past frame 4,095 the span index advances modulo 2^48, or takes the value a SET left waiting, which cancels the port's commits and raises its event; the receive counter advances likewise while it is valid and holds its position while it is not; TX_EN starts the counter at the span it holds, clearing it stops nothing by itself, and the stop leaves the counter at frame 0 of the next span; SET and ADOPT act at once on a stopped counter and wait on a running one; an announcement that agrees with its header in anchor lock validates the receive counter and changes nothing where it disagrees. -/
def Obligations.SpanCounters : Prop :=
  (∀ (p : Port) (tx : TxFrame) (s : State), s.clocked → s.dev.online p = true → s.dev.txRun p = true → s.dev.stopDue p = false →
      s.dev.commits = [] → s.dev.get (pgLFR p) LFR.SPAN_TXPOS_FRAME < 4095 →
      Yields (.txFrameBoundary p tx) s fun d => d.get (pgLFR p) LFR.SPAN_TXPOS_FRAME = s.dev.get (pgLFR p) LFR.SPAN_TXPOS_FRAME + 1 ∧
        d.txSpan p = s.dev.txSpan p ∧ d.txRun p = true) ∧
  (∀ (p : Port) (tx : TxFrame) (s : State), s.clocked → s.dev.online p = true → s.dev.txRun p = true → s.dev.stopDue p = false →
      s.dev.commits = [] → s.dev.get (pgLFR p) LFR.SET_WAIT = 0 → s.dev.txSpan p < 2 ^ 48 →
      Yields (.txSpanBoundary p tx) s fun d => d.get (pgLFR p) LFR.SPAN_TXPOS_FRAME = 0 ∧ d.txSpan p = (s.dev.txSpan p + 1) % 2 ^ 48 ∧ d.txRun p = true) ∧
  (∀ (p : Port) (tx : TxFrame) (s : State), s.clocked → s.dev.online p = true → s.dev.txRun p = true → s.dev.stopDue p = false →
      s.dev.get (pgLFR p) LFR.SET_WAIT = 1 → s.dev.getLH (pgLFR p) LFR.SPAN_SET_LO_VALUE LFR.SPAN_SET_HI_VALUE < 2 ^ 48 →
      s.dev.get (pgLFR p) LFR.SPAN_SET_LO_VALUE < 2 ^ 32 →
      Yields (.txSpanBoundary p tx) s fun d => d.get (pgLFR p) LFR.SPAN_TXPOS_FRAME = 0 ∧
        d.txSpan p = s.dev.getLH (pgLFR p) LFR.SPAN_SET_LO_VALUE LFR.SPAN_SET_HI_VALUE ∧ (∀ e ∈ d.commits, e.2.port ≠ p) ∧ d.raised (pgLFR p) 40) ∧
  (∀ (p : Port) (blocks : List RxBlock) (s : State), s.clocked → s.dev.online p = true → s.dev.rxValid p = true → s.dev.get (pgLFR p) LFR.SPAN_RXPOS_FRAME < 4095 →
      Yields (.rxFrameBoundary p blocks) s fun d => d.get (pgLFR p) LFR.SPAN_RXPOS_FRAME = s.dev.get (pgLFR p) LFR.SPAN_RXPOS_FRAME + 1 ∧ d.rxSpan p = s.dev.rxSpan p) ∧
  (∀ (p : Port) (blocks : List RxBlock) (s : State), s.clocked → s.dev.online p = true → s.dev.rxValid p = false →
      Yields (.rxFrameBoundary p blocks) s fun d => d.get (pgLFR p) LFR.SPAN_RXPOS_FRAME = s.dev.get (pgLFR p) LFR.SPAN_RXPOS_FRAME ∧ d.rxSpan p = s.dev.rxSpan p) ∧
  (∀ (p : Port) (blocks : List RxBlock) (s : State), s.clocked → s.dev.online p = true → s.dev.rxValid p = true → s.dev.commits = [] → s.dev.rxSpan p < 2 ^ 48 →
      Yields (.rxSpanBoundary p blocks) s fun d => d.get (pgLFR p) LFR.SPAN_RXPOS_FRAME = 0 ∧ d.rxSpan p = (s.dev.rxSpan p + 1) % 2 ^ 48) ∧
  (∀ (p : Port) (w : Word) (s : State), s.clocked → s.dev.online p = true → s.dev.txRun p = false → s.dev.flag pgPWR PWR.ENTERING = false → s.dev.commits = [] →
      s.dev.get (pgLFR p) LFR.CTL_RX_EN = LFR.CTL_RX_EN.ofWord w.toNat →
      Yields (.txEnSet p w) s fun d => d.txRun p = true ∧ d.get (pgLFR p) LFR.CTL_TX_EN = 1 ∧ d.txSpan p = s.dev.txSpan p ∧
        d.get (pgLFR p) LFR.SPAN_TXPOS_FRAME = s.dev.get (pgLFR p) LFR.SPAN_TXPOS_FRAME) ∧
  (∀ (p : Port) (w : Word) (s : State), s.clocked → s.dev.online p = true → s.dev.get (pgLFR p) LFR.CTL_RX_EN = LFR.CTL_RX_EN.ofWord w.toNat →
      Yields (.txEnClear p w) s fun d => d.get (pgLFR p) LFR.CTL_TX_EN = 0 ∧ d.txRun p = s.dev.txRun p ∧
        Frame ([LFR.CTL_TX_EN, LFR.CTL_RX_EN, LFR.CTL_SOH_VOTE, LFR.CTL_BDI_FORCE, LFR.CTL_CORR_THR, LFR.CTL_SYNC_THR, LFR.STATUS_SDEF].map fun f => f.key (pgLFR p)) s.dev d) ∧
  (∀ (p : Port) (tx : TxFrame) (s : State), s.clocked → s.dev.online p = true → s.dev.txRun p = true → s.dev.get (pgLFR p) LFR.CTL_TX_EN = 0 →
      s.dev.get (pgLFR p) LFR.SET_WAIT = 0 → s.dev.commits = [] → s.dev.txSpan p < 2 ^ 48 →
      Yields (.framerStop p tx) s fun d => d.txRun p = false ∧ d.txSpan p = (s.dev.txSpan p + 1) % 2 ^ 48 ∧ d.get (pgLFR p) LFR.SPAN_TXPOS_FRAME = 0) ∧
  (∀ (p : Port) (w : Word) (s : State), s.clocked → s.dev.online p = true → s.dev.txRun p = false →
      s.dev.getLH (pgLFR p) LFR.SPAN_SET_LO_VALUE LFR.SPAN_SET_HI_VALUE < 2 ^ 48 → s.dev.get (pgLFR p) LFR.SPAN_SET_LO_VALUE < 2 ^ 32 →
      Yields (.set p w) s fun d => d.txSpan p = s.dev.getLH (pgLFR p) LFR.SPAN_SET_LO_VALUE LFR.SPAN_SET_HI_VALUE ∧ d.get (pgLFR p) LFR.SPAN_TXPOS_FRAME = 0 ∧
        (∀ e ∈ d.commits, e.2.port ≠ p) ∧ d.raised (pgLFR p) 40 ∧ d.get (pgLFR p) LFR.SPAN_CTL_RXWAIT = LFR.SPAN_CTL_RXWAIT.ofWord w.toNat) ∧
  (∀ (p : Port) (w : Word) (s : State), s.clocked → s.dev.online p = true → s.dev.txRun p = true →
      Yields (.set p w) s fun d => d.get (pgLFR p) LFR.SET_WAIT = 1 ∧ d.get (pgLFR p) LFR.SPAN_CTL_RXWAIT = LFR.SPAN_CTL_RXWAIT.ofWord w.toNat ∧
        Frame [LFR.SET_WAIT.key (pgLFR p), LFR.SPAN_CTL_RXWAIT.key (pgLFR p)] s.dev d) ∧
  (∀ (p : Port) (w : Word) (s : State), s.clocked → s.dev.online p = true → s.dev.txRun p = false → w.getLsbD 0 = false → s.dev.rxValid p = true →
      s.dev.rxSpan p < 2 ^ 48 →
      Yields (.adopt p w) s fun d => d.txSpan p = (s.dev.rxSpan p + 1) % 2 ^ 48 ∧ d.get (pgLFR p) LFR.SPAN_TXPOS_FRAME = 0 ∧ d.raised (pgLFR p) 40) ∧
  (∀ (p : Port) (w : Word) (s : State), s.clocked → s.dev.online p = true → s.dev.txRun p = true → w.getLsbD 0 = false → s.dev.rxValid p = true →
      Yields (.adopt p w) s fun d => d.get (pgLFR p) LFR.SET_WAIT = 2 ∧ Frame [LFR.SET_WAIT.key (pgLFR p), LFR.SPAN_CTL_RXWAIT.key (pgLFR p)] s.dev d) ∧
  (∀ (p : Port) (span : BitVec 48) (hdrSpan : BitVec 16) (hdrFrame : BitVec 12) (s : State), s.clocked → s.dev.online p = true → s.dev.aligned p 0 = true →
      s.dev.rxValid p = false → span.toNat % 2 ^ 16 = hdrSpan.toNat → s.dev.commits = [] →
      Yields (.spanAnnounceRx p span hdrSpan hdrFrame) s fun d => d.rxValid p = true ∧ d.rxSpan p = span.toNat ∧
        d.get (pgLFR p) LFR.SPAN_RXPOS_FRAME = hdrFrame.toNat ∧ d.raised (pgLFR p) 41) ∧
  (∀ (p : Port) (span : BitVec 48) (hdrSpan : BitVec 16) (hdrFrame : BitVec 12) (s : State), s.clocked → span.toNat % 2 ^ 16 ≠ hdrSpan.toNat →
      Yields (.spanAnnounceRx p span hdrSpan hdrFrame) s fun d => Frame [] s.dev d)

/-- The anchor: in HUNT a header position that correlates leads to CONFIRM and one that does not changes nothing; in CONFIRM a second hit locks it with its event, and a miss counts a false candidate and hunts again; in LOCK a hit keeps LOCK with no misses and shows the header's frame, and the third miss in a row loses it with its event, clears the validity of the receive counter and hunts again. An ordinary subcarrier, once the anchor has locked: in HUNT a correlating position whose header fits leads on and shows its fields, one whose header does not fit counts a false candidate, and one that does not correlate changes nothing; in each of the two states after it a fitting header leads on, the second to LOCK with its event, and any other position leads back to HUNT; in LOCK a fitting header leaves no misses, and the fifth miss in a row loses lock with its event. -/
def Obligations.Alignment : Prop :=
  (∀ (p : Port) (corr : BitVec 9) (hdr : Option LineHdr) (soh : BitVec 64) (s : State), s.clocked → s.dev.online p = true →
      s.dev.get (pgLFR p) (LFR.ALIGN_STATE.at 0) = 1 → s.dev.get (pgLFR p) LFR.CTL_SYNC_THR ≤ corr.toNat →
      Yields (.anchorHeader p corr hdr soh) s fun d => d.get (pgLFR p) (LFR.ALIGN_STATE.at 0) = 3 ∧ d.aligned p 0 = false ∧
        Frame [(LFR.ALIGN_STATE.at 0).key (pgLFR p), (LFR.ALIGN_MISSES.at 0).key (pgLFR p), LFR.STATUS_ALIGNED.key (pgLFR p)] s.dev d) ∧
  (∀ (p : Port) (corr : BitVec 9) (hdr : Option LineHdr) (soh : BitVec 64) (s : State), s.clocked → s.dev.online p = true →
      s.dev.get (pgLFR p) (LFR.ALIGN_STATE.at 0) = 3 → s.dev.get (pgLFR p) LFR.CTL_SYNC_THR ≤ corr.toNat →
      Yields (.anchorHeader p corr hdr soh) s fun d => d.aligned p 0 = true ∧ bitOf (d.get (pgLFR p) LFR.STATUS_ALIGNED) 0 = true ∧ d.raised (pgLFR p) 0) ∧
  (∀ (p : Port) (corr : BitVec 9) (hdr : Option LineHdr) (soh : BitVec 64) (s : State), s.clocked → s.dev.online p = true →
      s.dev.get (pgLFR p) (LFR.ALIGN_STATE.at 0) = 3 → corr.toNat < s.dev.get (pgLFR p) LFR.CTL_SYNC_THR →
      Yields (.anchorHeader p corr hdr soh) s fun d => d.get (pgLFR p) (LFR.ALIGN_STATE.at 0) = 1 ∧
        d.get (pgLFR p) LFR.FALSE_CAND = (s.dev.get (pgLFR p) LFR.FALSE_CAND + 1) % 2 ^ 48 ∧
        Frame [(LFR.ALIGN_STATE.at 0).key (pgLFR p), (LFR.ALIGN_MISSES.at 0).key (pgLFR p), LFR.STATUS_ALIGNED.key (pgLFR p), LFR.FALSE_CAND.key (pgLFR p)] s.dev d) ∧
  (∀ (p : Port) (corr : BitVec 9) (hdr : Option LineHdr) (soh : BitVec 64) (s : State), s.clocked → s.dev.online p = true →
      s.dev.get (pgLFR p) (LFR.ALIGN_STATE.at 0) = 5 → corr.toNat < s.dev.get (pgLFR p) LFR.CTL_SYNC_THR → s.dev.get (pgLFR p) (LFR.ALIGN_MISSES.at 0) = 2 →
      Yields (.anchorHeader p corr hdr soh) s fun d => d.get (pgLFR p) (LFR.ALIGN_STATE.at 0) = 1 ∧ d.raised (pgLFR p) 8 ∧ d.rxValid p = false ∧
        d.get (pgLFR p) LFR.ANCHOR_MISS = (s.dev.get (pgLFR p) LFR.ANCHOR_MISS + 1) % 2 ^ 48 ∧ bitOf (d.get (pgLFR p) LFR.STATUS_ALIGNED) 0 = false ∧
        d.get (pgLFR p) LFR.STATUS_SDEF = 1) ∧
  (∀ (p : Port) (x : Fin 7) (corr : BitVec 9) (h : LineHdr) (soh : BitVec 64) (s : State), s.clocked → s.dev.online p = true → s.dev.flag (pgLFR p) LFR.ANCHORED = true →
      s.dev.get (pgLFR p) (LFR.ALIGN_STATE.at (x.val + 1)) = 1 → s.dev.get (pgLFR p) LFR.CTL_CORR_THR ≤ corr.toNat → h.sc.toNat = x.val + 1 →
      Yields (.subcarrierHeader p x corr (some h) soh) s fun d => d.get (pgLFR p) (LFR.ALIGN_STATE.at (x.val + 1)) = 3 ∧
        d.get (pgLFR p) (LFR.ALIGN_FRAME.at (x.val + 1)) = h.frame.toNat ∧ d.get (pgLFR p) (LFR.ALIGN_SC.at (x.val + 1)) = h.sc.toNat) ∧
  (∀ (p : Port) (x : Fin 7) (corr : BitVec 9) (h : LineHdr) (soh : BitVec 64) (s : State), s.clocked → s.dev.online p = true → s.dev.flag (pgLFR p) LFR.ANCHORED = true →
      s.dev.get (pgLFR p) (LFR.ALIGN_STATE.at (x.val + 1)) = 4 → s.dev.hdrFits p (x.val + 1) false h = true →
      Yields (.subcarrierHeader p x corr (some h) soh) s fun d => d.aligned p (x.val + 1) = true ∧ d.raised (pgLFR p) (x.val + 1)) ∧
  (∀ (p : Port) (x : Fin 7) (corr : BitVec 9) (soh : BitVec 64) (s : State), s.clocked → s.dev.online p = true → s.dev.flag (pgLFR p) LFR.ANCHORED = true →
      s.dev.get (pgLFR p) (LFR.ALIGN_STATE.at (x.val + 1)) = 5 → s.dev.get (pgLFR p) (LFR.ALIGN_MISSES.at (x.val + 1)) = 4 →
      Yields (.subcarrierHeader p x corr none soh) s fun d => d.get (pgLFR p) (LFR.ALIGN_STATE.at (x.val + 1)) = 1 ∧ d.raised (pgLFR p) (8 + (x.val + 1))) ∧
  (∀ (p : Port) (corr : BitVec 9) (hdr : Option LineHdr) (soh : BitVec 64) (s : State), s.clocked → s.dev.online p = true →
      s.dev.get (pgLFR p) (LFR.ALIGN_STATE.at 0) = 1 → corr.toNat < s.dev.get (pgLFR p) LFR.CTL_SYNC_THR →
      Yields (.anchorHeader p corr hdr soh) s fun d => Frame [] s.dev d) ∧
  (∀ (p : Port) (corr : BitVec 9) (h : LineHdr) (soh : BitVec 64) (s : State), s.clocked → s.dev.online p = true →
      s.dev.get (pgLFR p) (LFR.ALIGN_STATE.at 0) = 5 → s.dev.get (pgLFR p) LFR.CTL_SYNC_THR ≤ corr.toNat → s.dev.rxValid p = false → s.dev.get (pgLFR p) LFR.CTL_SOH_VOTE = 0 →
      Yields (.anchorHeader p corr (some h) soh) s fun d => d.get (pgLFR p) (LFR.ALIGN_STATE.at 0) = 5 ∧ d.get (pgLFR p) (LFR.ALIGN_MISSES.at 0) = 0 ∧
        d.get (pgLFR p) (LFR.ALIGN_FRAME.at 0) = h.frame.toNat ∧ d.get (pgLFR p) (LFR.ALIGN_MODE.at 0) = h.mode.toNat) ∧
  (∀ (p : Port) (x : Fin 7) (corr : BitVec 9) (hdr : Option LineHdr) (soh : BitVec 64) (s : State), s.clocked → s.dev.online p = true → s.dev.flag (pgLFR p) LFR.ANCHORED = true →
      s.dev.get (pgLFR p) (LFR.ALIGN_STATE.at (x.val + 1)) = 1 → corr.toNat < s.dev.get (pgLFR p) LFR.CTL_CORR_THR →
      Yields (.subcarrierHeader p x corr hdr soh) s fun d => Frame [] s.dev d) ∧
  (∀ (p : Port) (x : Fin 7) (corr : BitVec 9) (h : LineHdr) (soh : BitVec 64) (s : State), s.clocked → s.dev.online p = true → s.dev.flag (pgLFR p) LFR.ANCHORED = true →
      s.dev.get (pgLFR p) (LFR.ALIGN_STATE.at (x.val + 1)) = 1 → s.dev.get (pgLFR p) LFR.CTL_CORR_THR ≤ corr.toNat → h.sc.toNat ≠ x.val + 1 →
      Yields (.subcarrierHeader p x corr (some h) soh) s fun d => d.get (pgLFR p) LFR.FALSE_CAND = (s.dev.get (pgLFR p) LFR.FALSE_CAND + 1) % 2 ^ 48 ∧
        Frame [LFR.FALSE_CAND.key (pgLFR p)] s.dev d) ∧
  (∀ (p : Port) (x : Fin 7) (corr : BitVec 9) (h : LineHdr) (soh : BitVec 64) (s : State), s.clocked → s.dev.online p = true → s.dev.flag (pgLFR p) LFR.ANCHORED = true →
      s.dev.get (pgLFR p) (LFR.ALIGN_STATE.at (x.val + 1)) = 3 → s.dev.hdrFits p (x.val + 1) false h = true →
      Yields (.subcarrierHeader p x corr (some h) soh) s fun d => d.get (pgLFR p) (LFR.ALIGN_STATE.at (x.val + 1)) = 4 ∧
        d.get (pgLFR p) (LFR.ALIGN_FRAME.at (x.val + 1)) = h.frame.toNat) ∧
  (∀ (p : Port) (x : Fin 7) (corr : BitVec 9) (h : LineHdr) (soh : BitVec 64) (s : State), s.clocked → s.dev.online p = true → s.dev.flag (pgLFR p) LFR.ANCHORED = true →
      s.dev.get (pgLFR p) (LFR.ALIGN_STATE.at (x.val + 1)) = 3 ∨ s.dev.get (pgLFR p) (LFR.ALIGN_STATE.at (x.val + 1)) = 4 → s.dev.hdrFits p (x.val + 1) false h = false →
      Yields (.subcarrierHeader p x corr (some h) soh) s (fun d => d.get (pgLFR p) (LFR.ALIGN_STATE.at (x.val + 1)) = 1) ∧
      Yields (.subcarrierHeader p x corr none soh) s (fun d => d.get (pgLFR p) (LFR.ALIGN_STATE.at (x.val + 1)) = 1)) ∧
  (∀ (p : Port) (x : Fin 7) (corr : BitVec 9) (h : LineHdr) (soh : BitVec 64) (s : State), s.clocked → s.dev.online p = true → s.dev.flag (pgLFR p) LFR.ANCHORED = true →
      s.dev.get (pgLFR p) (LFR.ALIGN_STATE.at (x.val + 1)) = 5 → s.dev.hdrFits p (x.val + 1) false h = true → s.dev.get (pgLFR p) LFR.CTL_SOH_VOTE = 0 →
      Yields (.subcarrierHeader p x corr (some h) soh) s fun d => d.get (pgLFR p) (LFR.ALIGN_STATE.at (x.val + 1)) = 5 ∧ d.get (pgLFR p) (LFR.ALIGN_MISSES.at (x.val + 1)) = 0 ∧
        d.get (pgLFR p) (LFR.ALIGN_FRAME.at (x.val + 1)) = h.frame.toNat)

/-- A write of a staged register moves the pending values and leaves the live ones, unless the side is locked, when it is dropped with WR_DROP; an arm that nothing refuses arms the page, a hub page or one of a reachable line die; a refused arm shows its code with CMT_REJECT and arms nothing; an arm of a hub page without staged fields does nothing; the span boundary at a commit's target takes the pending transmit values live; RXWAIT's end forces the receive side and completes the commit as FORCED, and an expiry with no wait that ends does nothing. -/
def Obligations.Commits : Prop :=
  (∀ (p : Port) (off : BitVec 22) (w : Word) (nearTx nearRx : Bool) (s : State), s.clocked → s.dev.online p = true → off.toNat = pgTXS p * 4096 + 0x104 →
      AMap.find? s.dev.commits (pgTXS p) = none →
      Yields (.rwsWrite off w nearTx nearRx) s fun d => d.pget (pgTXS p) TXS.NET = TXS.NET.ofWord w.toNat ∧ d.get (pgTXS p) TXS.NET = s.dev.get (pgTXS p) TXS.NET ∧
        Frame [] { s.dev with pend := d.pend } d) ∧
  (∀ (p : Port) (off : BitVec 22) (w : Word) (nearTx nearRx : Bool) (c : Commit) (s : State), s.clocked → s.dev.online p = true → off.toNat = pgTXS p * 4096 + 0x104 →
      AMap.find? s.dev.commits (pgTXS p) = some c → c.tx = true →
      Yields (.rwsWrite off w nearTx nearRx) s fun d => d.get (pgTXS p) COMMON.COMMIT_STAT_WR_DROP = 1 ∧ Frame [COMMON.COMMIT_STAT_WR_DROP.key (pgTXS p)] s.dev d) ∧
  (∀ (pg : BitVec 10) (lo hi : Word) (nearTx nearRx : Bool) (p : Port) (t : Nat) (s : State), s.clocked → staged pg.toNat = true → pagePort pg.toNat = none → rxOnly pg.toNat = false →
      p = (if hi.getLsbD 16 then 1 else 0) → t = lo.toNat + 2 ^ 32 * (hi.toNat % 2 ^ 16) → s.dev.armRefusal pg.toNat p t nearTx nearRx = 0 →
      Yields (.commitArm pg lo hi nearTx nearRx) s fun d => AMap.find? d.commits pg.toNat = some ⟨t, p, false, false, false, false, 0⟩ ∧
        d.get pg.toNat COMMON.COMMIT_HI_ARM = 1 ∧ d.get pg.toNat COMMON.COMMIT_STAT_STATE = 1 ∧
        d.get pg.toNat COMMON.COMMIT_STAT_REPLACED = b2n (AMap.find? s.dev.commits pg.toNat).isSome ∧ d.pend = s.dev.pend) ∧
  (∀ (pg : BitVec 10) (lo hi : Word) (nearTx nearRx : Bool) (p : Port) (t r : Nat) (s : State), s.clocked → staged pg.toNat = true → pagePort pg.toNat = none →
      p = (if hi.getLsbD 16 then 1 else 0) → t = lo.toNat + 2 ^ 32 * (hi.toNat % 2 ^ 16) → r = s.dev.armRefusal pg.toNat p t nearTx nearRx → r ≠ 0 →
      Yields (.commitArm pg lo hi nearTx nearRx) s fun d => d.commits = s.dev.commits ∧ d.pend = s.dev.pend ∧ d.get pg.toNat COMMON.COMMIT_STAT_RESULT = r ∧ d.raised (pgLFR p) 45 ∧
        d.get pg.toNat COMMON.COMMIT_HI_ARM = s.dev.get pg.toNat COMMON.COMMIT_HI_ARM) ∧
  (∀ (pg : BitVec 10) (lo hi : Word) (nearTx nearRx : Bool) (p : Port) (t : Nat) (s : State), s.clocked → staged pg.toNat = true → pagePort pg.toNat = some p → s.dev.online p = true →
      s.dev.get pg.toNat COMMON.COMMIT_HI_PORT = p.val → t = lo.toNat + 2 ^ 32 * (hi.toNat % 2 ^ 16) → s.dev.armRefusal pg.toNat p t nearTx nearRx = 0 →
      rxOnly pg.toNat = false ∨ 0 < diff48 t (s.dev.txSpan p) →
      Yields (.commitArm pg lo hi nearTx nearRx) s fun d => AMap.find? d.commits pg.toNat = some ⟨t, p, false, false, false, false, 0⟩ ∧
        d.get pg.toNat COMMON.COMMIT_HI_ARM = 1 ∧ d.get pg.toNat COMMON.COMMIT_STAT_STATE = 1 ∧ d.pend = s.dev.pend) ∧
  (∀ (pg : BitVec 10) (lo hi : Word) (nearTx nearRx : Bool) (p : Port) (t r : Nat) (s : State), s.clocked → staged pg.toNat = true → pagePort pg.toNat = some p → s.dev.online p = true →
      s.dev.get pg.toNat COMMON.COMMIT_HI_PORT = p.val → t = lo.toNat + 2 ^ 32 * (hi.toNat % 2 ^ 16) → r = s.dev.armRefusal pg.toNat p t nearTx nearRx → r ≠ 0 →
      Yields (.commitArm pg lo hi nearTx nearRx) s fun d => d.commits = s.dev.commits ∧ d.pend = s.dev.pend ∧ d.get pg.toNat COMMON.COMMIT_STAT_RESULT = r ∧ d.raised (pgLFR p) 45) ∧
  (∀ (pg : BitVec 10) (lo hi : Word) (nearTx nearRx : Bool) (s : State), s.clocked → staged pg.toNat = false → pagePort pg.toNat = none →
      Yields (.commitArm pg lo hi nearTx nearRx) s fun d => Frame [] s.dev d) ∧
  (∀ (p : Port) (tx : TxFrame) (t : Nat) (s : State), s.clocked → s.dev.online p = true → s.dev.txRun p = true → s.dev.stopDue p = false →
      s.dev.get (pgLFR p) LFR.SET_WAIT = 0 → s.dev.txSpan p < 2 ^ 48 → t = (s.dev.txSpan p + 1) % 2 ^ 48 → s.dev.commits = [(pgTXS p, ⟨t, p, false, false, false, false, 0⟩)] → FMap.wf s.dev.pend = true →
      Yields (.txSpanBoundary p tx) s fun d => d.commits = [] ∧ d.get (pgTXS p) COMMON.COMMIT_STAT_TX_TAKEN = 1 ∧ d.get (pgTXS p) COMMON.COMMIT_STAT_RESULT = 1 ∧
        d.raised (pgLFR p) 44 ∧ (∀ f ∈ TXS.table, f.acc = .rwst → ∀ i < f.count, d.get (pgTXS p) (f.at i) = s.dev.pget (pgTXS p) (f.at i))) ∧
  (∀ (p : Port) (tx : TxFrame) (s : State), s.clocked → s.dev.waitEnds p = false →
      Yields (.rxwaitExpiry p tx) s fun d => Frame [] s.dev d) ∧
  (∀ (p : Port) (tx : TxFrame) (t : Nat) (s : State), s.clocked → s.dev.online p = true → s.dev.txRun p = true → s.dev.stopDue p = false → s.dev.get (pgLFR p) LFR.SET_WAIT = 0 →
      s.dev.get (pgLFR p) LFR.SPAN_CTL_RXWAIT = 1 → s.dev.commits = [(pgFEC p, ⟨t, p, true, false, false, false, 0⟩)] → FMap.wf s.dev.pend = true →
      Yields (.rxwaitExpiry p tx) s fun d => d.commits = [] ∧ d.get (pgFEC p) COMMON.COMMIT_STAT_RX_FORCED = 1 ∧ d.get (pgFEC p) COMMON.COMMIT_STAT_RESULT = 6 ∧
        d.get (pgFEC p) FEC.CTL_RX_PROFILE = s.dev.pget (pgFEC p) FEC.CTL_RX_PROFILE ∧ d.raised (pgLFR p) 46)

/-- While a proposal is outstanding, the CN_ACK of its sequence number and target makes SCC_CN_STAT.STATE ACKED and raises CN_ACKED, its CN_NACK makes it NACKED with the reason and raises CN_NACKED, and 16 sends without a reply make it TIMEOUT and raise CN_TIMEOUT; when the held proposal comes within 8 spans unanswered, PENDING clears and its event is raised. Nothing else of the device changes but what each clause names. -/
def Obligations.ChangeNoticeAnswered : Prop :=
  (∀ (p : Port) (seq : BitVec 8) (target : BitVec 48) (s : State), s.clocked →
      s.dev.get (pgSCC p) SCC.CN_STAT_STATE = 1 → s.dev.get (pgSCC p) SCC.CN_STAT_SEQ = seq.toNat →
      (s.dev.scc.get p).cnTarget = target.toNat →
      Yields (.cnAck p seq target) s fun d => d.get (pgSCC p) SCC.CN_STAT_STATE = 2 ∧ d.raised (pgSCC p) 8 ∧
        Frame [SCC.CN_STAT_STATE.key (pgSCC p)] s.dev d) ∧
  (∀ (p : Port) (seq : BitVec 8) (target : BitVec 48) (reason : BitVec 8) (s : State), s.clocked →
      s.dev.get (pgSCC p) SCC.CN_STAT_STATE = 1 → s.dev.get (pgSCC p) SCC.CN_STAT_SEQ = seq.toNat →
      (s.dev.scc.get p).cnTarget = target.toNat →
      Yields (.cnNack p seq target reason) s fun d => d.get (pgSCC p) SCC.CN_STAT_STATE = 3 ∧
        d.get (pgSCC p) SCC.CN_STAT_REASON = reason.toNat ∧ d.raised (pgSCC p) 9 ∧
        Frame [SCC.CN_STAT_STATE.key (pgSCC p), SCC.CN_STAT_REASON.key (pgSCC p)] s.dev d) ∧
  (∀ (p : Port) (s : State), s.clocked →
      s.dev.get (pgSCC p) SCC.CN_STAT_STATE = 1 → (s.dev.scc.get p).cnSends = 16 →
      Yields (.cnTimeout p) s fun d => d.get (pgSCC p) SCC.CN_STAT_STATE = 4 ∧ d.raised (pgSCC p) 10 ∧
        Frame [SCC.CN_STAT_STATE.key (pgSCC p)] s.dev d) ∧
  (∀ (p : Port) (s : State), s.clocked →
      s.dev.get (pgSCC p) SCC.CN_RX_INFO_PENDING = 1 →
      diff48 (s.dev.getLH (pgSCC p) SCC.CN_RX_TARGET_LO_TARGET SCC.CN_RX_TARGET_HI_TARGET) (s.dev.txSpan p) ≤ 8 →
      Yields (.cnLateReply p) s fun d => d.get (pgSCC p) SCC.CN_RX_INFO_PENDING = 0 ∧ d.raised (pgSCC p) 13 ∧
        (d.scc.get p).tx0.length = (s.dev.scc.get p).tx0.length + 1)

/-- PROPOSE with no proposal outstanding and a target at least 16 spans ahead makes STATE WAIT, advances SEQ, clears the reason and queues one CN_PROPOSE; 4,096 carrier frames after a send, and not before, a resend queues it again and counts it; ACCEPT and REJECT of a pending proposal clear PENDING and queue one reply; a CN_PROPOSE that passes every check of R75 without AUTO is stored with PENDING and raises CN_RX. -/
def Obligations.ChangeNoticeSent : Prop :=
  (∀ (p : Port) (w : Word) (s : State), s.clocked → w.getLsbD 9 = false → w.getLsbD 10 = false →
      s.dev.get (pgSCC p) SCC.CN_STAT_STATE ≠ 1 → 16 ≤ diff48 (s.dev.cnTarget p) (s.dev.txSpan p) →
      Yields (.propose p w) s fun d => d.get (pgSCC p) SCC.CN_STAT_STATE = 1 ∧ d.get (pgSCC p) SCC.CN_STAT_REASON = 0 ∧
        d.get (pgSCC p) SCC.CN_STAT_SEQ = (s.dev.get (pgSCC p) SCC.CN_STAT_SEQ + 1) % 256 ∧
        (d.scc.get p).cnTarget = s.dev.cnTarget p ∧ (d.scc.get p).cnSends = 1 ∧
        (d.scc.get p).tx0 = (s.dev.scc.get p).tx0 ++ [d.cnProposeMsg p]) ∧
  (∀ (p : Port) (s : State), s.clocked → s.dev.get (pgSCC p) SCC.CN_STAT_STATE = 1 → (s.dev.scc.get p).cnSends < 16 →
      s.dev.get (pgSCC p) SCC.CN_FRAMES = 4096 →
      Yields (.cnResend p) s fun d => (d.scc.get p).cnSends = (s.dev.scc.get p).cnSends + 1 ∧
        (d.scc.get p).tx0 = (s.dev.scc.get p).tx0 ++ [s.dev.cnProposeMsg p] ∧
        d.get (pgSCC p) SCC.CN_STAT_STATE = 1 ∧ d.get (pgSCC p) SCC.CN_FRAMES = 0) ∧
  (∀ (p : Port) (s : State), s.clocked → s.dev.get (pgSCC p) SCC.CN_FRAMES < 4096 →
      Yields (.cnResend p) s fun d => Frame [] s.dev d) ∧
  (∀ (p : Port) (w : Word) (s : State), s.clocked → w.getLsbD 8 = false → w.getLsbD 10 = false →
      s.dev.get (pgSCC p) SCC.CN_RX_INFO_PENDING = 1 →
      Yields (.accept p w) s fun d => d.get (pgSCC p) SCC.CN_RX_INFO_PENDING = 0 ∧
        (d.scc.get p).tx0 = (s.dev.scc.get p).tx0 ++ [cnReplyMsg (s.dev.get (pgSCC p) SCC.CN_RX_INFO_SEQ)
          ⟨s.dev.getLH (pgSCC p) SCC.CN_RX_TARGET_LO_TARGET SCC.CN_RX_TARGET_HI_TARGET, s.dev.get (pgSCC p) SCC.CN_RX_TAG_TAG, 0⟩]) ∧
  (∀ (p : Port) (w : Word) (s : State), s.clocked → w.getLsbD 8 = false →
      s.dev.get (pgSCC p) SCC.CN_RX_INFO_PENDING = 1 →
      Yields (.reject p w) s fun d => d.get (pgSCC p) SCC.CN_RX_INFO_PENDING = 0 ∧
        (d.scc.get p).tx0 = (s.dev.scc.get p).tx0 ++ [cnReplyMsg (s.dev.get (pgSCC p) SCC.CN_RX_INFO_SEQ)
          ⟨s.dev.getLH (pgSCC p) SCC.CN_RX_TARGET_LO_TARGET SCC.CN_RX_TARGET_HI_TARGET, s.dev.get (pgSCC p) SCC.CN_RX_TAG_TAG, 4⟩]) ∧
  (∀ (p : Port) (seq : BitVec 8) (target : BitVec 48) (cls : BitVec 3) (tag : Word) (s : State), s.clocked →
      AMap.find? (s.dev.scc.get p).answered seq.toNat = none → s.dev.get (pgSCC p) SCC.CN_RX_INFO_PENDING = 0 →
      s.dev.get (pgSCC p) SCC.CN_STAT_STATE ≠ 1 → s.dev.rxValid p = false →
      bitOf (s.dev.get (pgSCC p) SCC.CN_CTL_AUTO) cls.toNat = false →
      8 ≤ diff48 target.toNat (s.dev.txSpan p) → diff48 target.toNat (s.dev.txSpan p) ≤ 2 ^ 24 →
      Yields (.cnPropose p seq target cls tag) s fun d => d.get (pgSCC p) SCC.CN_RX_INFO_PENDING = 1 ∧
        d.get (pgSCC p) SCC.CN_RX_INFO_SEQ = seq.toNat ∧ d.get (pgSCC p) SCC.CN_RX_INFO_CLASS = cls.toNat ∧
        d.getLH (pgSCC p) SCC.CN_RX_TARGET_LO_TARGET SCC.CN_RX_TARGET_HI_TARGET = target.toNat ∧
        d.get (pgSCC p) SCC.CN_RX_TAG_TAG = tag.toNat ∧ d.raised (pgSCC p) 12)

/-- SEND of 1 to 512 bytes with no message under way queues them on channel 2 and sets TX_BUSY; once none of the host's message is left TX_BUSY clears with TX_DONE; POP drops the head of the receive queue and nothing else; a received cell whose CRC fails counts and raises CRC_ERR, and an idle cell that passes counts in CELLS_RX. -/
def Obligations.ControlChannelHost : Prop :=
  (∀ (p : Port) (w : Word) (s : State), s.clocked → s.dev.get (pgSCC p) SCC.STAT_TX_BUSY = 0 →
      0 < SCC.TX_CTL_LEN.ofWord w.toNat → SCC.TX_CTL_LEN.ofWord w.toNat ≤ 512 →
      Yields (.send p w) s fun d => d.get (pgSCC p) SCC.STAT_TX_BUSY = 1 ∧
        (d.scc.get p).tx2 = (s.dev.scc.get p).tx2 ++ [⟨s.dev.txBufBytes p (SCC.TX_CTL_LEN.ofWord w.toNat), false, 0⟩]) ∧
  (∀ (p : Port) (s : State), s.clocked → s.dev.get (pgSCC p) SCC.STAT_TX_BUSY = 1 →
      (s.dev.scc.get p).tx2.any (·.entry == 0) = false →
      Yields (.txDone p) s fun d => d.get (pgSCC p) SCC.STAT_TX_BUSY = 0 ∧ d.raised (pgSCC p) 4 ∧
        Frame [SCC.STAT_TX_BUSY.key (pgSCC p)] s.dev d) ∧
  (∀ (p : Port) (s : State), s.clocked → Yields (.pop p) s fun d =>
        (d.scc.get p).rxq = (s.dev.scc.get p).rxq.drop 1 ∧
        Frame [] (s.dev.sccUpd p fun x => { x with rxq := x.rxq.drop 1 }) d) ∧
  (∀ (p : Port) (cell : List (BitVec 8)) (s : State), s.clocked →
      crc16 ((cell.map (·.toNat)).take 18) ≠ beVal ((cell.map (·.toNat)).drop 18) → (s.dev.scc.get p).bad < 7 →
      Yields (.sccCellRx p cell true) s fun d =>
        d.get (pgSCC p) SCC.CRC_ERR = (s.dev.get (pgSCC p) SCC.CRC_ERR + 1) % 2 ^ 48 ∧ d.raised (pgSCC p) 7 ∧
        (d.scc.get p).bad = (s.dev.scc.get p).bad + 1 ∧ (d.scc.get p).good = 0) ∧
  (∀ (p : Port) (cell : List (BitVec 8)) (s : State), s.clocked →
      crc16 ((cell.map (·.toNat)).take 18) = beVal ((cell.map (·.toNat)).drop 18) → (cell.map (·.toNat)).getD 1 0 = 0 →
      Yields (.sccCellRx p cell true) s fun d =>
        d.get (pgSCC p) SCC.CELLS_RX = (s.dev.get (pgSCC p) SCC.CELLS_RX + 1) % 2 ^ 48 ∧ (d.scc.get p).bad = 0)

/-- While line die p is reachable: an overrange on a running lane counts in OVR_TOTAL; a write of DAC_LANE_CTL takes EN and MUTE from the word and shows EN in STATUS.RUN; ARM with a trigger arms an idle capture and ARM with none starts it at once, ARM while one is armed or filling leaves it, ABORT returns it to IDLE, and a filling capture that is full reads DONE and raises its event; a sample captured before correction reads as its code, an overrange as -128, and one captured after correction reads +-127 for an overrange; ABORT keeps what a filling capture has recorded. -/
def Obligations.ConverterSampling : Prop :=
  (∀ (p : Port) (lane : Fin 4) (pos : Fin 160) (s : State), s.clocked → s.dev.online p = true →
      bitOf (s.dev.get (pgADC p) ADC.STATUS_RUN) lane = true →
      Yields (.adcOverrange p lane pos) s fun d =>
        d.get (pgADC p) (ADC.OVR_TOTAL.at lane) = (s.dev.get (pgADC p) (ADC.OVR_TOTAL.at lane) + 1) % 2 ^ 48) ∧
  (∀ (p : Port) (w : Word) (nearTx nearRx : Bool) (s : State), s.clocked → s.dev.online p = true →
      Yields (.dacLaneCtlWrite p w nearTx nearRx) s fun d => d.get (pgDAC p) DAC.LANE_CTL_EN = DAC.LANE_CTL_EN.ofWord w.toNat ∧
        d.get (pgDAC p) DAC.LANE_CTL_MUTE = DAC.LANE_CTL_MUTE.ofWord w.toNat ∧
        d.get (pgDAC p) DAC.STATUS_RUN = DAC.LANE_CTL_EN.ofWord w.toNat) ∧
  (∀ (p : Port) (w : Word) (x : Capture) (s : State), s.clocked → s.dev.online p = true → w.getLsbD 1 = false →
      s.dev.get (pgADC p) ADC.CAP_STAT_STATE ≠ 1 → s.dev.get (pgADC p) ADC.CAP_STAT_STATE ≠ 2 →
      ADC.CAP_CTL_TRIG.ofWord w.toNat = 1 ∨ ADC.CAP_CTL_TRIG.ofWord w.toNat = 2 →
      Yields (.adcCapArm p w x) s fun d => d.get (pgADC p) ADC.CAP_STAT_STATE = 1 ∧ d.get (pgADC p) ADC.CAP_CTL_ARM = 1 ∧
        d.get (pgADC p) ADC.CAP_CTL_TRIG = ADC.CAP_CTL_TRIG.ofWord w.toNat) ∧
  (∀ (p : Port) (w : Word) (x : Capture) (s : State), s.clocked → s.dev.online p = true → w.getLsbD 1 = false →
      s.dev.get (pgADC p) ADC.CAP_STAT_STATE ≠ 1 → s.dev.get (pgADC p) ADC.CAP_STAT_STATE ≠ 2 →
      ADC.CAP_CTL_TRIG.ofWord w.toNat = 0 ∨ ADC.CAP_CTL_TRIG.ofWord w.toNat = 3 →
      Yields (.adcCapArm p w x) s fun d => d.get (pgADC p) ADC.CAP_STAT_STATE = 2 ∧ d.get (pgADC p) ADC.CAP_CTL_ARM = 0 ∧
        d.get (pgADC p) ADC.CAP_STAT_FRAME = s.dev.get (pgLFR p) LFR.SPAN_RXPOS_FRAME % 2 ^ 12) ∧
  (∀ (p : Port) (w : Word) (x : Capture) (s : State), s.clocked → s.dev.online p = true → w.getLsbD 1 = false →
      s.dev.get (pgADC p) ADC.CAP_STAT_STATE = 1 ∨ s.dev.get (pgADC p) ADC.CAP_STAT_STATE = 2 →
      Yields (.adcCapArm p w x) s fun d => d.get (pgADC p) ADC.CAP_STAT_STATE = s.dev.get (pgADC p) ADC.CAP_STAT_STATE ∧
        d.get (pgADC p) ADC.CAP_CTL_ARM = s.dev.get (pgADC p) ADC.CAP_CTL_ARM ∧ (d.conv.get p).capBuf = (s.dev.conv.get p).capBuf) ∧
  (∀ (p : Port) (w : Word) (x : Capture) (s : State), s.clocked → s.dev.online p = true →
      Yields (.adcCapAbort p w x) s fun d => d.get (pgADC p) ADC.CAP_STAT_STATE = 0 ∧ d.get (pgADC p) ADC.CAP_CTL_ARM = 0) ∧
  (∀ (p : Port) (x : Capture) (s : State), s.clocked → s.dev.online p = true →
      s.dev.get (pgADC p) ADC.CAP_STAT_STATE = 2 →
      Yields (.capDone p x) s fun d => d.get (pgADC p) ADC.CAP_STAT_STATE = 3 ∧ d.raised (pgADC p) 20) ∧
  (∀ (p : Port) (phase : Fin 160) (l : Fin 4) (n : BitVec 16) (v : BitVec 16) (s : State), s.clocked → s.dev.online p = true →
      s.dev.get (pgADC p) ADC.CAP_STAT_STATE = 2 → s.dev.get (pgADC p) ADC.CAP_CTL_POST = 0 →
      Yields (.capDone p ⟨phase, [(capKey l n, v)], []⟩) s fun d =>
        FMap.get (d.conv.get p).capBuf (65536 * l.val + n.toNat) = sTo 8 (if 127 < v.toInt.natAbs then -128 else v.toInt)) ∧
  (∀ (p : Port) (phase : Fin 160) (l : Fin 4) (n : BitVec 16) (v : BitVec 16) (s : State), s.clocked → s.dev.online p = true →
      s.dev.get (pgADC p) ADC.CAP_STAT_STATE = 2 → s.dev.get (pgADC p) ADC.CAP_CTL_POST = 1 → 127 < v.toInt.natAbs →
      Yields (.capDone p ⟨phase, [(capKey l n, v)], []⟩) s fun d =>
        FMap.get (d.conv.get p).capBuf (65536 * l.val + n.toNat) = sTo 8 (if 0 ≤ v.toInt then 127 else -127)) ∧
  (∀ (p : Port) (w : Word) (phase : Fin 160) (l : Fin 4) (n : BitVec 16) (v : BitVec 16) (s : State), s.clocked → s.dev.online p = true →
      s.dev.get (pgADC p) ADC.CAP_STAT_STATE = 2 → s.dev.get (pgADC p) ADC.CAP_CTL_POST = 0 →
      Yields (.adcCapAbort p w ⟨phase, [(capKey l n, v)], []⟩) s fun d => d.get (pgADC p) ADC.CAP_STAT_STATE = 0 ∧
        FMap.get (d.conv.get p).capBuf (65536 * l.val + n.toNat) = sTo 8 (if 127 < v.toInt.natAbs then -128 else v.toInt))

/-- While line die p is reachable and no pass runs or waits: a converter temperature further than DT from that of the last pass, with AUTO and the TEMP enable, an age above AGE minutes, with AUTO and the AGE enable, and a START by the host each make a normal pass wait, with their cause; a power reading is kept and moves the load band, and one that moves it 2 or more from the band of a slice, with AUTO and the LOAD enable, marks every trim set stale and makes a priority pass wait; HOLD sets the hold bit. -/
def Obligations.CalibrationTriggers : Prop :=
  (∀ (p : Port) (lane : Fin 4) (temp : BitVec 16) (s : State), s.clocked → s.dev.online p = true →
      s.dev.get (pgLCAL p) LCAL.CTL_AUTO = 1 → bitOf (s.dev.get (pgLCAL p) LCAL.CTL_TRIG_EN) 0 = true →
      s.dev.get (pgLCAL p) LCAL.STAT_STATE = 0 → (s.dev.conv.get p).wait = none →
      s.dev.lcalDt p * 16 < (sOf 16 temp.toNat - sOf 16 (s.dev.get (pgLCAL p) (LCAL.TEMP_LAST.at lane))).natAbs * 10 →
      Yields (.lcalTempTrigger p lane temp) s fun d =>
        d.get (pgLCAL p) (LCAL.TEMP_NOW.at lane) = temp.toNat ∧ (d.conv.get p).wait = some (1, false)) ∧
  (∀ (p : Port) (power : BitVec 12) (s : State), s.clocked → s.dev.online p = true →
      Yields (.lcalLoadTrigger p power) s fun d => d.get (pgLDSYS p) LDSYS.POWER_P = power.toNat ∧
        d.get (pgLCAL p) LCAL.STAT_LOADBAND = loadBand (s.dev.get (pgLCAL p) LCAL.STAT_LOADBAND) power.toNat) ∧
  (∀ (p : Port) (power : BitVec 12) (l : Fin 4) (u : Fin 168) (s : State), s.clocked → s.dev.online p = true →
      s.dev.get (pgLCAL p) LCAL.CTL_AUTO = 1 → bitOf (s.dev.get (pgLCAL p) LCAL.CTL_TRIG_EN) 1 = true →
      s.dev.get (pgLCAL p) LCAL.STAT_STATE = 0 → (s.dev.conv.get p).wait = none → ((s.dev.conv.get p).slice (sliceKey l.val u.val)).role ≠ 4 →
      ((s.dev.conv.get p).slice (sliceKey l.val u.val)).band + 2 ≤ loadBand (s.dev.get (pgLCAL p) LCAL.STAT_LOADBAND) power.toNat →
      Yields (.lcalLoadTrigger p power) s fun d => (d.conv.get p).wait = some (2, true) ∧ d.raised (pgLCAL p) 2 ∧
        ∀ (l : Fin 4) (u : Fin 168), ((d.conv.get p).slice (sliceKey l.val u.val)).stale = true) ∧
  (∀ (p : Port) (s : State), s.clocked → s.dev.online p = true →
      s.dev.get (pgLCAL p) LCAL.CTL_AUTO = 1 → bitOf (s.dev.get (pgLCAL p) LCAL.CTL_TRIG_EN) 3 = true →
      s.dev.get (pgLCAL p) LCAL.STAT_STATE = 0 → (s.dev.conv.get p).wait = none →
      s.dev.lcalAge p * 60000 < s.dev.get (pgLCAL p) LCAL.AGE_MS →
      Yields (.lcalAgeTrigger p) s fun d => (d.conv.get p).wait = some (4, false) ∧ d.lcalQueued p = s.dev.flag (pgLCAL p) LCAL.CTL_HOLD) ∧
  (∀ (p : Port) (w : Word) (s : State), s.clocked → s.dev.online p = true →
      s.dev.get (pgLCAL p) LCAL.STAT_STATE = 0 → (s.dev.conv.get p).wait = none →
      Yields (.lcalStart p w) s fun d => (d.conv.get p).wait = some (5, false) ∧ d.lcalQueued p = bitOf (w ||| 2#32).toNat 2 ∧
        d.get (pgLCAL p) LCAL.CTL_DT = LCAL.CTL_DT.ofWord (w ||| 2#32).toNat) ∧
  (∀ (p : Port) (w : Word) (s : State), s.clocked → s.dev.online p = true →
      Yields (.lcalHold p w) s fun d => d.get (pgLCAL p) LCAL.CTL_HOLD = 1 ∧
        d.get (pgLCAL p) LCAL.CTL_AGE = LCAL.CTL_AGE.ofWord (w ||| 4#32).toNat)

/-- While line die p is reachable: a waiting priority pass starts at round 0 with its cause and raises PASS_START; the first measurement of an attempt on a target is kept; the second, agreeing within R102 and inside the correction range of R90, finds the slice's new trim set and ends the target's turn; the first measurement on the sub-DAC that is next, with headers sent to measure, is kept, and the second, agreeing and in range, gives its new trim set, to be applied, and moves on to the next sub-DAC; the end of the round applies it and clears SUSPECT; the end of the last round of a pass counts it, returns the engine to IDLE with the age at 0 and raises PASS_DONE; a priority pass still running at 50 ms raises PRIO_LATE. -/
def Obligations.CalibrationPass : Prop :=
  (∀ (p : Port) (elig : List (Fin 160)) (cause : Fin 8) (s : State), s.clocked → s.dev.online p = true →
      s.dev.get (pgLCAL p) LCAL.CTL_HOLD = 0 → s.dev.get (pgLCAL p) LCAL.STAT_STATE = 0 →
      (s.dev.conv.get p).wait = some (cause.val, true) →
      Yields (.passStart p elig) s fun d => d.get (pgLCAL p) LCAL.STAT_STATE = 2 ∧ d.get (pgLCAL p) LCAL.STAT_ROUND = 0 ∧
        d.get (pgLCAL p) LCAL.STAT_CAUSE = cause.val ∧ (d.conv.get p).wait = none ∧ d.raised (pgLCAL p) 0) ∧
  (∀ (p : Port) (lane : Fin 4) (unit : BitVec 8) (m res : Meas) (sel : Sel) (s : State), s.clocked → s.dev.online p = true →
      (s.dev.conv.get p).targets.contains (sliceKey lane.val unit.toNat) = true →
      AMap.find? (s.dev.conv.get p).meas (sliceKey lane.val unit.toNat) = none →
      Yields (.lcalMeasurementEnd p false lane unit m res sel) s fun d =>
        AMap.find? (d.conv.get p).meas (sliceKey lane.val unit.toNat) = some m) ∧
  (∀ (p : Port) (lane : Fin 4) (unit : BitVec 8) (m m1 res : Meas) (sel : Sel) (s : State), s.clocked → s.dev.online p = true →
      (s.dev.conv.get p).targets.contains (sliceKey lane.val unit.toNat) = true →
      AMap.find? (s.dev.conv.get p).meas (sliceKey lane.val unit.toNat) = some m1 → measAgrees m1 m = true →
      measInRange res = true → s.dev.get pgCAL CAL.STATUS_VREF_OK = 1 →
      Yields (.lcalMeasurementEnd p false lane unit m res sel) s fun d =>
        AMap.find? (d.conv.get p).news (sliceKey lane.val unit.toNat) = some ⟨res, sel, s.dev.get (pgLCAL p) LCAL.STAT_LOADBAND,
          sOf 16 (s.dev.get (pgLCAL p) (LCAL.TEMP_NOW.at lane)), false⟩ ∧
        (d.conv.get p).targets = (s.dev.conv.get p).targets.erase (sliceKey lane.val unit.toNat) ∧
        d.get (pgLCAL p) LCAL.ATTEMPTS = (s.dev.get (pgLCAL p) LCAL.ATTEMPTS + 1) % 2 ^ 48) ∧
  (∀ (p : Port) (lane : Fin 4) (unit : BitVec 8) (m res : Meas) (sel : Sel) (s : State), s.clocked → s.dev.online p = true →
      s.dev.dacUnder p lane = true → (s.dev.conv.get p).dacNext.getD lane.val 16 = unit.toNat → AMap.find? (s.dev.conv.get p).dacMeas lane.val = none →
      Yields (.lcalMeasurementEnd p true lane unit m res sel) s fun d => AMap.find? (d.conv.get p).dacMeas lane.val = some m) ∧
  (∀ (p : Port) (lane : Fin 4) (unit : BitVec 8) (m m1 res : Meas) (sel : Sel) (s : State), s.clocked → s.dev.online p = true →
      s.dev.dacUnder p lane = true → (s.dev.conv.get p).dacNext.getD lane.val 16 = unit.toNat → AMap.find? (s.dev.conv.get p).dacMeas lane.val = some m1 →
      measAgrees m1 m = true → measInRange res = true → s.dev.get pgCAL CAL.STATUS_VREF_OK = 1 → (s.dev.conv.get p).dacNext.length = 4 →
      Yields (.lcalMeasurementEnd p true lane unit m res sel) s fun d =>
        AMap.find? (d.conv.get p).dacPend (lane.val * 16 + unit.toNat) = some ⟨res, sel, false, false, false, 0, s.dev.get (pgLCAL p) LCAL.STAT_LOADBAND,
          sOf 16 (s.dev.get (pgLCAL p) (LCAL.TEMP_NOW.at lane))⟩ ∧
        (d.conv.get p).dacNext.getD lane.val 16 = unit.toNat + 1 ∧ d.get (pgLCAL p) LCAL.ATTEMPTS = (s.dev.get (pgLCAL p) LCAL.ATTEMPTS + 1) % 2 ^ 48) ∧
  (∀ (p : Port) (elig : List (Fin 160)) (k : Nat) (t : TrimSet) (s : State), s.clocked → s.dev.online p = true →
      s.dev.get (pgLCAL p) LCAL.STAT_STATE = 1 ∨ s.dev.get (pgLCAL p) LCAL.STAT_STATE = 2 →
      (s.dev.conv.get p).targets = [] → (s.dev.conv.get p).todo = [] → (s.dev.conv.get p).prio = 0 →
      (s.dev.conv.get p).news = [(k, t)] →
      Yields (.roundEnd p elig) s fun d => ((d.conv.get p).slice k).trim = t.res ∧ ((d.conv.get p).slice k).sel = t.sel ∧
        ((d.conv.get p).slice k).suspect = false ∧ ((d.conv.get p).slice k).stale = t.stale) ∧
  (∀ (p : Port) (elig : List (Fin 160)) (s : State), s.clocked → s.dev.online p = true →
      s.dev.get (pgLCAL p) LCAL.STAT_STATE = 1 ∨ s.dev.get (pgLCAL p) LCAL.STAT_STATE = 2 →
      (s.dev.conv.get p).targets = [] → (s.dev.conv.get p).todo = [] → (s.dev.conv.get p).prio = 0 →
      Yields (.roundEnd p elig) s fun d => d.get (pgLCAL p) LCAL.STAT_STATE = 0 ∧ d.get (pgLCAL p) LCAL.AGE_MS = 0 ∧
        d.get (pgLCAL p) LCAL.PASSES = (s.dev.get (pgLCAL p) LCAL.PASSES + 1) % 2 ^ 48 ∧ d.raised (pgLCAL p) 1) ∧
  (∀ (p : Port) (s : State), s.clocked → s.dev.online p = true → s.dev.get (pgLCAL p) LCAL.STAT_STATE = 2 →
      Yields (.prioLate p) s fun d => d.raised (pgLCAL p) 3 ∧ Frame [] s.dev d)

/-- While line die p is reachable: START with the ADC lanes running and no search begins a search with SEARCH 1, LOCK 0 and one more in SEARCHES; a search that ends with an interior peak above 4.0 puts the estimate in CDC_EST, applies it held to the limit and raises LOCK; in AUTO a first run that fails starts the repeat, and the repeat failing leaves SRCH_STAT FAILED with SRCH_FAIL; the repeat's candidates are those of CTR = 0 and WIN = D_max; each candidate's first block is discarded and the tone magnitudes of the next NBLK, without flagged samples, add to its metric; the retry starts a first run again; a coefficient set that is complete waits, and at the next block takes effect. -/
def Obligations.DispersionSearch : Prop :=
  (∀ (p : Port) (w : Word) (s : State), s.clocked → s.dev.online p = true → s.dev.adcRuns p = true →
      s.dev.get (pgCDC p) CDC.STATUS_SEARCH = 0 →
      Yields (.start p w) s fun d => d.get (pgCDC p) CDC.STATUS_SEARCH = 1 ∧ d.get (pgCDC p) CDC.STATUS_LOCK = 0 ∧
        d.get (pgCDC p) CDC.SEARCHES = (s.dev.get (pgCDC p) CDC.SEARCHES + 1) % 2 ^ 48 ∧
        d.get (pgCDC p) CDC.SRCH_STEP_STEP = CDC.SRCH_STEP_STEP.ofWord w.toNat ∧
        d.get (pgCDC p) CDC.SRCH_STEP_NBLK = CDC.SRCH_STEP_NBLK.ofWord w.toNat) ∧
  (∀ (p : Port) (r : Search) (b : Int × Nat) (s : State), s.clocked → s.dev.online p = true →
      (s.dev.eq.get p).srch = some r → r.ahead = [] → r.good = true → bestCand r.fine = some b →
      Yields (.srchDone p) s fun d => d.get (pgCDC p) CDC.STATUS_SEARCH = 0 ∧
        d.get (pgCDC p) CDC.SRCH_STAT_STATE = 0 ∧ d.get (pgCDC p) CDC.STATUS_LOCK = 1 ∧ (d.eq.get p).srch = none ∧
        ((d.get (pgCDC p) CDC.EST = sTo 24 (b.1 / 4) % 2 ^ 24 ∧
          d.get (pgCDC p) CDC.APPLIED_D = sTo 24 (clampI (-4 * s.dev.cdcDmax p) (4 * s.dev.cdcDmax p) (b.1 / 4)) % 2 ^ 24) ∨
         (b.1 % 4 ≠ 0 ∧ d.get (pgCDC p) CDC.EST = sTo 24 (b.1 / 4 + 1) % 2 ^ 24 ∧
          d.get (pgCDC p) CDC.APPLIED_D = sTo 24 (clampI (-4 * s.dev.cdcDmax p) (4 * s.dev.cdcDmax p) (b.1 / 4 + 1)) % 2 ^ 24)) ∧
        d.raised (pgCDC p) 0) ∧
  (∀ (p : Port) (r : Search) (s : State), s.clocked → s.dev.online p = true →
      s.dev.adcRuns p = true → (s.dev.eq.get p).srch = some r → r.ahead = [] → r.good = false → s.dev.get (pgCDC p) CDC.CTL_MODE = 0 →
      s.dev.get (pgCDC p) CDC.RUN_NO = 0 →
      Yields (.srchDone p) s fun d => d.get (pgCDC p) CDC.STATUS_SEARCH = 1 ∧
        d.get (pgCDC p) CDC.SRCH_STAT_STATE = 1 ∧ d.get (pgCDC p) CDC.RUN_NO = 1 ∧
        ((d.eq.get p).srch.map (·.ahead)) = some (coarseCands 0 (s.dev.cdcDmax p) (s.dev.srchStep p) (s.dev.cdcDmax p)) ∧
        d.get (pgCDC p) CDC.SRCH_FAILS = (s.dev.get (pgCDC p) CDC.SRCH_FAILS + 1) % 2 ^ 48 ∧
        d.get (pgCDC p) CDC.SEARCHES = (s.dev.get (pgCDC p) CDC.SEARCHES + 1) % 2 ^ 48) ∧
  (∀ (p : Port) (r : Search) (s : State), s.clocked → s.dev.online p = true → s.dev.get (pgCRV p) CRV.STATUS_ACQ = 0 →
      (s.dev.eq.get p).srch = some r → r.ahead = [] → r.good = false → s.dev.get (pgCDC p) CDC.RUN_NO = 1 →
      Yields (.srchDone p) s fun d => d.get (pgCDC p) CDC.STATUS_SEARCH = 0 ∧
        d.get (pgCDC p) CDC.SRCH_STAT_STATE = 3 ∧ d.raised (pgCDC p) 1 ∧
        d.get (pgCDC p) CDC.SRCH_FAILS = (s.dev.get (pgCDC p) CDC.SRCH_FAILS + 1) % 2 ^ 48) ∧
  (∀ (p : Port) (fine cdEst : Int) (tones : List (Bool × Nat)) (trail : List Int) (r : Search) (c : Int) (rest : List Int) (s : State),
      s.clocked → s.dev.online p = true → s.dev.adcRuns p = true → s.dev.get (pgCDC p) CDC.STATUS_LOCK = 0 →
      (s.dev.eq.get p).srch = some r → r.ahead = c :: rest → r.blocks < r.nblk →
      Yields (.cdcBlockBoundary p fine cdEst tones trail) s fun d => (d.eq.get p).srch =
        some { r with blocks := r.blocks + 1, sum := if r.blocks = 0 then 0 else r.sum + ((tones.filter fun x => !x.1).map (·.2)).sum }) ∧
  (∀ (p : Port) (fine cdEst : Int) (tones : List (Bool × Nat)) (trail : List Int) (r : Search) (c n : Int) (rest : List Int) (s : State),
      s.clocked → s.dev.online p = true → s.dev.adcRuns p = true → s.dev.get (pgCDC p) CDC.STATUS_LOCK = 0 →
      (s.dev.eq.get p).srch = some r → r.ahead = c :: n :: rest → r.blocks = r.nblk → 0 < r.nblk →
      s.dev.get (pgCDC p) CDC.SRCH_STAT_STATE = 1 →
      Yields (.cdcBlockBoundary p fine cdEst tones trail) s fun d => d.get (pgCDC p) CDC.FILTER_D = sTo 24 n % 2 ^ 24 ∧ (d.eq.get p).srch =
        some { r with ahead := n :: rest, blocks := 0, sum := 0,
                      coarse := r.coarse ++ [(c, r.sum + ((tones.filter fun x => !x.1).map (·.2)).sum)] }) ∧
  (∀ (p : Port) (s : State), s.clocked → s.dev.online p = true → s.dev.adcRuns p = true →
      s.dev.get (pgCDC p) CDC.SRCH_STAT_STATE = 3 → s.dev.get (pgCDC p) CDC.CTL_MODE = 0 → s.dev.get (pgCDC p) CDC.STATUS_SEARCH = 0 →
      Yields (.srchRetry p) s fun d => d.get (pgCDC p) CDC.STATUS_SEARCH = 1 ∧ d.get (pgCDC p) CDC.SRCH_STAT_STATE = 1 ∧
        d.get (pgCDC p) CDC.RUN_NO = 0 ∧ d.get (pgCDC p) CDC.SEARCHES = (s.dev.get (pgCDC p) CDC.SEARCHES + 1) % 2 ^ 48) ∧
  (∀ (p : Port) (s : State), s.clocked → s.dev.online p = true → s.dev.get (pgCDC p) CDC.COEF_BUSY = 1 →
      Yields (.cdcCoefReady p) s fun d => d.get (pgCDC p) CDC.COEF_BUSY = 0 ∧ d.get (pgCDC p) CDC.COEF_READY = 1 ∧
        Frame [CDC.COEF_BUSY.key (pgCDC p), CDC.COEF_READY.key (pgCDC p)] s.dev d) ∧
  (∀ (p : Port) (fine cdEst : Int) (tones : List (Bool × Nat)) (trail : List Int) (s : State), s.clocked → s.dev.online p = true →
      s.dev.get (pgCDC p) CDC.COEF_READY = 1 → (s.dev.eq.get p).srch = none → s.dev.get (pgCDC p) CDC.TRACK_EN = 0 → s.dev.get (pgCRV p) CRV.STATUS_FO_LOCK = 0 →
      Yields (.cdcBlockBoundary p fine cdEst tones trail) s fun d => d.get (pgCDC p) CDC.COEF_READY = 0 ∧
        d.get (pgCDC p) CDC.FILTER_D = 4 * s.dev.get (pgCDC p) CDC.APPLIED_D % 2 ^ 24 ∧
        Frame [CDC.COEF_READY.key (pgCDC p), CDC.FILTER_D.key (pgCDC p)] s.dev d)

/-- While line die p is reachable: a subcarrier in BLIND that has not converged goes to PILOT at the fourth window in a row with variance below 0.25 once it is aligned, and to the next seed, with an event after the last, at the seed timeout; PILOT goes to TRACK and HOLD to BLIND when their times pass; a FREEZE bit takes a subcarrier that is not OFF to FROZEN, and clearing it takes it to TRACK where it is aligned and to BLIND where it is not; REINIT returns the named active subcarriers to BLIND with seed 0. -/
def Obligations.EqualiserStates : Prop :=
  (∀ (p : Port) (sc : Fin 8) (var xcorr : Nat) (s : State), s.clocked → s.dev.online p = true → s.dev.eqState p sc = 1 →
      s.dev.get (pgSUBC p sc) SUBC.CONVERGED = 0 → s.dev.get (pgSUBC p sc) SUBC.WIN_RUN = 3 → var < 250 → s.dev.aligned p sc = true →
      Yields (.mimoWindow p sc var xcorr) s fun d => d.eqState p sc = 2 ∧ bitOf (d.get (pgMIMO p) MIMO.STATUS_CONV) sc.val = true) ∧
  (∀ (p : Port) (sc : Fin 8) (s : State), s.clocked → s.dev.online p = true → s.dev.eqState p sc = 1 →
      s.dev.get (pgSUBC p sc) SUBC.CONVERGED = 0 →
      Yields (.mimoSeedTimeout p sc) s fun d => d.eqState p sc = 1 ∧ d.get (pgSUBC p sc) SUBC.EQ_STAT_SEED = (s.dev.get (pgSUBC p sc) SUBC.EQ_STAT_SEED + 1) % 4 ∧
        d.get (pgMIMO p) MIMO.SEEDS = (s.dev.get (pgMIMO p) MIMO.SEEDS + 1) % 2 ^ 48 ∧ (d.get (pgSUBC p sc) SUBC.EQ_STAT_SEED = 0 → d.raised (pgMIMO p) 2)) ∧
  (∀ (p : Port) (sc : Fin 8) (s : State), s.clocked → s.dev.online p = true → s.dev.eqState p sc = 2 →
      Yields (.mimoPilotDone p sc) s fun d => d.eqState p sc = 3 ∧ d.raised (pgSUBC p sc) 0 ∧ d.eq = s.dev.eq) ∧
  (∀ (p : Port) (sc : Fin 8) (s : State), s.clocked → s.dev.online p = true → s.dev.eqState p sc = 5 →
      Yields (.mimoHoldTimeout p sc) s fun d => d.eqState p sc = 1 ∧ d.eq = s.dev.eq) ∧
  (∀ (p : Port) (w : Word) (sc : Fin 8) (s : State), s.clocked → s.dev.online p = true →
      s.dev.eqState p sc ≠ 0 → s.dev.eqState p sc ≠ 4 → bitOf (MIMO.CTL_FREEZE.ofWord w.toNat) sc.val = true →
      Yields (.freeze p w) s fun d => d.eqState p sc = 4 ∧ bitOf (d.get (pgMIMO p) MIMO.STATUS_FROZEN) sc.val = true ∧
        d.get (pgMIMO p) MIMO.CTL_FREEZE = MIMO.CTL_FREEZE.ofWord w.toNat ∧ d.eq = s.dev.eq) ∧
  (∀ (p : Port) (w : Word) (sc : Fin 8) (s : State), s.clocked → s.dev.online p = true →
      s.dev.eqState p sc = 4 → bitOf (MIMO.CTL_FREEZE.ofWord w.toNat) sc.val = false →
      Yields (.freeze p w) s fun d => d.eqState p sc = (if s.dev.aligned p sc then 3 else 1) ∧ bitOf (d.get (pgMIMO p) MIMO.STATUS_FROZEN) sc.val = false) ∧
  (∀ (p : Port) (w : Word) (sc : Fin 8) (s : State), s.clocked → s.dev.online p = true → w.getLsbD sc.val = true → sc.val < s.dev.rxK p →
      Yields (.reinit p w) s fun d => d.eqState p sc = 1 ∧ d.get (pgSUBC p sc) SUBC.EQ_STAT_SEED = 0 ∧
        bitOf (d.get (pgMIMO p) MIMO.CTL_FREEZE) sc.val = false ∧ FMap.get (d.eq.get p).taps (sc.val * 128 + 15) = 256)

/-- While line die p is reachable: a tap update in PILOT, TRACK or HOLD, short of the count that moves the taps, moves a tap by the accumulated gradient times the step in force, exactly where 10 bits hold the result, and counts; SNAP copies a subcarrier's taps to its window and sets READY; half a clean triplet entry written while TBL_OPEN is stored and no other byte changes, and one written while the table is closed is dropped with one more in WR_DROP and an event; the table opens once EN is 0; a table CRC starts busy and ends with the CRC of all entries; an uncorrectable entry counts as zero. -/
def Obligations.EqualiserTaps : Prop :=
  (∀ (p : Port) (sc : Fin 8) (f : Fin 4) (gr gi : Int) (s : State), s.clocked → s.dev.online p = true →
      s.dev.eqState p sc = 2 ∨ s.dev.eqState p sc = 3 ∨ s.dev.eqState p sc = 5 → gr ≠ 0 ∨ gi ≠ 0 →
      s.dev.get (pgSUBC p sc) SUBC.CENTROID_RUN < 15 →
      Yields (.mimoTapUpdate p sc [(false, [(⟨32 * f.val + 15, by omega⟩, gr, gi)])]) s fun d =>
        FMap.get (d.eq.get p).taps (sc.val * 128 + (32 * f.val + 15)) =
          tapStep (sOf 10 (FMap.get (s.dev.eq.get p).taps (sc.val * 128 + (32 * f.val + 15)) % 65536)) gr (s.dev.eqStep p sc) +
          65536 * tapStep (sOf 10 (FMap.get (s.dev.eq.get p).taps (sc.val * 128 + (32 * f.val + 15)) / 65536)) gi (s.dev.eqStep p sc) ∧
        d.get (pgSUBC p sc) SUBC.EQ_UPDATES = (s.dev.get (pgSUBC p sc) SUBC.EQ_UPDATES + 1) % 2 ^ 48) ∧
  (∀ (h g : Int) (k : Nat), g % (2 ^ k : Nat) = 0 → -512 ≤ h + g / (2 ^ k : Nat) → h + g / (2 ^ k : Nat) ≤ 511 →
      tapStep h g k = sTo 10 (h + g / (2 ^ k : Nat))) ∧
  (∀ (p : Port) (sc : Fin 8) (i : Fin 128) (s : State), s.clocked → s.dev.online p = true →
      Yields (.snap p sc) s fun d => d.get (pgSUBC p sc) SUBC.EQ_SNAP_STAT_READY = 1 ∧
        d.get (pgSUBC p sc) (SUBC.TAPS_RE.at i.val) = FMap.get (s.dev.eq.get p).taps (sc.val * 128 + i.val) % 2 ^ 10 ∧ d.eq = s.dev.eq) ∧
  (∀ (p : Port) (woff : Fin 245760) (w : Word) (a : Nat) (s : State), s.clocked → s.dev.online p = true →
      s.dev.get (pgNLC p) NLC.STATUS_TBL_OPEN = 1 → s.dev.wordSyn (4 + p.val) (woff.val / 2) = 0 →
      Yields (.tripletWrite p woff w) s fun d => memReadN d.mem 4 (tripAddr p (4 * woff.val)) = w.toNat ∧
        (a < tripAddr p (4 * woff.val) ∨ tripAddr p (4 * woff.val) + 4 ≤ a → memRead d.mem a = memRead s.dev.mem a)) ∧
  (∀ (p : Port) (woff : Fin 245760) (w : Word) (s : State), s.clocked → s.dev.online p = true →
      s.dev.get (pgNLC p) NLC.STATUS_TBL_OPEN = 0 →
      Yields (.tripletWrite p woff w) s fun d => d.get (pgNLC p) NLC.WR_DROP = (s.dev.get (pgNLC p) NLC.WR_DROP + 1) % 2 ^ 48 ∧
        d.raised (pgNLC p) 0 ∧ Frame [NLC.WR_DROP.key (pgNLC p)] s.dev d) ∧
  (∀ (p : Port) (s : State), s.clocked → s.dev.online p = true → s.dev.get (pgNLC p) NLC.CTL_EN = 0 →
      Yields (.tblOpen p) s fun d => d.get (pgNLC p) NLC.STATUS_TBL_OPEN = 1 ∧ Frame [NLC.STATUS_TBL_OPEN.key (pgNLC p)] s.dev d) ∧
  (∀ (p : Port) (s : State), s.clocked → s.dev.online p = true →
      Yields (.sumStart p) s fun d => d.get (pgNLC p) NLC.STATUS_SUM_BUSY = 1 ∧
        Frame [NLC.STATUS_SUM_BUSY.key (pgNLC p), NLC.SUM_DIRTY.key (pgNLC p)] s.dev d) ∧
  (∀ (p : Port) (s : State), s.clocked → s.dev.online p = true → s.dev.get (pgNLC p) NLC.STATUS_SUM_BUSY = 1 →
      s.dev.get (pgNLC p) NLC.SUM_DIRTY = 0 →
      Yields (.sumDone p) s fun d => d.get (pgNLC p) NLC.TBL_CRC_CRC = crc32Mem s.dev.memFixed (tripAddr p 0) 983040 % 2 ^ 32 ∧
        d.get (pgNLC p) NLC.STATUS_SUM_BUSY = 0 ∧ d.raised (pgNLC p) 1 ∧ d.mem = s.dev.mem) ∧
  (∀ (p : Port) (e : Fin 122880) (s : State), s.clocked → s.dev.online p = true →
      Yields (.tblEcc p e) s fun d => d.nlcCoef p e.val = (0, 0) ∧ d.get (pgNLC p) NLC.ECC_LAST_INDEX = e.val ∧
        d.get (pgNLC p) NLC.ECC_ZERO = (s.dev.get (pgNLC p) NLC.ECC_ZERO + 1) % 2 ^ 48 ∧ d.raised (pgNLC p) 2 ∧ d.mem = s.dev.mem)

/-- While line die p is reachable and its ADC lanes run: REACQ starts acquisition at step 1 with one more in REACQS; a coarse offset inside FO_WIN with the CDC not in AUTO gives step 3 and its whole bins; one outside is a failure that restarts below the fourth; timing lock at step 3 leads to step 4 with TIM_LOCK, and to BLIND where subcarrier 0 was OFF and is not frozen; timing loss clears TIM_LOCK; the fourth failure in a row stops with ACQ_FAIL, and the retry starts again; the receive converter PLL that settles runs the enabled lanes again, and acquisition with them where all four are, and the transmit one only ends the retune. -/
def Obligations.CarrierAcquisition : Prop :=
  (∀ (p : Port) (s : State), s.clocked → s.dev.online p = true → s.dev.adcRuns p = true →
      Yields (.reacq p) s fun d => d.get (pgCRV p) CRV.STATUS_ACQ = 1 ∧ d.get (pgCRV p) CRV.STATUS_ACQ_STEP = 1 ∧
        d.get (pgCRV p) CRV.STATUS_FO_LOCK = 0 ∧ d.get (pgCRV p) CRV.STATUS_TIM_LOCK = 0 ∧
        d.get (pgCRV p) CRV.REACQS = (s.dev.get (pgCRV p) CRV.REACQS + 1) % 2 ^ 48) ∧
  (∀ (p : Port) (est : Int) (s : State), s.clocked → s.dev.online p = true → s.dev.get (pgCRV p) CRV.STATUS_ACQ = 1 →
      s.dev.get (pgCRV p) CRV.STATUS_ACQ_STEP = 1 → s.dev.get (pgCDC p) CDC.CTL_MODE ≠ 0 →
      est.natAbs ≤ clampN 1 50 (s.dev.get (pgCRV p) CRV.CTL_FO_WIN) * 100000 →
      Yields (.coarseFoDone p est) s fun d => d.get (pgCRV p) CRV.STATUS_ACQ_STEP = 3 ∧
        d.get (pgCRV p) CRV.FO_COARSE_BINS = sTo 16 (roundBins est (s.dev.binNum p) (s.dev.fft p)) % 2 ^ 16 ∧
        d.get (pgCRV p) CRV.FO_TOTAL_FO = sTo 24 est % 2 ^ 24) ∧
  (∀ (p : Port) (est : Int) (s : State), s.clocked → s.dev.online p = true → s.dev.adcRuns p = true →
      s.dev.get (pgCRV p) CRV.STATUS_ACQ = 1 → s.dev.get (pgCRV p) CRV.STATUS_ACQ_STEP = 1 → s.dev.get (pgCRV p) CRV.FAIL_RUN < 3 →
      clampN 1 50 (s.dev.get (pgCRV p) CRV.CTL_FO_WIN) * 100000 < est.natAbs →
      Yields (.coarseFoDone p est) s fun d => d.get (pgCRV p) CRV.STATUS_ACQ = 1 ∧ d.get (pgCRV p) CRV.STATUS_ACQ_STEP = 1 ∧
        d.get (pgCRV p) CRV.ACQ_FAILS = (s.dev.get (pgCRV p) CRV.ACQ_FAILS + 1) % 2 ^ 48 ∧
        d.get (pgCRV p) CRV.FAIL_RUN = s.dev.get (pgCRV p) CRV.FAIL_RUN + 1) ∧
  (∀ (p : Port) (s : State), s.clocked → s.dev.online p = true → s.dev.get (pgCRV p) CRV.STATUS_ACQ = 1 →
      s.dev.get (pgCRV p) CRV.STATUS_ACQ_STEP = 3 → s.dev.aligned p 0 = false → s.dev.get (pgCRV p) CRV.STATUS_TIM_LOCK = 0 →
      Yields (.timLock p) s fun d => d.get (pgCRV p) CRV.STATUS_ACQ_STEP = 4 ∧ d.get (pgCRV p) CRV.STATUS_TIM_LOCK = 1 ∧
        d.raised (pgCRV p) 2 ∧ (s.dev.eqState p 0 = 0 → bitOf (s.dev.get (pgMIMO p) MIMO.CTL_FREEZE) 0 = false → d.eqState p 0 = 1)) ∧
  (∀ (p : Port) (s : State), s.clocked → s.dev.online p = true → s.dev.get (pgCRV p) CRV.STATUS_TIM_LOCK = 1 →
      Yields (.timLost p) s fun d => d.get (pgCRV p) CRV.STATUS_TIM_LOCK = 0 ∧ d.raised (pgCRV p) 3 ∧
        Frame [CRV.STATUS_TIM_LOCK.key (pgCRV p)] s.dev d) ∧
  (∀ (p : Port) (s : State), s.clocked → s.dev.online p = true → s.dev.get (pgCRV p) CRV.STATUS_ACQ = 1 →
      s.dev.get (pgCRV p) CRV.FAIL_RUN = 3 →
      Yields (.acqTimeout p) s fun d => d.get (pgCRV p) CRV.STATUS_ACQ = 0 ∧ d.raised (pgCRV p) 5 ∧
        d.get (pgCRV p) CRV.RETRYING = 1 ∧ d.get (pgCRV p) CRV.ACQ_FAILS = (s.dev.get (pgCRV p) CRV.ACQ_FAILS + 1) % 2 ^ 48) ∧
  (∀ (p : Port) (s : State), s.clocked → s.dev.online p = true → s.dev.adcRuns p = true → s.dev.get (pgCRV p) CRV.RETRYING = 1 →
      Yields (.acqRetry p) s fun d => d.get (pgCRV p) CRV.STATUS_ACQ = 1 ∧ d.get (pgCRV p) CRV.STATUS_ACQ_STEP = 1 ∧
        d.get (pgCRV p) CRV.RETRYING = 0 ∧ d.get (pgCRV p) CRV.REACQS = (s.dev.get (pgCRV p) CRV.REACQS + 1) % 2 ^ 48) ∧
  (∀ (p : Port) (s : State), s.clocked → s.dev.online p = true → s.dev.get (pgADC p) ADC.RETUNE = 1 →
      Yields (.converterPllSettle p true) s fun d => d.get (pgADC p) ADC.RETUNE = 0 ∧
        d.get (pgADC p) ADC.STATUS_RUN = s.dev.get (pgADC p) ADC.LANE_CTL_EN % 16 ∧
        (s.dev.get (pgADC p) ADC.LANE_CTL_EN = 15 → d.get (pgCRV p) CRV.STATUS_ACQ = 1)) ∧
  (∀ (p : Port) (s : State), s.clocked → s.dev.online p = true →
      Yields (.converterPllSettle p false) s fun d => d.get (pgDAC p) DAC.RETUNE = 0 ∧ Frame [DAC.RETUNE.key (pgDAC p)] s.dev d)

/-- While line die p is reachable and the pilot positions are known: the pilot that completes 16 in a row on both polarisations below 0.2 rad gives CR_LOCK with its event; a pilot of an aligned subcarrier 90 degrees off the track is a cycle slip, counted for the subcarrier and the port, with 63 symbols erased where CS_ERASE is set, and the track is re-anchored to the pilot; otherwise the track is carried on; the pilot with which more than 64 of the last 256 decisions of a subcarrier are wrong ends CR_LOCK with its event. -/
def Obligations.CarrierLock : Prop :=
  (∀ (p : Port) (sc : Fin 8) (frame : BitVec 12) (n : BitVec 11) (phase drift : BitVec 16) (t : Nat) (s : State), s.clocked → s.dev.online p = true →
      s.dev.get (pgSUBC p sc) SUBC.STATUS_PILOT_OK = 1 → s.dev.get (pgSUBC p sc) SUBC.STATUS_CR_LOCK = 0 →
      s.dev.get (pgSUBC p sc) (SUBC.OK_RUN.at 1) = 16 → s.dev.get (pgSUBC p sc) (SUBC.OK_RUN.at 0) = 15 →
      AMap.find? (s.dev.eq.get p).tracks (sc.val * 2) = some t → (phase - BitVec.ofNat 16 t - drift).toInt.natAbs ≤ 8192 →
      Yields (.pilot p sc false frame n phase true false drift) s fun d => d.get (pgSUBC p sc) SUBC.STATUS_CR_LOCK = 1 ∧
        d.raised (pgSUBC p sc) 3 ∧ d.get (pgSUBC p sc) SUBC.SLIPS = s.dev.get (pgSUBC p sc) SUBC.SLIPS ∧
        AMap.find? (d.eq.get p).tracks (sc.val * 2) = some ((t + drift.toNat) % 65536)) ∧
  (∀ (p : Port) (sc : Fin 8) (pol ok wrong : Bool) (frame : BitVec 12) (n : BitVec 11) (phase drift : BitVec 16) (t : Nat) (s : State), s.clocked → s.dev.online p = true →
      s.dev.get (pgSUBC p sc) SUBC.STATUS_PILOT_OK = 1 → s.dev.aligned p sc.val = true →
      AMap.find? (s.dev.eq.get p).tracks (sc.val * 2 + b2n pol) = some t →
      phase - BitVec.ofNat 16 t - drift = 16384 ∨ phase - BitVec.ofNat 16 t - drift = -16384 →
      s.dev.get (pgCRV p) CRV.CTL_CS_ERASE = 1 →
      Yields (.pilot p sc pol frame n phase ok wrong drift) s fun d =>
        d.get (pgSUBC p sc) SUBC.SLIPS = (s.dev.get (pgSUBC p sc) SUBC.SLIPS + 1) % 2 ^ 48 ∧
        d.get (pgCRV p) CRV.SLIPS = (s.dev.get (pgCRV p) CRV.SLIPS + 1) % 2 ^ 48 ∧
        d.get (pgSUBC p sc) SUBC.ERASED = (s.dev.get (pgSUBC p sc) SUBC.ERASED + 63) % 2 ^ 48 ∧ d.raised (pgSUBC p sc) 5 ∧
        d.get (pgSUBC p sc) (SUBC.SLIP_TRACE_PHASE.at 32) = phase.toNat ∧
        ((slipAt (s.dev.rxK p) frame.toNat n.toNat).1, sc.val * 2 + b2n pol, (slipAt (s.dev.rxK p) frame.toNat n.toNat).2) ∈ (d.eq.get p).slips ∧
        AMap.find? (d.eq.get p).tracks (sc.val * 2 + b2n pol) = some phase.toNat) ∧
  (∀ (p : Port) (sc : Fin 8) (pol ok : Bool) (frame : BitVec 12) (n : BitVec 11) (phase drift : BitVec 16) (l : List Bool) (s : State), s.clocked → s.dev.online p = true →
      s.dev.get (pgSUBC p sc) SUBC.STATUS_PILOT_OK = 1 → s.dev.get (pgSUBC p sc) SUBC.STATUS_CR_LOCK = 1 → s.dev.aligned p sc.val = false →
      AMap.find? (s.dev.eq.get p).pilotWin sc.val = some l → 255 ≤ l.length → 64 ≤ (l.take 255).countP id →
      Yields (.pilot p sc pol frame n phase ok true drift) s fun d => d.get (pgSUBC p sc) SUBC.STATUS_CR_LOCK = 0 ∧ d.raised (pgSUBC p sc) 4 ∧
        d.get (pgSUBC p sc) SUBC.PILOT_ERR = (s.dev.get (pgSUBC p sc) SUBC.PILOT_ERR + 1) % 2 ^ 48)

/-- While line die p is reachable: a write of a predistortion word replaces its four entries; at receive frame 0 with the anchor in lock a standing decoder becomes active; a released Girder or Trestle codeword counts one inner codeword and 6,144 bits, in the iteration histogram and, uncorrected, in bin 17, with UNC for Trestle and CAPPED for a Girder one below MAX_ITER; the eighth of a group brings the 24 outer codewords, and ends a pause in Girder where nothing is held; an input opens, fills or completes a codeword buffer, and one beyond the last whole unit is only counted; groups of 16 inputs whose parity fails are counted, with their event; PEAK_CLR clears the pool peak; injection enabled is reported. -/
def Obligations.ForwardErrorCorrection : Prop :=
  (∀ (p : Port) (i : Fin 256) (w : Word) (s : State), s.clocked → s.dev.online p = true →
      Yields (.txsPdWrite p i w) s fun d => d.get (pgTXS p) (TXS.PD_ENTRY.at i.val) = w.toNat ∧
        Frame [(TXS.PD_ENTRY.at i.val).key (pgTXS p)] { s.dev with conv := d.conv } d) ∧
  (∀ (p : Port) (s : State), s.clocked → s.dev.online p = true → s.dev.aligned p 0 = true →
      s.dev.get (pgLFR p) LFR.FRAME_POS = 0 → s.dev.get (pgFEC p) FEC.STATUS_DEC_ACTIVE = 0 →
      Yields (.decoderStart p) s fun d => d.get (pgFEC p) FEC.STATUS_DEC_ACTIVE = 1 ∧ d.get (pgDMP p) DMP.STATUS_ACTIVE = 1 ∧
        d.fec.get p = { s.dev.fec.get p with fill := none, rxAt := 0 }) ∧
  (∀ (p : Port) (blocks : List RxBlock) (iters : BitVec 16) (parity : List (Fin 384)) (cw : Codeword) (rest : List Codeword) (t : Fin 16) (s : State), s.clocked →
      s.dev.online p = true → (s.dev.fec.get p).pool = cw :: rest → cw.trestle = false →
      Yields (.codewordRelease p blocks iters parity) s fun d =>
        (let c := (FecState.serve iters.toNat (((s.dev.rxBlocks p blocks).llrParity p false (parity.map (·.val))).fec.get p)).pool.headD cw;
         let r := c.decode (max c.least c.iters);
         d.get (pgFEC p) FEC.INNER_CW = (s.dev.get (pgFEC p) FEC.INNER_CW + 1) % 2 ^ 48 ∧
         d.get (pgFEC p) FEC.BITS = (s.dev.get (pgFEC p) FEC.BITS + 6144) % 2 ^ 48 ∧
         d.get (pgFEC p) (FEC.CORR.at t.val) = (s.dev.get (pgFEC p) (FEC.CORR.at t.val) + (if r.2.1 then
           (c.cells.zip r.1).countP (fun x => x.1 / 16 % 16 == t.val && x.2 != decide (8 ≤ x.1 % 16)) else 0)) % 2 ^ 48 ∧
         d.get (pgFEC p) (FEC.ITER_HIST.at (if r.2.1 then r.2.2.1 else 17)) =
           (s.dev.get (pgFEC p) (FEC.ITER_HIST.at (if r.2.1 then r.2.2.1 else 17)) + 1) % 2 ^ 48 ∧
         (r.2.1 = false → r.2.2.1 < c.maxIter → d.raised (pgFEC p) 3) ∧
         ((d.fec.get p).pool.take rest.length).map (·.cells) = rest.map (·.cells) ∧
         d.get (pgTRSL p) TRSL.PAR_LLR = (s.dev.get (pgTRSL p) TRSL.PAR_LLR + parity.length) % 2 ^ 48 ∧
         (parity ≠ [] → d.raised (pgTRSL p) 11))) ∧
  (∀ (p : Port) (blocks : List RxBlock) (iters : BitVec 16) (parity : List (Fin 384)) (cw : Codeword) (rest : List Codeword) (s : State), s.clocked →
      s.dev.online p = true → (s.dev.fec.get p).pool = cw :: rest → cw.trestle = false → cw.word = 7 → (s.dev.fec.get p).words.length = 7 →
      Yields (.codewordRelease p blocks iters parity) s fun d =>
        d.get (pgFEC p) FEC.OUTER_CW = (s.dev.get (pgFEC p) FEC.OUTER_CW + 24) % 2 ^ 48 ∧
        ((s.dev.fec.get p).held = [] → s.dev.rxTrestle p = false → d.get (pgFEC p) FEC.STATUS_HOLD = 0) ∧ (d.fec.get p).words = []) ∧
  (∀ (p : Port) (blocks : List RxBlock) (parity : List (Fin 384)) (cw : Codeword) (s : State), s.clocked → s.dev.online p = true →
      (s.dev.fec.get p).pool.find? (·.trestle) = some cw →
      Yields (.trestleRelease p blocks parity) s fun d =>
        (let r := (cw.parity (parity.map (·.val))).decode 4;
         d.get (pgFEC p) FEC.INNER_CW = (s.dev.get (pgFEC p) FEC.INNER_CW + 1) % 2 ^ 48 ∧
         d.get (pgFEC p) (FEC.ITER_HIST.at (if r.2.1 then r.2.2.2 else 17)) =
           (s.dev.get (pgFEC p) (FEC.ITER_HIST.at (if r.2.1 then r.2.2.2 else 17)) + 1) % 2 ^ 48 ∧
         (r.2.1 = false → d.get (pgFEC p) FEC.LAST_UNC_FRAME = cw.frame % 2 ^ 12 ∧ d.raised (pgFEC p) 0) ∧
         d.get (pgTRSL p) TRSL.PAR_LLR = (s.dev.get (pgTRSL p) TRSL.PAR_LLR + parity.length) % 2 ^ 48)) ∧
  (∀ (cw : Codeword) (lim x : Nat) (f : FecState), f.rxAt < lim → f.fill = none → (f.rxAt + 1) % 6144 ≠ 0 →
      (FecState.input cw lim f x).fill.map (·.cells) = some [x] ∧ (FecState.input cw lim f x).pool = f.pool ∧
        (FecState.input cw lim f x).rxAt = f.rxAt + 1) ∧
  (∀ (cw w : Codeword) (lim x : Nat) (f : FecState), f.rxAt < lim → f.fill = some w → (f.rxAt + 1) % 6144 = 0 →
      (FecState.input cw lim f x).fill = none ∧
        (FecState.input cw lim f x).pool = f.pool ++ [w.complete x f.turn] ∧ (w.complete x f.turn).cells = (x :: w.cells).reverse) ∧
  (∀ (cw : Codeword) (lim x : Nat) (f : FecState), lim ≤ f.rxAt → FecState.input cw lim f x = { f with rxAt := f.rxAt + 1 }) ∧
  (∀ (p : Port) (s : State), s.clocked → s.dev.online p = true →
      Yields (.peakClr p) s fun d => d.get (pgFEC p) FEC.POOL_PEAK = 0 ∧ Frame [FEC.POOL_PEAK.key (pgFEC p)] s.dev d) ∧
  (∀ (p : Port) (w : Word) (s : State), s.clocked → s.dev.online p = true → s.dev.get (pgFEC p) FEC.INJ_EN = 0 →
      Yields (.injOn p w) s fun d => d.get (pgFEC p) FEC.INJ_EN = 1 ∧ d.get (pgFEC p) FEC.INJ_NBIT = FEC.INJ_NBIT.ofWord (w ||| 0x80000000#32).toNat ∧
        d.raised (pgFEC p) 8)

/-- While line die p is reachable, the end of a monitor window once its frames have gone by, advances the sequence of the port, of the FEC and of every subcarrier and raises MON_LATCH; it takes the LLR histogram, sets MON_VALID exactly for the subcarriers that had carrier lock in the whole window, and opens the next window with its counts at 0; BER_PRE is the ratio of corrected to decoded bits in units of 2^-32, rounded down, where any bit was decoded. -/
def Obligations.MonitorLatch : Prop :=
  (∀ (p : Port) (m : List (Fin 8 × Mon)) (sc : Fin 8) (i : Fin 16) (s : State), s.clocked → s.dev.online p = true →
      s.dev.monWindow p ≤ s.dev.get (pgDMP p) DMP.WIN_FRAMES →
      Yields (.monLatch p m) s fun d =>
        d.get (pgDMP p) DMP.MON_SEQ_SEQ = (s.dev.get (pgDMP p) DMP.MON_SEQ_SEQ + 1) % 2 ^ DMP.MON_SEQ_SEQ.width ∧
        d.get (pgFEC p) FEC.MON_SEQ_SEQ = (s.dev.get (pgFEC p) FEC.MON_SEQ_SEQ + 1) % 2 ^ FEC.MON_SEQ_SEQ.width ∧
        d.get (pgSUBC p sc) SUBC.MON_SEQ_SEQ = (s.dev.get (pgSUBC p sc) SUBC.MON_SEQ_SEQ + 1) % 2 ^ SUBC.MON_SEQ_SEQ.width ∧
        (d.get (pgSUBC p sc) SUBC.STATUS_MON_VALID = 1 ↔ s.dev.get (pgSUBC p sc) SUBC.WIN_LOCKED ≠ 0) ∧
        d.get (pgDMP p) (DMP.LLR_HIST_COUNT.at i.val) = satN 32 (FMap.get (s.dev.fec.get p).hist i.val) ∧
        ((s.dev.fec.get p).l6 < 100 * (s.dev.fec.get p).clamped → d.raised (pgDMP p) 3) ∧
        d.get (pgDMP p) DMP.WIN_FRAMES = 0 ∧ (d.fec.get p).hist = [] ∧
        d.get (pgFEC p) FEC.WIN_BITS = 0 ∧ d.get (pgSUBC p sc) SUBC.WIN_SLIPS = 0 ∧ d.raised (pgDMP p) 0 ∧
        (s.dev.get (pgFEC p) FEC.WIN_BITS ≠ 0 → d.get (pgFEC p) FEC.BER_PRE_BER =
          satN 32 (s.dev.get (pgFEC p) FEC.WIN_CORR * 2 ^ 32 / s.dev.get (pgFEC p) FEC.WIN_BITS) % 2 ^ 32)) ∧
  (∀ (p : Port) (m : List (Fin 8 × Mon)) (s : State), s.clocked → s.dev.online p = true →
      s.dev.get (pgDMP p) DMP.WIN_FRAMES < s.dev.monWindow p → Yields (.monLatch p m) s fun d => Frame [] s.dev d)

/-- At a transmit frame boundary each subcarrier's header goes out with the frame index, the span index, its number, the live mode code and the section overhead of the frame, unless a test tone replaces the signal or the converters retune; a header read back gives the fields it was built from; scrambling twice gives the frame stream again; and the information bit that the interleaver gives to a bit of an outer codeword is that bit. -/
def Obligations.HeadersAndStreams : Prop :=
  (∀ (p : Port) (tx : TxFrame) (s : State), s.clocked → s.dev.online p = true → s.dev.txRun p = true → s.dev.stopDue p = false →
      s.dev.commits = [] → s.dev.get (pgLFR p) LFR.SPAN_TXPOS_FRAME < 4095 →
      Yields (.txFrameBoundary p tx) s fun d => d.get (pgTXS p) TXS.PAT_LIVE = 2 ∨
        d.get (pgDAC p) DAC.RETUNE = 1 ∨ Output.headers p ((List.range (d.txK p)).map fun sc =>
          let h := headerBits (s.dev.get (pgLFR p) LFR.SPAN_TXPOS_FRAME + 1) (s.dev.txSpan p) sc (sentCode (d.txCfg p).code)
            (sohWord (FMap.get (s.dev.fec.get p).txBips (s.dev.get (pgLFR p) LFR.SPAN_TXPOS_FRAME))
              (if s.dev.flag (pgLFR p) LFR.STATUS_SDEF then 0 else s.dev.get (pgLFR p) LFR.NEXT_BEI)
              (s.dev.flag (pgLFR p) LFR.STATUS_SDEF) (d.sccFive p (s.dev.get (pgLFR p) LFR.SPAN_TXPOS_FRAME + 1)));
          (ofBits h.1, ofBits h.2)) ∈ d.out) ∧
  (∀ (frame : BitVec 12) (span : BitVec 16) (sc mode : BitVec 4), headerRead (headerWord frame.toNat span.toNat sc.toNat mode.toNat) = some ⟨frame, span, sc, mode⟩) ∧
  (∀ (l : List Bool), scramble (scramble l) = l) ∧
  (∀ (outer : List (List Bool)) (o b : Nat), o < 24 → b < 1792 →
      (let r := outerPlace o b; groupBit outer r.1 r.2 = (outer.getD o []).getD b false))

/-- A held section BIP-16 compared with the parity of its decks counts the differing bits; a deck built while the encoder sends units, and while one still fits into the span, moves a client's count by at most 2 toward the bytes its joint holds, or takes the count announced, and takes that many from the front of the joint, a restarting client carrying data from position 66 on and one cut off none; at other times nothing is built; the next deck of the decoded stream counts, its increment code moves the tracked count, and its bytes with a marked bit are counted, with nothing but parity errors of joint bytes counted while no whole deck is there; an underflow is counted and reported, an Ethernet client's leaving the joint empty and an error block in an open frame, a transparent client's recentring the joint; a recentre puts the fill at the target, but not right after an underflow that did; the end of a frame that leaves the joint is counted, with the error block that a marked or failing block becomes; a client in ERR 1 or 2 sends no block. -/
def Obligations.DecksAndJoints : Prop :=
  (∀ (p : Port) (fr b : Nat) (t : List (Nat × Nat)) (s : State), s.clocked → s.dev.online p = true →
      (s.dev.map.get p).bips = (fr, b) :: t →
      Yields (.sectionBipCompare p) s fun d => (d.map.get p).bips = t ∧
        d.get (pgLFR p) LFR.SBIP_BITS = (s.dev.get (pgLFR p) LFR.SBIP_BITS + popcount 16 (b ^^^ FMap.get (s.dev.fec.get p).rxBips fr)) % 2 ^ 48 ∧
        d.get (pgLFR p) LFR.NEXT_BEI = popcount 16 (b ^^^ FMap.get (s.dev.fec.get p).rxBips fr) % 32 ∧
        FMap.get (d.fec.get p).rxBips fr = 0) ∧
  (∀ (p : Port) (c : Fin 32) (x : Ingress) (offers : List (Fin 32 × Ingress)) (s : State), s.clocked → s.dev.encActive p = true →
      (s.dev.map.get p).txDeck < spanDecks (s.dev.txCfg p).trestle (s.dev.txK p) (s.dev.txCfg p).e256 →
      s.dev.txSlots p c.val ≠ [] → offers.find? (·.1 == c) = some (c, x) →
      Yields (.deckTx p offers) s fun d => (d.map.get p).txDeck = (s.dev.map.get p).txDeck + 1 ∧
        (let m := (s.dev.map.get p).txOf c.val;
         let t := (d.map.get p).txOf c.val;
         let off := m.off || s.dev.slotCut p (s.dev.txSlots p c.val);
         let lim := 252 * (s.dev.txSlots p c.val).length;
         let held := m.joint ++ (s.dev.mapped p c (if s.dev.cliSends c then x else ⟨[], []⟩)).2.take lim;
         let want := min held.length lim;
         (off = true → t.cn = 0 ∧ t.joint = []) ∧
         (off = false → m.restart = true → t.cn = (if (s.dev.map.get p).txDeck % 128 = 66 then m.ahead.getD want else 0) ∧
           t.restart = decide ((s.dev.map.get p).txDeck % 128 ≠ 66)) ∧
         (off = false → m.restart = false → t.cn = m.ahead.getD (clampN (m.cn - 2) (m.cn + 2) want)) ∧
         (off = false → t.joint = held.drop t.cn))) ∧
  (∀ (p : Port) (offers : List (Fin 32 × Ingress)) (s : State), s.clocked →
      s.dev.encActive p = false ∨ spanDecks (s.dev.txCfg p).trestle (s.dev.txK p) (s.dev.txCfg p).e256 ≤ (s.dev.map.get p).txDeck →
      Yields (.deckTx p offers) s fun d => Frame [] s.dev d) ∧
  (∀ (p : Port) (c : Fin 32) (fills : List (Fin 32 × BitVec 13)) (parity : List (Fin 32 × BitVec 16)) (n deck : Nat) (marks : List (Nat × Bool)) (f : FecState) (s : State),
      s.clocked → s.dev.online p = true → (s.dev.fec.get p).takeDeck = some (n, deck, marks, f) →
      (s.dev.map.get p).tabSlots c.val ≠ [] → n ≠ 0 → n % 128 ≠ 66 → s.dev.get (pgMAP p) (MAP.PATH_JC_SYNC.at c.val) = 1 →
      ((s.dev.map.get p).rxOf c.val).bad < 2 →
      Yields (.deckRx p fills parity) s fun d => (d.map.get p).rxDeck = n + 1 ∧ d.fec.get p = f ∧
        d.get (pgLFR p) LFR.DECKS = (s.dev.get (pgLFR p) LFR.DECKS + 1) % 2 ^ 48 ∧
        (marks.any (·.2) = true → d.get (pgLFR p) LFR.MARKED_DECKS = (s.dev.get (pgLFR p) LFR.MARKED_DECKS + 1) % 2 ^ 48 ∧ d.raised (pgLFR p) 20) ∧
        ((d.map.get p).rxOf c.val).cn = ((((s.dev.map.get p).rxOf c.val).cn : Int) + (jcInc (jcMajority
          (bitsOf ((List.range 4).foldl (fun a i => 256 * a + deckByte deck (overheadByte ((s.dev.map.get p).tabSlots c.val) i)) 0) 0 9))).getD 0).toNat ∧
        d.get (pgMAP p) (MAP.MARKED.at c.val) =
          ((parity.foldl (fun e x => e.jointParity p x.1.val x.2.toNat) s.dev).get (pgMAP p) (MAP.MARKED.at c.val) +
          (dataPositions ((s.dev.map.get p).tabSlots c.val).length ((d.map.get p).rxOf c.val).cn).countP
            (fun j => byteMarked marks (dataByte ((s.dev.map.get p).tabSlots c.val) j))) % 2 ^ 48 ∧
        d.get pgECC ECC.PAR_EJ = (parity.foldl (fun e x => e.jointParity p x.1.val x.2.toNat) s.dev).get pgECC ECC.PAR_EJ) ∧
  (∀ (p : Port) (fills : List (Fin 32 × BitVec 13)) (parity : List (Fin 32 × BitVec 16)) (s : State), s.clocked → s.dev.online p = true →
      (s.dev.fec.get p).takeDeck = none →
      Yields (.deckRx p fills parity) s fun d => Frame [] (parity.foldl (fun e x => e.jointParity p x.1.val x.2.toNat) s.dev) d) ∧
  (∀ (p : Port) (c : Fin 32) (s : State), s.clocked →
      Yields (.ejUnf p c) s fun d =>
        d.get (pgMAP p) (MAP.EJSLIP_UNF.at c.val) = satN MAP.EJSLIP_UNF.width (s.dev.get (pgMAP p) (MAP.EJSLIP_UNF.at c.val) + 1) ∧
        bitOf (d.get (pgMAP p) MAP.CLI_FLAG_FLAG) c.val = true ∧ d.raised (pgMAP p) 3 ∧
        (s.dev.cliEth c = true → d.get (pgMAP p) (MAP.EJ_FILL.at c.val) = 0 ∧ d.get (pgCLI c) CLI.EG_UNF = 1 ∧
          d.get (pgCLI c) CLI.ERR_BLK_EG = (s.dev.get (pgCLI c) CLI.ERR_BLK_EG +
            (if s.dev.get (pgCLI c) CLI.STATUS_REPL = 0 ∧ s.dev.get (pgCLI c) CLI.EG_OPEN ≠ 0 then 1 else 0)) % 2 ^ 48) ∧
        (s.dev.cliEth c = false → ((s.dev.map.get p).rxOf c.val).centred ≠ 1 →
          d.get (pgMAP p) (MAP.EJ_FILL.at c.val) = s.dev.ejTarget p c.val ∧ d.raised (pgMAP p) 9)) ∧
  (∀ (p : Port) (c : Fin 32) (w : Word) (nearTx nearRx : Bool) (s : State), s.clocked →
      Yields (.recentre p c w nearTx nearRx) s fun d =>
        (((s.dev.map.get p).rxOf c.val).centred ≠ 2 →
          d.get (pgMAP p) (MAP.EJ_FILL.at c.val) = s.dev.ejTarget p c.val ∧ d.raised (pgMAP p) 9) ∧
        (((s.dev.map.get p).rxOf c.val).centred = 2 →
          d.get (pgMAP p) (MAP.EJ_FILL.at c.val) = s.dev.get (pgMAP p) (MAP.EJ_FILL.at c.val)) ∧
        d.get (pgMAP p) (MAP.CLI_TIM_EN.at c.val) = (MAP.CLI_TIM_EN.at c.val).ofWord (w ||| 0x08000000#32).toNat) ∧
  (∀ (c : Fin 32) (marked : Bool) (fill : BitVec 13) (adj par : Bool) (s : State), s.clocked → s.dev.replNeeded c = false → s.dev.cliEth c = true →
      s.dev.get (pgCLI c) CLI.STAT_ERR ≠ 1 → s.dev.get (pgCLI c) CLI.STAT_ERR ≠ 2 →
      s.dev.get (pgCLI c) CLI.EG_OPEN = 1 → s.dev.get (pgCLI c) CLI.EG_WAIT = 0 → s.dev.get (pgCLI c) CLI.EG_UNF = 0 →
      Yields (.egressBlock c 2 marked fill adj par) s fun d =>
        d.get (pgCLI c) CLI.FRAMES_EG = (s.dev.get (pgCLI c) CLI.FRAMES_EG + 1) % 2 ^ 48 ∧ d.get (pgCLI c) CLI.EG_OPEN = 0 ∧
        d.get (pgMAP (s.dev.cliPort c)) (MAP.EJ_FILL.at c.val) = min fill.toNat 4000 ∧
        d.get (pgCLI c) CLI.ERR_BLK_EG = (s.dev.get (pgCLI c) CLI.ERR_BLK_EG +
          (if par = true ∨ (marked = true ∧ s.dev.get (pgCLI c) CLI.CTL_MARK_E ≠ 0) then 1 else 0)) % 2 ^ 48 ∧
        d.get pgECC ECC.PAR_FIFO = (s.dev.get pgECC ECC.PAR_FIFO + (if par then 1 else 0)) % 2 ^ 48) ∧
  (∀ (c : Fin 32) (kind : Fin 5) (marked : Bool) (fill : BitVec 13) (adj par : Bool) (s : State), s.clocked →
      s.dev.get (pgCLI c) CLI.STAT_ERR = 1 ∨ s.dev.get (pgCLI c) CLI.STAT_ERR = 2 →
      Yields (.egressBlock c kind marked fill adj par) s fun d =>
        (∀ f ∈ [CLI.FRAMES_EG, CLI.ERR_BLK_EG, CLI.IDLE_ADJ], d.get (pgCLI c) f = s.dev.get (pgCLI c) f) ∧ d.get (pgCLI c) CLI.STATUS_REPL = 0)

/-- A receiver that is on and finds signal shows SIG_DET and begins to adapt; adaptation completed makes the lane up, with LANE_UP; a lane that was up and loses its signal or its clock counts in LOS with LANE_DOWN; ADAPT_RESTART clears ADAPT_DONE; a write of the transmit taps shows FFE_CLAMP exactly where their magnitudes exceed 64; CLI_CFG is written while no enable is live or pending and is locked otherwise; an RS codeword of an Ethernet client that the decoder corrects counts its symbols, one it cannot correct counts as such and its 20 blocks are owed as errored; alignment lock, gained or lost, and the skew are shown, with IN_UP and IN_DOWN. -/
def Obligations.HostLanesAndClients : Prop :=
  (∀ (l : Fin 32) (s : State), s.clocked → s.dev.laneRx l = true → s.dev.get (pgHLN l) HLN.STATUS_SIG_DET = 0 →
      Yields (.sigDet l) s fun d => d.get (pgHLN l) HLN.STATUS_SIG_DET = 1 ∧ d.get (pgHLN l) HLN.STATUS_CDR_LOCK = 0 ∧
        d.get (pgHLN l) HLN.STATUS_ADAPT_DONE = 0 ∧ d.laneUp l = false) ∧
  (∀ (l : Fin 32) (snr : BitVec 12) (s : State), s.clocked → s.dev.laneRx l = true → s.dev.get (pgHLN l) HLN.STATUS_SIG_DET = 1 →
      s.dev.laneUp l = false →
      Yields (.adaptDone l snr) s fun d => d.laneUp l = true ∧ d.get (pgHLN l) HLN.RX_SNR_SNR = snr.toNat ∧ d.raised (pgHLN l) 1) ∧
  (∀ (l : Fin 32) (signal : Bool) (s : State), s.clocked → s.dev.laneUp l = true →
      Yields (.laneDown l signal) s fun d => d.laneUp l = false ∧ d.get (pgHLN l) HLN.STATUS_SIG_DET = (if signal then 0 else 1) ∧
        d.get (pgHLN l) HLN.LOS = (s.dev.get (pgHLN l) HLN.LOS + 1) % 2 ^ 48 ∧ d.raised (pgHLN l) 0) ∧
  (∀ (l : Fin 32) (w : Word) (s : State), s.clocked → HLN.CTL_RX_EN.ofWord (w ||| 0x100#32).toNat = 1 →
      Yields (.adaptRestart l w) s fun d => d.get (pgHLN l) HLN.STATUS_ADAPT_DONE = 0 ∧
        d.flag (pgHLN l) HLN.STATUS_SIG_DET = s.dev.flag (pgHLN l) HLN.STATUS_SIG_DET ∧ d.get (pgHLN l) HLN.CTL_RX_EN = 1 ∧
        d.get (pgHLN l) HLN.CTL_LOOP = HLN.CTL_LOOP.ofWord (w ||| 0x100#32).toNat) ∧
  (∀ (l : Fin 32) (w : Word) (s : State), s.clocked →
      Yields (.hlnTxffeWrite l true w) s fun d => d.get (pgHLN l) HLN.TXFFE1_C0 = HLN.TXFFE1_C0.ofWord w.toNat ∧
        d.get (pgHLN l) HLN.TXFFE1_CP1 = HLN.TXFFE1_CP1.ofWord w.toNat ∧
        (d.get (pgHLN l) HLN.STATUS_FFE_CLAMP = 1 ↔ 64 < ffeSum (d.ffeRaw l)) ∧
        Frame [HLN.TXFFE1_C0.key (pgHLN l), HLN.TXFFE1_CP1.key (pgHLN l), HLN.STATUS_FFE_CLAMP.key (pgHLN l)] s.dev d) ∧
  (∀ (l : Fin 32) (w : Word) (s : State), s.clocked →
      Yields (.hlnTxffeWrite l false w) s fun d => d.get (pgHLN l) HLN.TXFFE0_CM3 = HLN.TXFFE0_CM3.ofWord w.toNat ∧
        d.get (pgHLN l) HLN.TXFFE0_CM2 = HLN.TXFFE0_CM2.ofWord w.toNat ∧ d.get (pgHLN l) HLN.TXFFE0_CM1 = HLN.TXFFE0_CM1.ofWord w.toNat ∧
        (d.get (pgHLN l) HLN.STATUS_FFE_CLAMP = 1 ↔ 64 < ffeSum (d.ffeRaw l)) ∧
        Frame [HLN.TXFFE0_CM3.key (pgHLN l), HLN.TXFFE0_CM2.key (pgHLN l), HLN.TXFFE0_CM1.key (pgHLN l),
          HLN.STATUS_FFE_CLAMP.key (pgHLN l)] s.dev d) ∧
  (∀ (c : Fin 32) (w : Word) (s : State), s.clocked → s.dev.get (pgCLI c) CLI.CTL_TX_EN = 0 → s.dev.get (pgCLI c) CLI.CTL_RX_EN = 0 →
      s.dev.pget (pgCLI c) CLI.CTL_TX_EN = 0 → s.dev.pget (pgCLI c) CLI.CTL_RX_EN = 0 →
      Yields (.cliCfgWrite c w) s fun d => d.get (pgCLI c) CLI.CFG_TYPE = CLI.CFG_TYPE.ofWord w.toNat ∧
        d.get (pgCLI c) CLI.CFG_NLANES = CLI.CFG_NLANES.ofWord w.toNat ∧
        d.get (pgCLI c) CLI.CFG_FIRST_LANE = CLI.CFG_FIRST_LANE.ofWord w.toNat ∧ d.get (pgCLI c) CLI.CFG_PORT = CLI.CFG_PORT.ofWord w.toNat) ∧
  (∀ (c : Fin 32) (w : Word) (s : State), s.clocked →
      s.dev.get (pgCLI c) CLI.CTL_TX_EN = 1 ∨ s.dev.pget (pgCLI c) CLI.CTL_RX_EN = 1 →
      Yields (.cliCfgWrite c w) s fun d => d.get (pgCLI c) CLI.STAT_CFG_LOCK = 1 ∧
        (∀ f ∈ [CLI.CFG_TYPE, CLI.CFG_NLANES, CLI.CFG_FIRST_LANE, CLI.CFG_PORT], d.get (pgCLI c) f = s.dev.get (pgCLI c) f)) ∧
  (∀ (c : Fin 32) (cw : List (BitVec 10)) (frames : BitVec 8) (s : State), s.clocked → s.dev.cliEth c = true →
      Yields (.rsCodeword c cw frames) s fun d =>
        d.get (pgCLI c) CLI.FRAMES_IN = (s.dev.get (pgCLI c) CLI.FRAMES_IN + frames.toNat) % 2 ^ 48 ∧
        ((rsDecode (cw.map (·.toNat))).isSome = true → d.get (pgCLI c) CLI.RS_CORR =
             (s.dev.get (pgCLI c) CLI.RS_CORR + ((rsDecode (cw.map (·.toNat))).map (·.2)).getD 0) % 2 ^ 48 ∧
           Frame [CLI.RS_CORR.key (pgCLI c), CLI.FRAMES_IN.key (pgCLI c)] s.dev d) ∧
        (rsDecode (cw.map (·.toNat)) = none → d.get (pgCLI c) CLI.RS_UNC = (s.dev.get (pgCLI c) CLI.RS_UNC + 1) % 2 ^ 48 ∧
           d.get (pgCLI c) CLI.RS_BAD = satN CLI.RS_BAD.width (s.dev.get (pgCLI c) CLI.RS_BAD + 20) ∧
           Frame [CLI.RS_UNC.key (pgCLI c), CLI.FRAMES_IN.key (pgCLI c), CLI.RS_BAD.key (pgCLI c)] s.dev d)) ∧
  (∀ (c : Fin 32) (skew : BitVec 8) (s : State), s.clocked → s.dev.cliEth c = true →
      Yields (.pcsAlignmentLock c false skew) s fun d => d.get (pgCLI c) CLI.STAT_SKEW = skew.toNat ∧ d.get (pgCLI c) CLI.PCS_LOCK = 0 ∧
        d.get (pgCLI c) CLI.STATUS_IN_ALIGN = 0 ∧
        (s.dev.get (pgCLI c) CLI.STATUS_IN_ALIGN = 1 → d.raised (pgCLI c) 1)) ∧
  (∀ (c : Fin 32) (skew : BitVec 8) (s : State), s.clocked → s.dev.cliEth c = true →
      (∀ l : Fin 32, s.dev.cliHas c l.val = true → s.dev.laneUp l = true) →
      Yields (.pcsAlignmentLock c true skew) s fun d => d.get (pgCLI c) CLI.STATUS_IN_ALIGN = 1 ∧ d.get (pgCLI c) CLI.STAT_SKEW = skew.toNat ∧
        (s.dev.get (pgCLI c) CLI.STATUS_IN_ALIGN = 0 → d.raised (pgCLI c) 0))

/-- A tributary that encrypts and is not held sends the block of its counter with header and IV of R313 and R310, counts it, advances the counter or begins the span that is due, and becomes the record of its key, its payload the data completed by idle units or, for another client than Ethernet, zero bits, and with an authentication disagreement its tag is zero and counted; with a keystream disagreement that no standby pair answers, and while it is held for want of a key or of capacity, a VOID goes out and is counted; with no data, or without encryption, no block is sent. A received block in SYNC with the header that is due counts, and is a replay where it stands behind the record of its key, verified where its tag verifies, which ends the run of failures and becomes the record, and failed otherwise; a disagreement makes it untrusted; a VOID is counted only; another header is a failure, the fourth in a row ending SYNC; a valid header in HUNT leads to CHECK; without encryption a block does nothing. A held frame leaves unchanged where all its blocks have verified, else with its FCS inverted; RESYNC returns a tributary to HUNT. -/
def Obligations.EncryptedBlocks : Prop :=
  (∀ (c : Fin 32) (span ctr k : Nat) (latch : Option (Nat × Nat)) (data : List Bool) (ghash : Bool) (s : State), s.clocked → data ≠ [] → s.dev.encOn c true = true →
      span = (if (s.dev.encTx c).fresh then s.dev.txSpan (s.dev.cliPort c) else (s.dev.encTx c).span) →
      ctr = (if (s.dev.encTx c).fresh then 0 else (s.dev.encTx c).ctr) →
      k = (if (s.dev.encTx c).fresh then s.dev.txSlot c else (s.dev.encTx c).nslot) →
      latch = s.dev.latchDue (if (s.dev.encTx c).fresh then none else (s.dev.encTx c).next) k (s.dev.txSlot c) →
      s.dev.slotLoaded (s.dev.txSlot c) = true → (s.dev.encTx c).cap = false → (s.dev.encTx c).scc = false →
      s.dev.ivgCheck c (latch.getD (k, 0)).1 span = false →
      s.dev.get pgENC (ENC.INJ_PEND.at 0) = 0 →
      Yields (.encTxBlock c data [] ghash) s fun d =>
        (let x := s.dev.encTx c;
         let size := if x.fresh then s.dev.encTxSize c else x.nsize;
         let now := s.dev.txSpan (s.dev.cliPort c);
         let ns := decide (0 < diff48 now span);
         let pay := blockPayload (s.dev.cliEth c) (8 * size) x.owed data;
         let body := s.dev.encBody latch size (encHeader false ns span ctr) (encIv c.val span ctr) pay.1;
         d.get pgENC ENC.TX_BLOCKS = (s.dev.get pgENC ENC.TX_BLOCKS + 1) % 2 ^ 48 ∧
         d.get pgENC ENC.TX_VOIDS = s.dev.get pgENC ENC.TX_VOIDS ∧
         d.get pgENC ENC.GHASH_MISMATCH = (s.dev.get pgENC ENC.GHASH_MISMATCH + (if ghash then 1 else 0)) % 2 ^ 48 ∧
         (d.encTx c).span = (if ns then now else span) ∧ (d.encTx c).ctr = (if ns then 0 else ctr + 1) ∧ (d.encTx c).owed = pay.2 ∧
         (∀ l, latch = some l → AMap.find? d.enc.ivRec (ivKey c.val l.1 l.2) = some span) ∧
         Output.encBlock c.val (encHeader false ns span ctr) (some (encIv c.val span ctr)) (if ghash then body / 2 ^ 128 * 2 ^ 128 else body) ∈ d.out)) ∧
  (∀ (c : Fin 32) (span ctr k : Nat) (latch : Option (Nat × Nat)) (data : List Bool) (q : Fin 48) (miss : List (Fin 48)) (ghash : Bool) (s : State), s.clocked → data ≠ [] → s.dev.encOn c true = true →
      span = (if (s.dev.encTx c).fresh then s.dev.txSpan (s.dev.cliPort c) else (s.dev.encTx c).span) →
      ctr = (if (s.dev.encTx c).fresh then 0 else (s.dev.encTx c).ctr) →
      k = (if (s.dev.encTx c).fresh then s.dev.txSlot c else (s.dev.encTx c).nslot) →
      latch = s.dev.latchDue (if (s.dev.encTx c).fresh then none else (s.dev.encTx c).next) k (s.dev.txSlot c) →
      s.dev.slotLoaded (s.dev.txSlot c) = true → (s.dev.encTx c).cap = false → (s.dev.encTx c).scc = false →
      s.dev.ivgCheck c (latch.getD (k, 0)).1 span = false →
      s.dev.get pgENC ENC.STANDBY_TX = 0 →
      Yields (.encTxBlock c data (q :: miss) ghash) s fun d =>
        d.get pgENC ENC.TX_VOIDS = (s.dev.get pgENC ENC.TX_VOIDS + 1) % 2 ^ 48 ∧
        d.get pgENC ENC.TX_MISMATCH = (s.dev.get pgENC ENC.TX_MISMATCH + 1) % 2 ^ 48 ∧ d.raised pgENC 2 ∧
        Output.encBlock c.val (encHeader true (decide (0 < diff48 (s.dev.txSpan (s.dev.cliPort c)) span)) span ctr)
          (some (encIv c.val span ctr)) 0 ∈ d.out) ∧
  (∀ (c : Fin 32) (span ctr : Nat) (data : List Bool) (miss : List (Fin 48)) (ghash : Bool) (s : State), s.clocked → data ≠ [] → s.dev.encOn c true = true →
      span = (if (s.dev.encTx c).fresh then s.dev.txSpan (s.dev.cliPort c) else (s.dev.encTx c).span) →
      ctr = (if (s.dev.encTx c).fresh then 0 else (s.dev.encTx c).ctr) →
      s.dev.slotLoaded (s.dev.txSlot c) = false ∨ (s.dev.encTx c).cap = true →
      Yields (.encTxBlock c data miss ghash) s fun d =>
        d.get pgENC ENC.TX_VOIDS = (s.dev.get pgENC ENC.TX_VOIDS + 1) % 2 ^ 48 ∧ d.get pgENC ENC.TX_BLOCKS = s.dev.get pgENC ENC.TX_BLOCKS ∧
        Output.encBlock c.val (encHeader true (decide (0 < diff48 (s.dev.txSpan (s.dev.cliPort c)) span)) span ctr) none 0 ∈ d.out) ∧
  (∀ (c : Fin 32) (data : List Bool) (miss : List (Fin 48)) (ghash : Bool) (s : State), s.clocked → data = [] ∨ s.dev.encOn c true = false →
      Yields (.encTxBlock c data miss ghash) s fun d => Frame [] s.dev d) ∧
  (∀ (eth : Bool) (n owed : Nat) (data : List Bool), (blockPayload eth n owed data).1.length = n) ∧
  (∀ (n : Nat) (data : List Bool), data.length ≤ n →
      blockPayload false n 0 data = (data ++ List.replicate (n - data.length) false, 0)) ∧
  (∀ (n : Nat) (data : List Bool), data.length ≤ n →
      (257 ∣ n - data.length + (blockPayload true n 0 data).2 ∧ (blockPayload true n 0 data).2 < 257)) ∧
  (∀ (c : Fin 32) (h : BitVec 16) (body : List (BitVec 8)) (s : State), s.clocked → s.dev.encOn c false = true →
      s.dev.get pgENC (ENC.TRIB_STAT_SYNC.at c.val) = 3 →
      s.dev.slotLoaded (s.dev.rxSlot c) = true → (s.dev.encRx c).term = false → (s.dev.encRx c).cap = false →
      h.toNat / 4096 = 0xA → (s.dev.encRx c).fits (bitsOf h.toNat 9 2) (h.toNat % 512) = true →
      s.dev.get pgENC (ENC.INJ_PEND.at 1) = 0 →
      Yields (.encRxBlock c h body [] false) s fun d =>
        (let r := s.dev.encRx c;
         let e := (s.dev.setEncRx c { r.note (bitOf h.toNat 11) (bitsOf h.toNat 9 2) (h.toNat % 512) with
           span := if r.ns then (r.span + 1) % m48 else r.span, ctr := if r.ns then 0 else r.ctr + 1, bad := 0 }).encLatchRx c;
         d.get pgENC ENC.RX_BLOCKS = (s.dev.get pgENC ENC.RX_BLOCKS + 1) % 2 ^ 48 ∧
         d.get pgENC (ENC.TRIB_STAT_SYNC.at c.val) = 3 ∧
         (d.encRx c).span = (e.encRx c).span ∧ (d.encRx c).ctr = (e.encRx c).ctr ∧
         ((e.encRx c).replayed = true → d.get pgENC ENC.REPLAYS = (s.dev.get pgENC ENC.REPLAYS + 1) % 2 ^ 48 ∧ d.raised pgENC 10) ∧
         ((e.encRx c).replayed = false → e.encTagOk c h.toNat (bytesOf body) = true →
           d.get pgENC (ENC.TRIB_STAT_FAILRUN.at c.val) = 0 ∧ d.get pgENC ENC.AUTH_FAILS = s.dev.get pgENC ENC.AUTH_FAILS ∧
           (∀ l, (e.encRx c).latch = some l → AMap.find? (d.encRx c).last (genKey l) = some ((e.encRx c).span, (e.encRx c).ctr))) ∧
         ((e.encRx c).replayed = false → e.encTagOk c h.toNat (bytesOf body) = false →
           d.get pgENC ENC.AUTH_FAILS = (s.dev.get pgENC ENC.AUTH_FAILS + 1) % 2 ^ 48 ∧ d.raised pgENC 0 ∧
           bitOf (d.get pgENC ENC.AUTH_FAIL_TRIB) c.val = true))) ∧
  (∀ (c : Fin 32) (h : BitVec 16) (body : List (BitVec 8)) (miss : List (Fin 48 × Fin 1024)) (ghash : Bool) (s : State), s.clocked → s.dev.encOn c false = true →
      s.dev.get pgENC (ENC.TRIB_STAT_SYNC.at c.val) = 3 →
      s.dev.slotLoaded (s.dev.rxSlot c) = true → (s.dev.encRx c).term = false → (s.dev.encRx c).cap = false →
      h.toNat / 4096 = 0xA → (s.dev.encRx c).fits (bitsOf h.toNat 9 2) (h.toNat % 512) = true →
      ghash = true ∨ (miss ≠ [] ∧ s.dev.get pgENC ENC.STANDBY_RX = 0) →
      Yields (.encRxBlock c h body miss ghash) s fun d =>
        d.get pgENC ENC.RX_UNTRUSTED = (s.dev.get pgENC ENC.RX_UNTRUSTED + 1) % 2 ^ 48 ∧
        d.get pgENC ENC.RX_MISMATCH = (s.dev.get pgENC ENC.RX_MISMATCH + 1) % 2 ^ 48 ∧
        bitOf (d.get pgENC ENC.UNTRUSTED_TRIB) c.val = true ∧ d.raised pgENC 1 ∧ d.get pgENC ENC.AUTH_FAILS = s.dev.get pgENC ENC.AUTH_FAILS ∧
        (ghash = true → d.raised pgENC 12)) ∧
  (∀ (c : Fin 32) (h : BitVec 16) (body : List (BitVec 8)) (miss : List (Fin 48 × Fin 1024)) (ghash : Bool) (s : State), s.clocked → s.dev.encOn c false = true →
      s.dev.get pgENC (ENC.TRIB_STAT_SYNC.at c.val) = 3 →
      h.toNat / 4096 = 5 → (s.dev.encRx c).fits (bitsOf h.toNat 9 2) (h.toNat % 512) = true →
      Yields (.encRxBlock c h body miss ghash) s fun d =>
        d.get pgENC ENC.RX_VOIDS = (s.dev.get pgENC ENC.RX_VOIDS + 1) % 2 ^ 48 ∧
        d.get pgENC ENC.RX_BLOCKS = (s.dev.get pgENC ENC.RX_BLOCKS + 1) % 2 ^ 48 ∧
        d.get pgENC ENC.AUTH_FAILS = s.dev.get pgENC ENC.AUTH_FAILS ∧ d.get pgENC ENC.RX_UNTRUSTED = s.dev.get pgENC ENC.RX_UNTRUSTED) ∧
  (∀ (c : Fin 32) (h : BitVec 16) (body : List (BitVec 8)) (miss : List (Fin 48 × Fin 1024)) (ghash : Bool) (s : State), s.clocked → s.dev.encOn c false = true →
      s.dev.get pgENC (ENC.TRIB_STAT_SYNC.at c.val) = 3 →
      (h.toNat / 4096 ≠ 0xA ∧ h.toNat / 4096 ≠ 5) ∨ (s.dev.encRx c).fits (bitsOf h.toNat 9 2) (h.toNat % 512) = false →
      Yields (.encRxBlock c h body miss ghash) s fun d =>
        d.get pgENC ENC.AUTH_FAILS = (s.dev.get pgENC ENC.AUTH_FAILS + 1) % 2 ^ 48 ∧
        d.get pgENC (ENC.TRIB_STAT_SYNC.at c.val) = (if (s.dev.encRx c).bad = 3 then 0 else 3) ∧
        bitOf (d.get pgENC ENC.AUTH_FAIL_TRIB) c.val = true ∧ d.raised pgENC 0 ∧ ((s.dev.encRx c).bad = 3 → d.raised pgENC 5) ∧
        (d.encRx c).ctr = (if (s.dev.encRx c).ns then 0 else (s.dev.encRx c).ctr + 1)) ∧
  (∀ (c : Fin 32) (h : BitVec 16) (body : List (BitVec 8)) (miss : List (Fin 48 × Fin 1024)) (ghash : Bool) (s : State), s.clocked → s.dev.encOn c false = true →
      s.dev.get pgENC (ENC.TRIB_STAT_SYNC.at c.val) = 0 → h.toNat / 4096 = 0xA ∨ h.toNat / 4096 = 5 →
      Yields (.encRxBlock c h body miss ghash) s fun d =>
        d.get pgENC (ENC.TRIB_STAT_SYNC.at c.val) = 1 ∧ (d.encRx c).ct = h.toNat % 512 ∧
        d.get pgENC ENC.RX_BLOCKS = s.dev.get pgENC ENC.RX_BLOCKS) ∧
  (∀ (c : Fin 32) (h : BitVec 16) (body : List (BitVec 8)) (miss : List (Fin 48 × Fin 1024)) (ghash : Bool) (s : State), s.clocked → s.dev.encOn c false = false →
      Yields (.encRxBlock c h body miss ghash) s fun d => Frame [] s.dev d) ∧
  (∀ (c : Fin 32) (last : Option (Fin 4)) (more : Fin 8) (s : State), s.clocked → s.dev.cliEth c = true →
      s.dev.get pgENC (ENC.TRIB_HOLD_EN.at c.val) = 1 → s.dev.encOn c false = true → s.dev.frameOk c (last.map (·.val)) more.val = false →
      Yields (.encFrameRelease c last more) s fun d =>
        d.get pgENC ENC.FRAMES_INVERTED = (s.dev.get pgENC ENC.FRAMES_INVERTED + 1) % 2 ^ 48 ∧ Output.frameEnd c.val true ∈ d.out ∧
        Frame [ENC.FRAMES_INVERTED.key pgENC] s.dev d) ∧
  (∀ (c : Fin 32) (last : Option (Fin 4)) (more : Fin 8) (s : State), s.clocked → s.dev.cliEth c = true →
      s.dev.get pgENC (ENC.TRIB_HOLD_EN.at c.val) = 1 → s.dev.encOn c false = true → s.dev.frameOk c (last.map (·.val)) more.val = true →
      Yields (.encFrameRelease c last more) s fun d => Output.frameEnd c.val false ∈ d.out ∧ Frame [] s.dev d) ∧
  (∀ (c : Fin 32) (w : Word) (s : State), s.clocked → w.toNat % 32 = c.val → w.getLsbD 9 = false →
      Yields (.resync w) s fun d => d.get pgENC (ENC.TRIB_STAT_SYNC.at c.val) = 0 ∧ (d.encRx c).seen = 0 ∧ (d.encRx c).latch = none ∧
        (d.encRx c).bad = 0)

/-- LOG_POP drops the head of the failure log; INJECT with a pair number below 48 arms one disagreement in its direction, with another nothing; a write of an unlocked tributary takes its slots at once and its staged fields as pending, one of a tributary live on transmit leaves its slots and shows the refused change; ERASE removes the keys of one slot, advances its generation, terminates the blocks in flight on it and counts; ERASE_ALL removes the keys of every slot. -/
def Obligations.EncryptionHost : Prop :=
  (∀ (w : Word) (s : State), s.clocked →
      Yields (.logPop w) s fun d => d.enc.log = s.dev.enc.log.drop 1 ∧
        (w.getLsbD 8 = false → d.enc = { s.dev.enc with log := s.dev.enc.log.drop 1 }) ∧
        (s.dev.enc.log.length ≤ 1 → d.get pgENC ENC.LOG_STAT_OVF = 0) ∧
        (1 < s.dev.enc.log.length → d.get pgENC ENC.LOG_STAT_OVF = s.dev.get pgENC ENC.LOG_STAT_OVF)) ∧
  (∀ (w : Word) (s : State), s.clocked → ENC.TEST_PIPE.ofWord (w ||| 0x1000#32).toNat < 48 →
      Yields (.inject w) s fun d => d.get pgENC (ENC.INJ_PEND.at (ENC.TEST_DIR.ofWord (w ||| 0x1000#32).toNat)) = 1 ∧
        d.get pgENC ENC.TEST_PIPE = ENC.TEST_PIPE.ofWord (w ||| 0x1000#32).toNat ∧
        d.get pgENC ENC.TEST_DIR = ENC.TEST_DIR.ofWord (w ||| 0x1000#32).toNat) ∧
  (∀ (w : Word) (s : State), s.clocked → 48 ≤ ENC.TEST_PIPE.ofWord (w ||| 0x1000#32).toNat →
      Yields (.inject w) s fun d => Frame [ENC.TEST_PIPE.key pgENC, ENC.TEST_DIR.key pgENC] s.dev d) ∧
  (∀ (c : Fin 32) (w : Word) (nearTx nearRx : Bool) (s : State), s.clocked → s.dev.get pgENC (ENC.TRIB_TX_EN.at c.val) = 1 →
      Yields (.encTribWrite c w nearTx nearRx) s fun d =>
        d.get pgENC (ENC.TRIB_SLOT_A.at c.val) = s.dev.get pgENC (ENC.TRIB_SLOT_A.at c.val) ∧
        d.get pgENC (ENC.TRIB_SLOT_B.at c.val) = s.dev.get pgENC (ENC.TRIB_SLOT_B.at c.val) ∧
        ((ENC.TRIB_SLOT_A.at c.val).ofWord w.toNat ≠ s.dev.get pgENC (ENC.TRIB_SLOT_A.at c.val) →
          bitOf (d.get pgENC ENC.CFG_LOCK_TRIB) c.val = true)) ∧
  (∀ (c : Fin 32) (w : Word) (nearTx nearRx : Bool) (s : State), s.clocked → AMap.find? s.dev.commits pgENC = none →
      s.dev.get pgENC (ENC.TRIB_TX_EN.at c.val) = 0 → s.dev.get pgENC (ENC.TRIB_RX_EN.at c.val) = 0 →
      s.dev.pget pgENC (ENC.TRIB_TX_EN.at c.val) = 0 → s.dev.pget pgENC (ENC.TRIB_RX_EN.at c.val) = 0 →
      Yields (.encTribWrite c w nearTx nearRx) s fun d =>
        d.get pgENC (ENC.TRIB_SLOT_A.at c.val) = (ENC.TRIB_SLOT_A.at c.val).ofWord w.toNat ∧
        d.get pgENC (ENC.TRIB_SLOT_B.at c.val) = (ENC.TRIB_SLOT_B.at c.val).ofWord w.toNat ∧
        d.get pgENC (ENC.TRIB_TX_EN.at c.val) = 0 ∧
        d.pget pgENC (ENC.TRIB_TX_EN.at c.val) = (ENC.TRIB_TX_EN.at c.val).ofWord w.toNat ∧
        d.pget pgENC (ENC.TRIB_RX_SEL.at c.val) = (ENC.TRIB_RX_SEL.at c.val).ofWord w.toNat) ∧
  (∀ (k : Fin 64) (w : Word) (s : State), s.clocked → w.getLsbD 9 = false → KEYS.CMD_SLOT.ofWord (w ||| 0x100#32).toNat = k.val →
      Yields (.erase w) s fun d => d.slotLoaded k.val = false ∧ d.slotGen k.val = nextGen (s.dev.slotGen k.val) % 2 ^ 16 ∧
        d.get pgKEYS KEYS.ERASES = (s.dev.get pgKEYS KEYS.ERASES + 1) % 2 ^ 48 ∧ d.raised pgKEYS 1 ∧
        d.get pgENC ENC.ERASE_TERM = (s.dev.get pgENC ENC.ERASE_TERM +
          (List.finRange 32).countP (fun c => (s.dev.encTx c).latch == some (k.val, s.dev.slotGen k.val)) +
          (List.finRange 32).countP (fun c => (s.dev.encRx c).next == some (k.val, s.dev.slotGen k.val))) % 2 ^ 48 ∧
        (∀ j : Fin 64, j ≠ k → AMap.find? d.enc.keys j.val = AMap.find? s.dev.enc.keys j.val)) ∧
  (∀ (w : Word) (s : State), s.clocked →
      Yields (.eraseAll w) s fun d => (∀ k : Fin 64, d.slotLoaded k.val = false) ∧ d.raised pgKEYS 1 ∧ d.raised pgKEYS 7 ∧
        d.get pgKEYS KEYS.ERASES = (s.dev.get pgKEYS KEYS.ERASES + 64) % 2 ^ 48 ∧ d.slotsEmpty = 64)

/-- A claim of a free mailbox makes the agent its owner, and with GO starts its request, another claim does nothing, and a release by the owner frees it, one by another agent being refused and counted; an idle claim expires with its event; a waiting INFO, GET_CERTS with a chain, or QUOTE settles result 0 with its body, GET_CERTS without one the bare public key with a code the spec does not give, and SVN_COMMIT burns the SVN of the image, unless it stands already, and reports what the OTP reads; a completed request clears BUSY, publishes result and length and raises MB_DONE, or after PERST_N discards its response and the claim; a firewall violation is answered with a bus error and counted. -/
def Obligations.KeystoneMailbox : Prop :=
  (∀ (core : Bool) (w : Word) (s : State), s.clocked → w.getLsbD 1 = false → w.getLsbD 2 = false → s.dev.get pgKSMB KSMB.MB_STAT_OWNER = 0 →
      Yields (.claim core w) s fun d => d.get pgKSMB KSMB.MB_STAT_OWNER = agentCode core ∧ Frame [KSMB.MB_STAT_OWNER.key pgKSMB] s.dev d) ∧
  (∀ (core : Bool) (w : Word) (s : State), s.clocked → w.getLsbD 1 = false → w.getLsbD 2 = false → s.dev.get pgKSMB KSMB.MB_STAT_OWNER ≠ 0 →
      Yields (.claim core w) s fun d => Frame [] s.dev d) ∧
  (∀ (core : Bool) (w : Word) (s : State), s.clocked → w.getLsbD 1 = false → w.getLsbD 2 = true → s.dev.get pgKSMB KSMB.MB_STAT_OWNER = 0 →
      s.dev.get pgKSMB KSMB.MB_STAT_BUSY = 0 →
      Yields (.claim core w) s fun d => d.get pgKSMB KSMB.MB_STAT_OWNER = agentCode core ∧ d.get pgKSMB KSMB.MB_STAT_BUSY = 1 ∧
        d.get pgKSMB KSMB.MB_STAT_DONE = 0 ∧ d.ks.rsp = [] ∧ d.get pgKSMB KSMB.REQUESTS = (s.dev.get pgKSMB KSMB.REQUESTS + 1) % 2 ^ 48) ∧
  (∀ (core : Bool) (w : Word) (s : State), s.clocked → w.getLsbD 0 = false → w.getLsbD 2 = false →
      s.dev.get pgKSMB KSMB.MB_STAT_OWNER = agentCode core →
      Yields (.release core w) s fun d => d.get pgKSMB KSMB.MB_STAT_OWNER = 0 ∧ Frame [KSMB.MB_STAT_OWNER.key pgKSMB] s.dev d) ∧
  (∀ (core : Bool) (w : Word) (s : State), s.clocked → w.getLsbD 0 = false → w.getLsbD 2 = false →
      s.dev.get pgKSMB KSMB.MB_STAT_OWNER ≠ agentCode core →
      Yields (.release core w) s fun d => d.get pgKSMB KSMB.REFUSED = (s.dev.get pgKSMB KSMB.REFUSED + 1) % 2 ^ 48 ∧
        Frame [KSMB.REFUSED.key pgKSMB] s.dev d) ∧
  (∀ (s : State), s.clocked → s.dev.get pgKSMB KSMB.MB_STAT_OWNER ≠ 0 → s.dev.get pgKSMB KSMB.MB_STAT_BUSY = 0 →
      Yields (.claimExpired) s fun d => d.get pgKSMB KSMB.MB_STAT_OWNER = 0 ∧ d.raised pgKSMB 3) ∧
  (∀ (s : State), s.clocked → s.dev.ksWaits 1 0 →
      Yields (.info) s fun d => (d.ks.result.map Prod.fst) = some 0 ∧ (d.ks.result.map fun r => r.2.length) = some 32 ∧
        (d.ks.result.map fun r => r.2.getD 8 0) = some (s.dev.get pgKSMB KSMB.LIFE) ∧ Frame [] (s.dev.ksUpd fun k => { k with result := d.ks.result }) d) ∧
  (∀ (chain : List Nat) (s : State), s.clocked → s.dev.ksWaits 2 0 → s.dev.ks.certs = some chain →
      Yields (.getCerts) s fun d => Frame [] (s.dev.ksUpd fun k => { k with result := some (0, chain) }) d) ∧
  (∀ (s : State), s.clocked → s.dev.ksWaits 2 0 → s.dev.ks.certs = none →
      Yields (.getCerts) s fun d => d.ks.result = some (s.dev.free, idPk)) ∧
  (∀ (s : State), s.clocked → s.dev.ksWaits 3 33 → s.dev.mbBody.headD 0 < 2 →
      Yields (.quote) s fun d => (d.ks.result.map Prod.fst) = some 0 ∧ d.ks.quotes = s.dev.ks.quotes + 1 ∧
        (d.ks.result.map fun r => r.2.length) = some 3565 ∧ (d.ks.result.map fun r => (r.2.drop 216).take 32) = some (s.dev.mbBody.drop 1) ∧
        d.get pgKSMB KSMB.QUOTES = (s.dev.get pgKSMB KSMB.QUOTES + 1) % 2 ^ 48) ∧
  (∀ (took : BitVec 384) (s : State), s.clocked → s.dev.ksWaits 4 0 →
      s.dev.get pgKSMB KSMB.SVN_RT_SVN ≠ s.dev.get pgKSMB KSMB.SVN_IMAGE →
      Yields (.svnCommit took) s fun d =>
        let bits := burned (s.dev.get pgKSMB KSMB.SVN_IMAGE) took.toNat (s.dev.get pgKSMB KSMB.OTP_RT);
        d.get pgKSMB KSMB.OTP_RT = bits ∧ d.get pgKSMB KSMB.SVN_RT_SVN = thermo 128 bits ∧
        d.ks.result = some (if thermo 128 bits = s.dev.get pgKSMB KSMB.SVN_IMAGE then 0 else 14, [thermo 128 bits])) ∧
  (∀ (took : BitVec 384) (s : State), s.clocked → s.dev.ksWaits 4 0 →
      s.dev.get pgKSMB KSMB.SVN_RT_SVN = s.dev.get pgKSMB KSMB.SVN_IMAGE →
      Yields (.svnCommit took) s fun d =>
        Frame [] (s.dev.ksUpd fun k => { k with result := some (0, [s.dev.get pgKSMB KSMB.SVN_IMAGE]) }) d) ∧
  (∀ (r : Nat) (rsp : List Nat) (s : State), s.clocked → s.dev.get pgKSMB KSMB.MB_STAT_BUSY = 1 → s.dev.ks.result = some (r, rsp) →
      s.dev.ks.perst = false →
      Yields (.mbDone) s fun d => d.get pgKSMB KSMB.MB_STAT_BUSY = 0 ∧ d.get pgKSMB KSMB.MB_STAT_DONE = 1 ∧
        d.get pgKSMB KSMB.MB_STAT_RESULT = r % 2 ^ KSMB.MB_STAT_RESULT.width ∧
        d.get pgKSMB KSMB.MB_STAT_RSP_LEN = rsp.length % 2 ^ KSMB.MB_STAT_RSP_LEN.width ∧ d.ks.rsp = rsp ∧ d.ks.result = none ∧
        d.raised pgKSMB 2) ∧
  (∀ (r : Nat) (rsp : List Nat) (s : State), s.clocked → s.dev.get pgKSMB KSMB.MB_STAT_BUSY = 1 → s.dev.ks.result = some (r, rsp) →
      s.dev.ks.perst = true →
      Yields (.mbDone) s fun d => d.get pgKSMB KSMB.MB_STAT_BUSY = 0 ∧ d.get pgKSMB KSMB.MB_STAT_DONE = 0 ∧
        d.get pgKSMB KSMB.MB_STAT_OWNER = 0 ∧ d.get pgKSMB KSMB.MB_STAT_RSP_LEN = 0 ∧ d.ks.rsp = [] ∧ d.ks.result = none) ∧
  (∀ (agent : Fin 4) (s : State), s.clocked →
      Yields (.firewall agent) s fun d => Output.busError agent.val ∈ d.out ∧ d.get pgKSMB KSMB.FIREWALL = (s.dev.get pgKSMB KSMB.FIREWALL + 1) % 2 ^ 48 ∧ d.raised pgKSMB 7 ∧
        Frame [KSMB.FIREWALL.key pgKSMB] s.dev d)

/-- A waiting OWNER_BURN of an unowned, provisioned part stores the digest of the key and burns the step OWNED where its signature verifies, with a result that says whether the OTP then reads OWNED, and settles SIG otherwise; a waiting ANCHOR_SET that the owner key signs for this part, with no older list, is stored, and one by another key settles SIG; KEY_INSTALL under a session installs the traffic keys of a slot not in use; DEBUG_CHALLENGE makes a challenge valid, which expires, and DEBUG_UNLOCK uses it up, opening debug after the erasures where the owner, or for scope 2 the RMA key of a part in RMA, has signed it, and settling SIG otherwise. -/
def Obligations.KeystoneOwner : Prop :=
  (∀ (took : BitVec 3) (s : State), s.clocked → s.dev.ksWaits 5 5261 → s.dev.ks.owner = 0 → s.dev.get pgKSMB KSMB.LIFE = 0 →
      s.dev.get pgKSMB KSMB.LIFE_PROV = 1 →
      Yields (.ownerBurn took) s fun d =>
        (Config.mldsaVerify (s.dev.mbBody.take 1952) [] (ascii "ZML-OWN-1" ++ beBytes 32 idDigest) (s.dev.mbBody.drop 1952) = true →
          d.ks.owner = shakeN (s.dev.mbBody.take 1952) 32 ∧
          d.get pgKSMB KSMB.OTP_LIFE = (s.dev.get pgKSMB KSMB.OTP_LIFE ||| took.toNat * 8) % 2 ^ KSMB.OTP_LIFE.width ∧
          d.get pgKSMB KSMB.LIFE = (thermo 4 (d.get pgKSMB KSMB.OTP_LIFE) - 1) % 2 ^ KSMB.LIFE.width ∧
          d.ks.result = some (if d.get pgKSMB KSMB.LIFE = 1 then 0 else 14, [])) ∧
        (Config.mldsaVerify (s.dev.mbBody.take 1952) [] (ascii "ZML-OWN-1" ++ beBytes 32 idDigest) (s.dev.mbBody.drop 1952) = false →
          Frame [] (s.dev.ksUpd fun k => { k with result := some (4, []) }) d)) ∧
  (∀ (s : State), s.clocked → s.dev.ksWaits 6 5330 → s.dev.ks.owner ≠ 0 → s.dev.ks.anchors = [] →
      (part s.dev.mbBody 1952 69).headD 0 ≤ 1 →
      Yields (.anchorSet) s fun d =>
        (shakeN (s.dev.mbBody.take 1952) 32 = s.dev.ks.owner →
          Config.mldsaVerify (s.dev.mbBody.take 1952) [] (part s.dev.mbBody 1952 69) (s.dev.mbBody.drop 2021) = true →
          beVal (part (part s.dev.mbBody 1952 69) 5 32) = idDigest →
          d.ks.result = some (0, []) ∧ AMap.find? d.ks.anchors ((part s.dev.mbBody 1952 69).headD 0) =
            some ⟨(part s.dev.mbBody 1952 69).headD 0, beVal (part (part s.dev.mbBody 1952 69) 1 4), idDigest, [beVal (part (part s.dev.mbBody 1952 69) 37 32)]⟩) ∧
        (shakeN (s.dev.mbBody.take 1952) 32 ≠ s.dev.ks.owner → Frame [] (s.dev.ksUpd fun k => { k with result := some (4, []) }) d)) ∧
  (∀ (x : KsSession) (s : State), s.clocked → s.dev.ksWaits 8 7 → s.dev.mbBody.headD 0 ≤ 1 → s.dev.mbBody.getD 1 0 ≤ 31 →
      s.dev.mbBody.getD 2 0 ≤ 63 → AMap.find? s.dev.ks.sessions (s.dev.mbBody.headD 0) = some x → x.epochs = [] →
      s.dev.slotInUse (s.dev.mbBody.getD 2 0) = false →
      Yields (.keyInstall) s fun d =>
        AMap.find? d.enc.keys (s.dev.mbBody.getD 2 0) = some
          (trafficKey x.secret (s.dev.mbBody.getD 1 0) (beVal (s.dev.mbBody.drop 3)) (b2n (!x.initiator)),
           trafficKey x.secret (s.dev.mbBody.getD 1 0) (beVal (s.dev.mbBody.drop 3)) (1 - b2n (!x.initiator))) ∧
        d.slotGen (s.dev.mbBody.getD 2 0) = nextGen (s.dev.slotGen (s.dev.mbBody.getD 2 0)) % 2 ^ 16 ∧
        (d.ks.result.map Prod.fst) = some 0 ∧ d.get pgKEYS KEYS.INSTALLS = (s.dev.get pgKEYS KEYS.INSTALLS + 1) % 2 ^ 48 ∧ d.raised pgKEYS 0) ∧
  (∀ (s : State), s.clocked → s.dev.ksWaits 9 1 → s.dev.mbBody.headD 0 = 1 ∨ s.dev.mbBody.headD 0 = 2 →
      Yields (.debugChallenge) s fun d => d.ks.challenge = some (s.dev.free % 2 ^ 256, s.dev.mbBody.headD 0) ∧
        d.get pgKSMB KSMB.DEBUG_CHAL_VALID = 1 ∧ d.ks.result = some (0, beBytes 32 (s.dev.free % 2 ^ 256))) ∧
  (∀ (s : State), s.clocked → s.dev.ksWaits 10 5261 → s.dev.ks.challenge = none →
      Yields (.debugUnlock) s fun d => Frame [] (s.dev.ksUpd fun k => { k with result := some (4, []) }) d) ∧
  (∀ (v : Nat) (s : State), s.clocked → s.dev.ksWaits 10 5261 → s.dev.ks.challenge = some (v, 2) →
      Yields (.debugUnlock) s fun d => d.ks.challenge = none ∧ d.get pgKSMB KSMB.DEBUG_CHAL_VALID = 0 ∧
        (s.dev.get pgKSMB KSMB.LIFE = 2 → shakeN (s.dev.mbBody.take 1952) 32 = Config.rmaKeyDigest →
          Config.mldsaVerify (s.dev.mbBody.take 1952) [] (ascii "ZML-DBG-1" ++ beBytes 32 v ++ [2] ++ beBytes 32 idDigest) (s.dev.mbBody.drop 1952) = true →
          d.get pgKSMB KSMB.STATUS_DEBUG = 1 ∧ d.get pgKSMB KSMB.DEBUG_SCOPE = max (s.dev.get pgKSMB KSMB.DEBUG_SCOPE) 2 % 2 ^ KSMB.DEBUG_SCOPE.width ∧
          d.ks.result = some (0, []) ∧ d.ks.sessions = [] ∧ d.ks.opened = true) ∧
        (s.dev.get pgKSMB KSMB.LIFE ≠ 2 → d.get pgKSMB KSMB.STATUS_DEBUG = 0 ∧ d.ks.result = some (4, []) ∧ d.enc = s.dev.enc)) ∧
  (∀ (v : Nat) (s : State), s.clocked → s.dev.ksWaits 10 5261 → s.dev.ks.challenge = some (v, 1) →
      Yields (.debugUnlock) s fun d => d.ks.challenge = none ∧ d.get pgKSMB KSMB.DEBUG_CHAL_VALID = 0 ∧
        (s.dev.ks.owner ≠ 0 → shakeN (s.dev.mbBody.take 1952) 32 = s.dev.ks.owner →
          Config.mldsaVerify (s.dev.mbBody.take 1952) [] (ascii "ZML-DBG-1" ++ beBytes 32 v ++ [1] ++ beBytes 32 idDigest) (s.dev.mbBody.drop 1952) = true →
          d.get pgKSMB KSMB.STATUS_DEBUG = 1 ∧ d.get pgKSMB KSMB.DEBUG_SCOPE = max (s.dev.get pgKSMB KSMB.DEBUG_SCOPE) 1 % 2 ^ KSMB.DEBUG_SCOPE.width ∧ d.ks.result = some (0, []) ∧ d.ks.sessions = [] ∧ d.ks.opened = true) ∧
        (shakeN (s.dev.mbBody.take 1952) 32 ≠ s.dev.ks.owner → d.get pgKSMB KSMB.STATUS_DEBUG = 0 ∧ d.ks.result = some (4, []) ∧ d.enc = s.dev.enc)) ∧
  (∀ (s : State), s.clocked →
      Yields (.challengeExpiry) s fun d => d.get pgKSMB KSMB.DEBUG_CHAL_VALID = 0 ∧
        Frame [KSMB.DEBUG_CHAL_VALID.key pgKSMB] (s.dev.ksUpd fun k => { k with challenge := none }) d)

/-- KA_START with the SCC up and no exchange begins one as initiator and queues a KA_INIT; a KA_INIT is answered where its signature verifies and its key is anchored, and fails SIG where it does not; the awaited KA_RESP that does not verify fails SIG; the awaited KA_FIN that opens with the confirm value establishes the session; a KA_ABORT of the running session ends it with its reason; the sixth unanswered send and a late KA_FIN end it with TIMEOUT; a control record without a session fails. -/
def Obligations.KeyAgreement : Prop :=
  (∀ (s : State), s.clocked → s.dev.ksWaits 7 1 → s.dev.mbBody.headD 0 = 0 → s.dev.sccUp 0 = true →
      AMap.find? s.dev.ks.exch 0 = none →
      Yields (.kaStart) s fun d => d.get pgKSMB (KSMB.KA_STATE.at 0) = 1 ∧ d.ks.result = some (0, []) ∧
        (d.scc.get 0).tx1.length = (s.dev.scc.get 0).tx1.length + 1 ∧
        ((AMap.find? d.ks.exch 0).map fun x => (x.initiator, x.session, x.sends)) = some (true, (s.dev.get pgKSMB (KSMB.KA_SESSION.at 0) + 1) % 65536, 1)) ∧
  (∀ (p : Port) (msg : List (BitVec 8)) (s : State), s.clocked → msg.length = 6481 → msg.headD 0 = 0x40 → msg.getD 1 0 = 1 →
      s.dev.sccUp p = true → AMap.find? s.dev.ks.exch p.val = none →
      Yields (.kaInit p msg) s fun d =>
        (Config.mldsaVerify (part (bytesOf msg) 1220 1952) (ascii "ZML-KA-1") ((bytesOf msg).take 3172) ((bytesOf msg).drop 3172) = false →
          d.get pgKSMB (KSMB.KA_STATE.at p.val) = 5 ∧ d.get pgKSMB (KSMB.KA_REASON.at p.val) = 4 ∧ d.raised pgKSMB 5 ∧ AMap.find? d.ks.exch p.val = none) ∧
        (Config.mldsaVerify (part (bytesOf msg) 1220 1952) (ascii "ZML-KA-1") ((bytesOf msg).take 3172) ((bytesOf msg).drop 3172) = true →
          s.dev.anchored p (part (bytesOf msg) 1220 1952) = true → d.get pgKSMB (KSMB.KA_STATE.at p.val) = 2 ∧
          (d.scc.get p).tx1.length = (s.dev.scc.get p).tx1.length + 1 ∧ ((AMap.find? d.ks.exch p.val).map (·.initiator)) = some false)) ∧
  (∀ (p : Port) (msg : List (BitVec 8)) (x : KsExch) (s : State), s.clocked → AMap.find? s.dev.ks.exch p.val = some x →
      msg.length = 6385 → msg.headD 0 = 0x41 → msg.getD 1 0 = 1 → x.initiator = true → x.phase = 1 →
      beVal (part (bytesOf msg) 2 2) = x.session →
      Yields (.kaResp p msg) s fun d =>
        (Config.mldsaVerify (part (bytesOf msg) 1124 1952) (ascii "ZML-KA-1") (shakeB x.initMsg 64 ++ (bytesOf msg).take 3076)
            ((bytesOf msg).drop 3076) = false →
          d.get pgKSMB (KSMB.KA_STATE.at p.val) = 5 ∧ d.get pgKSMB (KSMB.KA_REASON.at p.val) = 4 ∧ d.raised pgKSMB 5) ∧
        (Config.mldsaVerify (part (bytesOf msg) 1124 1952) (ascii "ZML-KA-1") (shakeB x.initMsg 64 ++ (bytesOf msg).take 3076)
            ((bytesOf msg).drop 3076) = true → s.dev.anchored p (part (bytesOf msg) 1124 1952) = true →
          d.get pgKSMB (KSMB.KA_STATE.at p.val) = 3 ∧ (d.scc.get p).tx1.length = (s.dev.scc.get p).tx1.length + 1)) ∧
  (∀ (p : Port) (msg : List (BitVec 8)) (agreed : Bool) (x : KsExch) (s : State), s.clocked → AMap.find? s.dev.ks.exch p.val = some x →
      msg.length = 65 → msg.headD 0 = 0x42 → msg.getD 1 0 = 1 → x.respMsg ≠ [] → x.phase = 2 ∨ x.phase = 3 →
      Yields (.kaFin p msg agreed) s fun d =>
        (openRecord (ctlKey x.secret (b2n x.initiator)) 0 agreed ((bytesOf msg).drop 1) = none →
          d.get pgKSMB (KSMB.KA_STATE.at p.val) = 5 ∧ d.get pgKSMB (KSMB.KA_REASON.at p.val) = 4) ∧
        (∀ ctr ∈ (openRecord (ctlKey x.secret (b2n x.initiator)) 0 agreed ((bytesOf msg).drop 1)).map Prod.fst,
          (openRecord (ctlKey x.secret (b2n x.initiator)) 0 agreed ((bytesOf msg).drop 1)).map Prod.snd =
            some (confirmValue x.secret (b2n x.initiator)) →
          d.get pgKSMB (KSMB.KA_STATE.at p.val) = 4 ∧ AMap.find? d.ks.sessions p.val = some ⟨x.secret, x.initiator, 1, ctr, []⟩ ∧
          d.get pgKSMB (KSMB.KA_SESSION.at p.val) = (s.dev.get pgKSMB (KSMB.KA_SESSION.at p.val) + 1) % 65536 ∧ d.raised pgKSMB 4)) ∧
  (∀ (p : Port) (reason : BitVec 8) (session : BitVec 16) (x : KsExch) (s : State), s.clocked →
      AMap.find? s.dev.ks.exch p.val = some x → x.session = session.toNat →
      Yields (.kaAbort p reason session) s fun d => d.get pgKSMB (KSMB.KA_STATE.at p.val) = 5 ∧
        d.get pgKSMB (KSMB.KA_REASON.at p.val) = reason.toNat ∧ AMap.find? d.ks.exch p.val = none ∧ d.raised pgKSMB 5 ∧
        d.ks.sessions = s.dev.ks.sessions ∧ d.scc = s.dev.scc) ∧
  (∀ (p : Port) (x : KsExch) (s : State), s.clocked → AMap.find? s.dev.ks.exch p.val = some x → x.initiator = true → x.phase = 1 →
      Yields (.kaInitResend p) s fun d =>
        (x.sends < 5 → AMap.find? d.ks.exch p.val = some { x with sends := x.sends + 1 } ∧
          (d.scc.get p).tx1 = (s.dev.scc.get p).tx1 ++ [⟨x.initMsg, false, 0⟩]) ∧
        (5 ≤ x.sends → d.get pgKSMB (KSMB.KA_STATE.at p.val) = 5 ∧ d.get pgKSMB (KSMB.KA_REASON.at p.val) = 11)) ∧
  (∀ (p : Port) (x : KsExch) (s : State), s.clocked → AMap.find? s.dev.ks.exch p.val = some x → x.phase = 2 ∨ x.phase = 3 →
      Yields (.kaFinTimeout p) s fun d => d.get pgKSMB (KSMB.KA_STATE.at p.val) = 5 ∧ d.get pgKSMB (KSMB.KA_REASON.at p.val) = 11 ∧
        AMap.find? d.ks.exch p.val = none ∧ d.get pgKSMB KSMB.KA_FAIL = (s.dev.get pgKSMB KSMB.KA_FAIL + 1) % 2 ^ 48) ∧
  (∀ (p : Port) (rec : List (BitVec 8)) (agreed : Bool) (x : KsSession) (s : State), s.clocked → AMap.find? s.dev.ks.sessions p.val = some x →
      Yields (.controlRecord p rec agreed) s fun d =>
        (openRecord (ctlKey x.secret (b2n x.initiator)) x.rxLast agreed (bytesOf rec) = none →
          d.get pgENC ENC.CTL_FAILS = (s.dev.get pgENC ENC.CTL_FAILS + 1) % 2 ^ 48 ∧ d.raised pgENC 14 ∧ Frame [ENC.CTL_FAILS.key pgENC] s.dev d) ∧
        (∀ r ∈ openRecord (ctlKey x.secret (b2n x.initiator)) x.rxLast agreed (bytesOf rec),
          AMap.find? d.ks.sessions p.val = some { x with rxLast := r.1 } ∧ Output.ctlPlain p ((bytesOf rec).headD 0) r.2 ∈ d.out))

/-- A tamper warning sets its WARN bit, lasts until its end is told, aborts a running signature or key operation with TAMPER and is counted, keys and sessions staying; a zeroise erases every slot and session and latches TAMPER with its bit; the acknowledge and the absence of the condition, in either order, end it; PUSH_DONE in WAIT_PUSH leads to VERIFY, in another state to nothing. -/
def Obligations.TamperResponse : Prop :=
  (∀ (monitor : Fin 3) (s : State), s.clocked →
      Yields (.tamper monitor false) s fun d => Frame [] (s.dev.ksUpd fun k => { k with warn := k.warn.filter (· != monitor.val) }) d) ∧
  (∀ (monitor : Fin 3) (s : State), s.clocked →
      Yields (.tamper monitor true) s fun d => monitor.val ∈ d.ks.warn ∧ (s.dev.get pgKSMB KSMB.MB_STAT_BUSY = 1 →
        s.dev.get pgKSMB KSMB.REQ_OPCODE ∈ keyOps → (d.ks.result.map Prod.fst) = some 8) ∧ bitOf (d.get pgKSMB KSMB.TAMPER_WARN) monitor.val = true ∧ d.raised pgKSMB 6 ∧
        d.get pgKSMB KSMB.TAMPER_EVTS = (s.dev.get pgKSMB KSMB.TAMPER_EVTS + 1) % 2 ^ 48 ∧
        d.ks.sessions = s.dev.ks.sessions ∧ d.enc = s.dev.enc) ∧
  (∀ (monitor : Fin 3) (s : State), s.clocked →
      Yields (.zeroise monitor) s fun d => (∀ k : Fin 64, d.slotLoaded k.val = false) ∧ d.ks.sessions = [] ∧
        d.get pgKSMB KSMB.STATUS_TAMPER = 1 ∧ bitOf (d.get pgKSMB KSMB.TAMPER_ZERO) monitor.val = true ∧ d.raised pgKEYS 7) ∧
  (∀ (w : Word) (s : State), s.clocked → s.dev.get pgKSMB KSMB.STATUS_TAMPER = 1 → s.dev.ks.absent = true → w.getLsbD 1 = false →
      Yields (.tamperAck w) s fun d => d.get pgKSMB KSMB.STATUS_TAMPER = 0 ∧ d.get pgKSMB KSMB.TAMPER_ZERO = 0 ∧
        Frame [KSMB.STATUS_TAMPER.key pgKSMB, KSMB.TAMPER_ZERO.key pgKSMB] (s.dev.ksUpd fun k => { k with acked := false, absent := false }) d) ∧
  (∀ (w : Word) (s : State), s.clocked → s.dev.get pgKSMB KSMB.STATUS_TAMPER = 1 → s.dev.ks.absent = false → w.getLsbD 1 = false →
      Yields (.tamperAck w) s fun d => Frame [] (s.dev.ksUpd fun k => { k with acked := true }) d) ∧
  (∀ (s : State), s.clocked → s.dev.get pgKSMB KSMB.STATUS_TAMPER = 1 → s.dev.ks.acked = true →
      Yields (.tamperAbsent) s fun d => d.get pgKSMB KSMB.STATUS_TAMPER = 0 ∧ d.get pgKSMB KSMB.TAMPER_ZERO = 0 ∧
        Frame [KSMB.STATUS_TAMPER.key pgKSMB, KSMB.TAMPER_ZERO.key pgKSMB] (s.dev.ksUpd fun k => { k with acked := false, absent := false }) d) ∧
  (∀ (s : State), s.clocked → s.dev.get pgKSMB KSMB.STATUS_TAMPER = 1 → s.dev.ks.acked = false →
      Yields (.tamperAbsent) s fun d => Frame [] (s.dev.ksUpd fun k => { k with absent := true }) d) ∧
  (∀ (w : Word) (s : State), s.clocked → s.dev.get pgKSMB KSMB.BOOT_STATE = 4 → w.getLsbD 0 = false →
      Yields (.pushDone w) s fun d => d.get pgKSMB KSMB.BOOT_STATE = 5 ∧ Frame [KSMB.BOOT_STATE.key pgKSMB] (s.dev.ksUpd fun k => { k with image := none }) d) ∧
  (∀ (w : Word) (s : State), s.clocked → s.dev.get pgKSMB KSMB.BOOT_STATE ≠ 4 → w.getLsbD 0 = false →
      Yields (.pushDone w) s fun d => Frame [] s.dev d)

/-- A qualified reference that loses its activity, or whose sub-window lies beyond the hard limit, or whose second window in a row lies beyond the soft limit, is disqualified with its reason, counted and reported, and one that is neither qualified nor selected just loses its activity; a sub-window within the hard limit changes no qualification; the tenth good window in a row qualifies a reference that owes no wait, and begins the wait of one that owes it where REVERT and WTR_MIN ask for one; the wait-to-restore ends by its expiry or by WTR_CLR; HIST_CLR empties the holdover history; an output drives nothing while it is off and its frequency, within its limits, while it is on and never squelched, one pulse a second in 1PPS mode, and a squelched one nothing in FREE. -/
def Obligations.ReferenceQualification : Prop :=
  (∀ (r : Fin 8) (s : State), s.clocked → (4 ≤ r.val → s.dev.refActive r.val = false) → s.dev.get pgCLK (CLK.QST.at r.val) = 5 →
      s.dev.get pgCLK (CLK.REF_CFG_PRIO.at r.val) ≠ 0 →
      Yields (.refLos r) s fun d => d.get pgCLK (CLK.QST.at r.val) = 1 ∧ d.get pgCLK (CLK.REF_STAT_REASON.at r.val) = 1 ∧
        d.get pgCLK CLK.DISQ = (s.dev.get pgCLK CLK.DISQ + 1) % 2 ^ 48 ∧ d.raised pgCLK r.val ∧ d.refActive r.val = false) ∧
  (∀ (r : Fin 8) (s : State), s.clocked → (4 ≤ r.val → s.dev.refActive r.val = false) → s.dev.get pgCLK (CLK.QST.at r.val) ≠ 5 →
      s.dev.clkSel ≠ some r.val → s.dev.get pgCLK (CLK.REF_CFG_PRIO.at r.val) ≠ 0 →
      Yields (.refLos r) s fun d => d.get pgCLK (CLK.QST.at r.val) = 1 ∧ d.get pgCLK CLK.DISQ = s.dev.get pgCLK CLK.DISQ ∧ d.refActive r.val = false) ∧
  (∀ (r : Fin 8) (s : State), s.clocked → 4 ≤ r.val → s.dev.refActive r.val = true →
      Yields (.refLos r) s fun d => Frame [] s.dev d) ∧
  (∀ (r : Fin 8) (freqs : List (Option (BitVec 64 × BitVec 64))) (dpll : BitVec 32) (phase : BitVec 16) (f : BitVec 64 × BitVec 64) (o : Int) (s : State), s.clocked →
      (4 ≤ r.val → s.dev.refActive r.val = true) → freqs.getD r none = some f → f.2 ≠ 0 →
      (s.dev.refOffset r.val (f.1.toNat, f.2.toNat)).1 = o * (s.dev.refOffset r.val (f.1.toNat, f.2.toNat)).2 → o.natAbs ≤ s.dev.softLim → s.dev.get pgCLK (CLK.QST.at r.val) = 3 →
      s.dev.get pgCLK (CLK.GOOD.at r.val) = 9 → s.dev.get pgCLK (CLK.REF_CFG_PRIO.at r.val) ≠ 0 →
      s.dev.get pgCLK CLK.CTL_QLMODE = 0 → s.dev.get pgCLK (CLK.CAND.at r.val) = 0 →
      Yields (.monitorWindow freqs dpll phase) s fun d => d.get pgCLK (CLK.REF_FREQ_FREQ.at r.val) = sTo 32 o ∧
        (s.dev.get pgCLK (CLK.OWES.at r.val) = 0 → d.get pgCLK (CLK.QST.at r.val) = 5 ∧ d.refCand r.val = true ∧ d.raised pgCLK (8 + r.val)) ∧
        (s.dev.get pgCLK (CLK.OWES.at r.val) ≠ 0 → s.dev.get pgCLK CLK.CTL_REVERT ≠ 0 → s.dev.get pgCLK CLK.WTR_MIN ≠ 0 →
          d.get pgCLK (CLK.QST.at r.val) = 4 ∧ d.get pgCLK (CLK.WAIT.at r.val) = 60 * min 12 (s.dev.get pgCLK CLK.WTR_MIN))) ∧
  (∀ (r : Fin 8) (freqs : List (Option (BitVec 64 × BitVec 64))) (dpll : BitVec 32) (phase : BitVec 16) (f : BitVec 64 × BitVec 64) (o : Int) (s : State), s.clocked →
      (4 ≤ r.val → s.dev.refActive r.val = true) → freqs.getD r none = some f → f.2 ≠ 0 →
      (s.dev.refOffset r.val (f.1.toNat, f.2.toNat)).1 = o * (s.dev.refOffset r.val (f.1.toNat, f.2.toNat)).2 → s.dev.softLim < o.natAbs → s.dev.get pgCLK (CLK.QST.at r.val) = 5 →
      s.dev.get pgCLK (CLK.SOFT1.at r.val) = 1 → s.dev.get pgCLK (CLK.REF_CFG_PRIO.at r.val) ≠ 0 →
      Yields (.monitorWindow freqs dpll phase) s fun d => d.get pgCLK (CLK.REF_FREQ_FREQ.at r.val) = sTo 32 o ∧
        d.get pgCLK (CLK.QST.at r.val) = 2 ∧ d.get pgCLK (CLK.REF_STAT_REASON.at r.val) = 3 ∧ d.raised pgCLK r.val) ∧
  (∀ (r : Fin 8) (f : BitVec 64 × BitVec 64) (s : State), s.clocked → f.2 ≠ 0 →
      s.dev.hardLim * (s.dev.refOffset r.val (f.1.toNat, f.2.toNat)).2.natAbs < (s.dev.refOffset r.val (f.1.toNat, f.2.toNat)).1.natAbs →
      s.dev.get pgCLK (CLK.QST.at r.val) = 5 → s.dev.get pgCLK (CLK.REF_CFG_PRIO.at r.val) ≠ 0 →
      Yields (.freqSubwindow r f) s fun d => d.get pgCLK (CLK.QST.at r.val) = 2 ∧ d.get pgCLK (CLK.REF_STAT_REASON.at r.val) = 2 ∧
        d.get pgCLK CLK.DISQ = (s.dev.get pgCLK CLK.DISQ + 1) % 2 ^ 48 ∧ d.raised pgCLK r.val ∧ d.get pgCLK (CLK.HARD_OK.at r.val) = 0) ∧
  (∀ (r : Fin 8) (f : BitVec 64 × BitVec 64) (s : State), s.clocked → f.2 ≠ 0 →
      (s.dev.refOffset r.val (f.1.toNat, f.2.toNat)).1.natAbs ≤ s.dev.hardLim * (s.dev.refOffset r.val (f.1.toNat, f.2.toNat)).2.natAbs →
      Yields (.freqSubwindow r f) s fun d => d.get pgCLK (CLK.HARD_OK.at r.val) = 1 ∧
        d.get pgCLK (CLK.QST.at r.val) = s.dev.get pgCLK (CLK.QST.at r.val) ∧ d.get pgCLK CLK.DISQ = s.dev.get pgCLK CLK.DISQ) ∧
  (∀ (r : Fin 8) (s : State), s.clocked → s.dev.get pgCLK (CLK.QST.at r.val) = 4 →
      Yields (.wtrExpiry r) s fun d => d.get pgCLK (CLK.QST.at r.val) = 5 ∧ d.get pgCLK (CLK.WAIT.at r.val) = 0 ∧
        d.get pgCLK (CLK.OWES.at r.val) = 0) ∧
  (∀ (r : Fin 8) (w : Word) (s : State), s.clocked → w.getLsbD r.val = true → s.dev.get pgCLK (CLK.QST.at r.val) = 4 →
      Yields (.wtrClr w) s fun d => d.get pgCLK (CLK.QST.at r.val) = 5 ∧ d.get pgCLK (CLK.WAIT.at r.val) = 0) ∧
  (∀ (w : Word) (s : State), s.clocked → Yields (.histClr w) s fun d => d.clkHist = []) ∧
  (∀ (n : Fin 4) (d : Dev), d.get pgCLK (CLK.OUT_EN.at n.val) = 0 → d.clkOuts.get pgCLK (CLK.DRIVE.at n.val) = 0) ∧
  (∀ (n : Fin 4) (d : Dev), d.get pgCLK (CLK.OUT_SQUELCH.at n.val) ≠ 0 → d.dpll = 0 → d.clkOuts.get pgCLK (CLK.DRIVE.at n.val) = 0) ∧
  (∀ (n : Fin 4) (d : Dev), d.get pgCLK (CLK.OUT_EN.at n.val) = 1 → d.get pgCLK (CLK.OUT_SQUELCH.at n.val) = 0 →
      d.clkOuts.get pgCLK (CLK.DRIVE.at n.val) = (if n = 3 ∧ d.get pgCLK (CLK.OUT_PPS.at 3) ≠ 0 then 1
        else clampN 8000 156250000 (d.get pgCLK (CLK.OUT_HZ.at n.val))))

/-- A write of CLK_CTL or of a reference's configuration stores its fields; a valid ESMC PDU on an owned lane, or a QL_ANNOUNCE with the SCC up, gives the reference its codes and rank, an invalid PDU only counts, and one on another lane is not read; QL messages that fail to come give rank 0 with QL_FAIL; the dwell of an ACQ stage leads to the next stage and after the last to LOCK, and a loss of lock to ACQ at stage 0, each doing nothing in another state. -/
def Obligations.ClockSelection : Prop :=
  (∀ (w : Word) (s : State), s.clocked → Yields (.clkCtlWrite none w) s fun d =>
        ∀ f ∈ [CLK.CTL_QLMODE, CLK.CTL_REVERT, CLK.CTL_FORCE_EN, CLK.CTL_FORCE_REF, CLK.CTL_BW_FINAL, CLK.CTL_OWN_QL], d.get pgCLK f = f.ofWord w.toNat) ∧
  (∀ (r : Fin 8) (w : Word) (s : State), s.clocked → Yields (.clkCtlWrite (some r) w) s fun d =>
        (∀ f ∈ [CLK.REF_CFG_PRIO.at r.val, CLK.REF_CFG_QL_SRC.at r.val, CLK.REF_CFG_QL_FIX.at r.val, CLK.REF_CFG_LANE.at r.val],
          d.get pgCLK f = f.ofWord w.toNat) ∧
        ((CLK.REF_CFG_PRIO.at r.val).ofWord w.toNat = 0 → s.dev.get pgCLK (CLK.REF_CFG_PRIO.at r.val) ≠ 0 → d.get pgCLK (CLK.QST.at r.val) = 0)) ∧
  (∀ (h : Fin 2) (m : EsmcPdu) (s : State), s.clocked → s.dev.qlSrc (6 + h.val) = 1 → s.dev.esmcOwned (6 + h.val) = true → esmcOk m = true →
      Yields (.esmcPdu h m) s fun d => d.get pgCLK CLK.ESMC_RX = (s.dev.get pgCLK CLK.ESMC_RX + 1) % 2 ^ 48 ∧
        d.get pgCLK (CLK.REF_STAT_SSM.at (6 + h.val)) = m.last.toNat % 16 ∧
        d.get pgCLK (CLK.REF_STAT_QL.at (6 + h.val)) = qlRank (m.last.toNat % 16) (esmcEssm m)) ∧
  (∀ (h : Fin 2) (m : EsmcPdu) (s : State), s.clocked → s.dev.qlSrc (6 + h.val) = 1 → s.dev.esmcOwned (6 + h.val) = true → esmcOk m = false →
      Yields (.esmcPdu h m) s fun d => d.get pgCLK CLK.ESMC_BAD = (s.dev.get pgCLK CLK.ESMC_BAD + 1) % 2 ^ 48 ∧ Frame [CLK.ESMC_BAD.key pgCLK] s.dev d) ∧
  (∀ (h : Fin 2) (m : EsmcPdu) (s : State), s.clocked → s.dev.qlSrc (6 + h.val) ≠ 1 ∨ s.dev.esmcOwned (6 + h.val) = false →
      Yields (.esmcPdu h m) s fun d => Frame [] s.dev d) ∧
  (∀ (r : Fin 8) (s : State), s.clocked → s.dev.qlSrc r.val = 1 ∨ (s.dev.qlSrc r.val = 2 ∧ 16 ≤ s.dev.get pgCLK (CLK.QL_MISS.at r.val)) →
      Yields (.esmcTimeout r) s fun d => d.get pgCLK (CLK.REF_STAT_QL_FAIL.at r.val) = 1 ∧ d.get pgCLK (CLK.REF_STAT_QL.at r.val) = 0 ∧
        (s.dev.get pgCLK (CLK.REF_STAT_QL_FAIL.at r.val) = 0 → d.raised pgCLK 40)) ∧
  (∀ (p : Port) (ssm : BitVec 4) (essm : BitVec 8) (s : State), s.clocked → s.dev.qlSrc (4 + p.val) = 2 → s.dev.get (pgSCC p) SCC.STAT_UP = 1 →
      Yields (.qlAnnounce p ssm essm) s fun d => d.get pgCLK (CLK.QL_SEEN.at (4 + p.val)) = 1 ∧ d.get pgCLK (CLK.QL_MISS.at (4 + p.val)) = 0 ∧ d.get pgCLK CLK.QLANN_RX = (s.dev.get pgCLK CLK.QLANN_RX + 1) % 2 ^ 48 ∧
        d.get pgCLK (CLK.REF_STAT_SSM.at (4 + p.val)) = ssm.toNat ∧ d.get pgCLK (CLK.REF_STAT_ESSM.at (4 + p.val)) = essm.toNat ∧
        d.get pgCLK (CLK.REF_STAT_QL.at (4 + p.val)) = qlRank ssm.toNat essm.toNat) ∧
  (∀ (phase : BitVec 16) (s : State), s.clocked → s.dev.dpll = 1 →
      Yields (.dpllStageDone phase) s fun d => d.get pgCLK CLK.PHASE_ERR_ERR = phase.toNat ∧
        (s.dev.get pgCLK CLK.DPLL_STAT_STAGE + 1 < s.dev.stages.length →
          d.dpll = 1 ∧ d.get pgCLK CLK.DPLL_STAT_STAGE = s.dev.get pgCLK CLK.DPLL_STAT_STAGE + 1) ∧
        (s.dev.stages.length ≤ s.dev.get pgCLK CLK.DPLL_STAT_STAGE + 1 → d.dpll = 2 ∧ d.raised pgCLK 36)) ∧
  (∀ (phase : BitVec 16) (s : State), s.clocked → s.dev.dpll = 2 →
      Yields (.dpllLockLoss phase) s fun d => d.dpll = 1 ∧ d.get pgCLK CLK.DPLL_STAT_STAGE = 0 ∧ d.raised pgCLK 35 ∧
        d.get pgCLK CLK.PHASE_ERR_ERR = phase.toNat) ∧
  (∀ (phase : BitVec 16) (s : State), s.clocked → s.dev.dpll ≠ 1 →
      Yields (.dpllStageDone phase) s fun d => Frame [] s.dev d) ∧
  (∀ (phase : BitVec 16) (s : State), s.clocked → s.dev.dpll ≠ 2 →
      Yields (.dpllLockLoss phase) s fun d => Frame [] s.dev d)

/-- A step adds the step registers to every time base named and counts, the others staying; a snapshot copies every time base at one instant, after steps commanded with it; a TIME_TX or TIME_RX of a span among the last 64 is kept for its set, and the one that completes a set not yet written gives the set's times and path delay, where that is a whole number of units, with its event; another one does nothing; 1PPS follows a time base over its second and its pulse ends; an edge on REFIN3 captures a time base in 1PPS mode, and nothing in another; a recognised PTP message puts its timestamp, with messageType, domain, error mark and sequence number, into the next place of its ring, or is counted where the ring is full, and a frame without one does nothing. -/
def Obligations.TimeBases : Prop :=
  (∀ (n : Fin 4) (w : Word) (s : State), s.clocked →
      Yields (.tbStep w) s fun d =>
        (w.getLsbD n.val = true → FMap.get d.tb n.val = (((FMap.get s.dev.tb n.val : Int) + s.dev.tbStepVal n.val * tbParts) % ((m80 * tbParts : Nat) : Int)).toNat ∧
          d.get pgTB (TB.STEPS.at n.val) = (s.dev.get pgTB (TB.STEPS.at n.val) + 1) % 2 ^ 48 ∧ d.raised pgTB n.val) ∧
        (w.getLsbD n.val = false → FMap.get d.tb n.val = FMap.get s.dev.tb n.val ∧
          d.get pgTB (TB.STEPS.at n.val) = s.dev.get pgTB (TB.STEPS.at n.val))) ∧
  (∀ (n : Fin 4) (w : Word) (s : State), s.clocked →
      Yields (.tbSnap w) s fun d => (w.getLsbD n.val = false → FMap.get d.tb n.val = FMap.get s.dev.tb n.val) ∧
        d.get pgTB (TB.SNAP_NS_LO.at n.val) = d.tbNs n.val % 2 ^ 32 ∧
        d.get pgTB (TB.SNAP_NS_HI.at n.val) = d.tbNs n.val / 2 ^ 32 % 2 ^ 32 ∧ d.get pgTB (TB.SNAP_FRAC.at n.val) = d.tbVal n.val % 2 ^ 16) ∧
  (∀ (p : Port) (span : BitVec 8) (ns : BitVec 64) (frac : BitVec 16) (k : Nat) (s : State), s.clocked → s.dev.tlOn p = true → s.dev.rxValid p = true →
      spanOfByte (s.dev.rxSpan p) span.toNat = some k → AMap.find? (s.dev.link.get p).t1 k = none →
      Yields (.timeTx p span ns frac) s fun d => AMap.find? (d.link.get p).t3 k = some (ns.toNat * 2 ^ 16 + frac.toNat) ∧
        Frame [] (s.dev.tlUpd p fun l => { l with t3 := AMap.insert l.t3 k (ns.toNat * 2 ^ 16 + frac.toNat) }) d) ∧
  (∀ (p : Port) (span : BitVec 8) (ns : BitVec 64) (frac : BitVec 16) (k t1 t2 t4 : Nat) (s : State), s.clocked → s.dev.tlOn p = true → s.dev.rxValid p = true →
      spanOfByte (s.dev.rxSpan p) span.toNat = some k → k ∉ (s.dev.link.get p).sets → AMap.find? (s.dev.link.get p).t1 k = some t1 → AMap.find? (s.dev.link.get p).t2 k = some t2 → AMap.find? (s.dev.link.get p).t4 k = some t4 →
      Yields (.timeTx p span ns frac) s fun d => d.get pgTB (TB.SCC_SET_SPAN.at p.val) = k % 2 ^ TB.SCC_SET_SPAN.width ∧
        d.get pgTB (TB.SCC_SET_VALID.at p.val) = 1 ∧ d.raised pgTB (4 + p.val) ∧
        d.get pgTB (TB.SCC_T1_LO.at p.val) = t1 / 2 ^ 16 % 2 ^ 32 ∧ d.get pgTB (TB.SCC_T2_LO.at p.val) = t2 / 2 ^ 16 % 2 ^ 32 ∧
        d.get pgTB (TB.SCC_T3_LO.at p.val) = (ns.toNat * 2 ^ 16 + frac.toNat) / 2 ^ 16 % 2 ^ 32 ∧ d.get pgTB (TB.SCC_T4_LO.at p.val) = t4 / 2 ^ 16 % 2 ^ 32 ∧
        (let out := sOf 80 ((t2 + m80 - t1) % m80); let back := sOf 80 ((t4 + m80 - (ns.toNat * 2 ^ 16 + frac.toNat)) % m80);
         (out + back) % 2 = 0 → d.get pgTB (TB.SCC_DELAY_NS_V.at p.val) = sTo 48 ((out + back) / 2) / 2 ^ 16 % 2 ^ 32)) ∧
  (∀ (p : Port) (span : BitVec 8) (ns : BitVec 64) (frac : BitVec 16) (s : State), s.clocked → s.dev.tlOn p = false ∨ s.dev.rxValid p = false ∨ spanOfByte (s.dev.rxSpan p) span.toNat = none →
      Yields (.timeTx p span ns frac) s fun d => Frame [] s.dev d) ∧
  (∀ (p : Port) (span : BitVec 8) (ns : BitVec 64) (frac : BitVec 16) (k : Nat) (s : State), s.clocked → s.dev.tlOn p = true →
      spanOfByte (s.dev.txSpan p) span.toNat = some k → AMap.find? (s.dev.link.get p).t4 k = none →
      Yields (.timeRx p span ns frac) s fun d => AMap.find? (d.link.get p).t2 k = some (ns.toNat * 2 ^ 16 + frac.toNat) ∧
        Frame [] (s.dev.tlUpd p fun l => { l with t2 := AMap.insert l.t2 k (ns.toNat * 2 ^ 16 + frac.toNat) }) d) ∧
  (∀ (p : Port) (span : BitVec 8) (ns : BitVec 64) (frac : BitVec 16) (k t1 t3 t4 : Nat) (s : State), s.clocked → s.dev.tlOn p = true →
      spanOfByte (s.dev.txSpan p) span.toNat = some k → k ∉ (s.dev.link.get p).sets → AMap.find? (s.dev.link.get p).t1 k = some t1 → AMap.find? (s.dev.link.get p).t3 k = some t3 → AMap.find? (s.dev.link.get p).t4 k = some t4 →
      Yields (.timeRx p span ns frac) s fun d => d.get pgTB (TB.SCC_SET_SPAN.at p.val) = k % 2 ^ TB.SCC_SET_SPAN.width ∧
        d.get pgTB (TB.SCC_SET_VALID.at p.val) = 1 ∧ d.raised pgTB (4 + p.val) ∧
        d.get pgTB (TB.SCC_T1_LO.at p.val) = t1 / 2 ^ 16 % 2 ^ 32 ∧ d.get pgTB (TB.SCC_T2_LO.at p.val) = (ns.toNat * 2 ^ 16 + frac.toNat) / 2 ^ 16 % 2 ^ 32 ∧
        d.get pgTB (TB.SCC_T3_LO.at p.val) = t3 / 2 ^ 16 % 2 ^ 32 ∧ d.get pgTB (TB.SCC_T4_LO.at p.val) = t4 / 2 ^ 16 % 2 ^ 32 ∧
        (let out := sOf 80 (((ns.toNat * 2 ^ 16 + frac.toNat) + m80 - t1) % m80); let back := sOf 80 ((t4 + m80 - t3) % m80);
         (out + back) % 2 = 0 → d.get pgTB (TB.SCC_DELAY_NS_V.at p.val) = sTo 48 ((out + back) / 2) / 2 ^ 16 % 2 ^ 32)) ∧
  (∀ (p : Port) (span : BitVec 8) (ns : BitVec 64) (frac : BitVec 16) (s : State), s.clocked → s.dev.tlOn p = false ∨ spanOfByte (s.dev.txSpan p) span.toNat = none →
      Yields (.timeRx p span ns frac) s fun d => Frame [] s.dev d) ∧
  (∀ (s : State), s.clocked → s.dev.get pgCLK (CLK.DRIVE.at 3) = 1 → s.dev.get pgTB TB.SECOND = 1 →
      Yields (.ppsOut) s fun d => d.get pgTB TB.PPS_PIN = 1 ∧ d.get pgTB TB.SECOND = 0 ∧ Output.pps true ∈ d.out ∧
        Frame [TB.PPS_PIN.key pgTB, TB.SECOND.key pgTB] s.dev d) ∧
  (∀ (s : State), s.clocked → s.dev.get pgTB TB.PPS_PIN = 1 →
      Yields (.ppsPulseEnd) s fun d => d.get pgTB TB.PPS_PIN = 0 ∧ Output.pps false ∈ d.out ∧ Frame [TB.PPS_PIN.key pgTB] s.dev d) ∧
  (∀ (s : State), s.clocked → s.dev.get pgCLK (CLK.REFIN_FREQ_PPS.at 3) = 1 →
      Yields (.ppsIn) s fun d =>
        d.get pgTB TB.PPS_IN_NS_LO = s.dev.tbVal (s.dev.get pgTB TB.PPS_CTL_IN_SEL) / 2 ^ 16 % 2 ^ 32 ∧
        d.get pgTB TB.PPS_IN_NS_HI = s.dev.tbVal (s.dev.get pgTB TB.PPS_CTL_IN_SEL) / 2 ^ 48 % 2 ^ 32 ∧
        d.get pgTB TB.PPS_IN_FRAC = s.dev.tbVal (s.dev.get pgTB TB.PPS_CTL_IN_SEL) % 2 ^ 16 ∧
        d.get pgTB TB.PPS_IN_CNT = (s.dev.get pgTB TB.PPS_IN_CNT + 1) % 2 ^ 48 ∧ d.raised pgTB 6) ∧
  (∀ (s : State), s.clocked → s.dev.get pgCLK (CLK.REFIN_FREQ_PPS.at 3) = 0 → Yields (.ppsIn) s fun d => Frame [] s.dev d) ∧
  (∀ (c : Fin 32) (m : PtpMsg) (e i : Nat) (s : State), s.clocked → s.dev.ptpFind c (ptpBytes m) = some (e, i) → s.dev.get (pgCLI c) CLI.PTP_TB < 4 →
      (s.dev.get (pgCLI c) CLI.TS_WR_IN + 256 - s.dev.get (pgCLI c) CLI.TS_RD_IN) % 256 ≠ 32 →
      Yields (.ptpIngress c m) s fun d =>
        (let wr := s.dev.get (pgCLI c) CLI.TS_WR_IN; let tb := s.dev.get (pgCLI c) CLI.PTP_TB;
         let word := fun k => d.get (pgCLI c) (CLI.TS_IN_WORD.at (4 * (wr % 32) + k));
         let v := (((s.dev.tbVal tb : Int) - (m.lag.toNat : Int) + 4096 * sOf 16 (s.dev.get (pgCLI c) CLI.TS_OFS_IN)) % (m80 : Int)).toNat;
         d.get (pgCLI c) CLI.TS_WR_IN = (wr + 1) % 256 ∧ word 0 = v / 2 ^ 16 % 2 ^ 32 ∧ word 1 = v / 2 ^ 48 % 2 ^ 32 ∧
         bitsOf (word 2) 0 16 = v % 2 ^ 16 ∧ bitsOf (word 2) 16 4 = ptpKind (ptpBytes m) i ∧ bitsOf (word 2) 20 2 = tb ∧
         bitOf (word 2) 22 = m.err ∧ bitsOf (word 2) 24 8 = ptpDomain (ptpBytes m) i ∧ bitsOf (word 3) 0 16 = ptpSeq (ptpBytes m) i)) ∧
  (∀ (c : Fin 32) (m : PtpMsg) (e i : Nat) (s : State), s.clocked → s.dev.ptpFind c (ptpBytes m) = some (e, i) →
      (s.dev.get (pgCLI c) CLI.TS_WR_IN + 256 - s.dev.get (pgCLI c) CLI.TS_RD_IN) % 256 = 32 →
      Yields (.ptpIngress c m) s fun d => d.get (pgCLI c) CLI.TS_DROP = (s.dev.get (pgCLI c) CLI.TS_DROP + 1) % 2 ^ 48 ∧ d.raised (pgCLI c) 3 ∧
        Frame [CLI.TS_DROP.key (pgCLI c)] s.dev d) ∧
  (∀ (c : Fin 32) (m : PtpMsg) (s : State), s.clocked → s.dev.ptpFind c (ptpBytes m) = none →
      Yields (.ptpIngress c m) s fun d => Frame [] s.dev d) ∧
  (∀ (c : Fin 32) (m : PtpMsg) (e i : Nat) (s : State), s.clocked → s.dev.ptpFind c (ptpBytes m) = some (e, i) → s.dev.get (pgCLI c) CLI.PTP_TB < 4 →
      (s.dev.get (pgCLI c) CLI.TS_WR_EG + 256 - s.dev.get (pgCLI c) CLI.TS_RD_EG) % 256 ≠ 32 →
      Yields (.ptpEgress c m) s fun d =>
        (let wr := s.dev.get (pgCLI c) CLI.TS_WR_EG; let tb := s.dev.get (pgCLI c) CLI.PTP_TB;
         let word := fun k => d.get (pgCLI c) (CLI.TS_EG_WORD.at (4 * (wr % 32) + k));
         let v := (((s.dev.tbVal tb : Int) - (m.lag.toNat : Int) + 4096 * sOf 16 (s.dev.get (pgCLI c) CLI.TS_OFS_EG)) % (m80 : Int)).toNat;
         d.get (pgCLI c) CLI.TS_WR_EG = (wr + 1) % 256 ∧ word 0 = v / 2 ^ 16 % 2 ^ 32 ∧ word 1 = v / 2 ^ 48 % 2 ^ 32 ∧
         bitsOf (word 2) 0 16 = v % 2 ^ 16 ∧ bitsOf (word 2) 16 4 = ptpKind (ptpBytes m) i ∧ bitsOf (word 2) 20 2 = tb ∧
         bitOf (word 2) 22 = (s.dev.flag (pgCLI c) CLI.EG_ERR || s.dev.tlq.any fun x => x.onClient c && (x.cut || x.bad)) ∧ bitsOf (word 2) 24 8 = ptpDomain (ptpBytes m) i ∧ bitsOf (word 3) 0 16 = ptpSeq (ptpBytes m) i)) ∧
  (∀ (c : Fin 32) (m : PtpMsg) (e i : Nat) (s : State), s.clocked → s.dev.ptpFind c (ptpBytes m) = some (e, i) →
      (s.dev.get (pgCLI c) CLI.TS_WR_EG + 256 - s.dev.get (pgCLI c) CLI.TS_RD_EG) % 256 = 32 →
      Yields (.ptpEgress c m) s fun d => d.get (pgCLI c) CLI.TS_DROP = (s.dev.get (pgCLI c) CLI.TS_DROP + 1) % 2 ^ 48 ∧ d.raised (pgCLI c) 3 ∧
        Frame [CLI.TS_DROP.key (pgCLI c)] s.dev d) ∧
  (∀ (c : Fin 32) (m : PtpMsg) (s : State), s.clocked → s.dev.ptpFind c (ptpBytes m) = none →
      Yields (.ptpEgress c m) s fun d => Frame [] s.dev d)

/-- ENQ while no enqueue runs takes the enqueue registers and sets ENQ_BUSY, and while one runs is refused with BUSY; with no merge entry, the end of the copy of clean words answers OK with a new entry where the queue, length and destination allow it, and is refused otherwise; FLUSH_ALL drops every entry not being launched; a due entry that stands first launches, on a client outside a frame, and one later than the limit is dropped as LATE, one whose destination cannot take it with its event; one that is not due, or not first, waits; the end of a launch removes the entry with its record. -/
def Obligations.TimedLaunch : Prop :=
  (∀ (w : Word) (s : State), s.clocked → s.dev.get pgTLQ TLQ.STATUS_ENQ_BUSY = 0 →
      Yields (.enq w) s fun d => d.get pgTLQ TLQ.STATUS_ENQ_BUSY = 1 ∧ (w.getLsbD 1 = false → d.tlq = s.dev.tlq) ∧
        (d.tlqEnq.map fun r => (r.len, r.target, r.tag)) = some (s.dev.get pgTLQ TLQ.ENQ_LEN_LEN,
          s.dev.getLH pgTLQ TLQ.ENQ_TGT_LO_TGT TLQ.ENQ_TGT_HI_TGT, s.dev.get pgTLQ TLQ.ENQ_TAG_TAG) ∧
        (d.tlqEnq.map fun r => (r.addr, r.scc, r.num, r.onestep, r.tb)) = some (s.dev.get pgTLQ TLQ.ENQ_ADDR_ADDR / 8 * 8,
          s.dev.flag pgTLQ TLQ.ENQ_DEST_KIND, s.dev.get pgTLQ TLQ.ENQ_DEST_NUM, s.dev.flag pgTLQ TLQ.ENQ_DEST_ONESTEP,
          s.dev.get pgTLQ TLQ.ENQ_DEST_TB)) ∧
  (∀ (w : Word) (s : State), s.clocked → w.getLsbD 1 = false → s.dev.get pgTLQ TLQ.STATUS_ENQ_BUSY = 1 →
      Yields (.enq w) s fun d => d.get pgTLQ TLQ.ENQ_STAT_RESULT = 5 ∧ d.get pgTLQ TLQ.REFUSED = (s.dev.get pgTLQ TLQ.REFUSED + 1) % 2 ^ 48 ∧
        Frame [TLQ.ENQ_STAT_RESULT.key pgTLQ, TLQ.ENQ_STAT_TAG.key pgTLQ, TLQ.REFUSED.key pgTLQ] s.dev d) ∧
  (∀ (r : TlqReq) (s : State), s.clocked → s.dev.tlqEnq = some r → s.dev.tlqOutcome r = 1 → s.dev.merge = [] → r.addr % 8 = 0 →
      (∀ w < r.len, s.dev.wordSyn 2 (r.addr / 8 + w) = 0) →
      Yields (.tlqEnqDone) s fun d => d.tlqEnq = none ∧ d.get pgTLQ TLQ.STATUS_ENQ_BUSY = 0 ∧ d.get pgTLQ TLQ.ENQ_STAT_RESULT = 1 ∧
        d.tlq = s.dev.tlq ++ [⟨s.dev.tlqIndex, r, memBytes s.dev.mem (memBase 2 + r.addr) r.len, none, false, false⟩] ∧
        d.get pgTLQ TLQ.ENQUEUED = (s.dev.get pgTLQ TLQ.ENQUEUED + 1) % 2 ^ 48) ∧
  (∀ (r : TlqReq) (s : State), s.clocked → s.dev.tlqEnq = some r → s.dev.tlqOutcome r ≠ 1 →
      Yields (.tlqEnqDone) s fun d => d.tlqEnq = none ∧ d.get pgTLQ TLQ.STATUS_ENQ_BUSY = 0 ∧ d.tlq = s.dev.tlq ∧
        d.get pgTLQ TLQ.ENQ_STAT_RESULT = s.dev.tlqOutcome r ∧ d.get pgTLQ TLQ.REFUSED = (s.dev.get pgTLQ TLQ.REFUSED + 1) % 2 ^ 48) ∧
  (∀ (w : Word) (s : State), s.clocked → (s.dev.tlq.map (·.idx)).Nodup →
      Yields (.flushAll w) s fun d => d.tlq = s.dev.tlq.filter (·.launched.isSome) ∧
        d.get pgTLQ TLQ.FLUSHED = (s.dev.get pgTLQ TLQ.FLUSHED + s.dev.tlq.countP (·.launched.isNone)) % 2 ^ 48) ∧
  (∀ (e : BitVec 7) (x : TlqEntry) (s : State), s.clocked → s.dev.tlq.find? (·.idx == e.toNat) = some x → x.launched = none →
      s.dev.tlqIsDue x = true → s.dev.tlqBlocked x = false → x.req.scc = false → s.dev.get (pgCLI x.req.client) CLI.EG_OPEN = 0 →
      s.dev.tlqIsLate x = false → s.dev.tlqNoDest x.req = false →
      Yields (.tlqDue e) s fun d =>
        (let q := s.dev.tlq.map fun y => if y.idx == e.toNat then { y with launched := some (s.dev.tbVal x.req.tb) } else y;
         d.tlq = q ∧ Frame [] { s.dev with tlq := q } d)) ∧
  (∀ (e : BitVec 7) (x : TlqEntry) (s : State), s.clocked → s.dev.tlq.find? (·.idx == e.toNat) = some x → x.launched = none →
      s.dev.tlqIsDue x = true → s.dev.tlqBlocked x = false → x.req.scc = true →
      s.dev.tlqIsLate x = false → s.dev.tlqNoDest x.req = false →
      Yields (.tlqDue e) s fun d =>
        d.tlq = (s.dev.tlq.map fun y => if y.idx == e.toNat then { y with launched := some (s.dev.tbVal x.req.tb) } else y) ∧
        (⟨bytesOf x.frame, false, e.toNat + 1⟩ : TxMsg) ∈ (d.scc.get x.req.port).tx2 ∧
        (d.scc.get x.req.port).tx2.length = (s.dev.scc.get x.req.port).tx2.length + 1) ∧
  (∀ (e : BitVec 7) (x : TlqEntry) (s : State), s.clocked → s.dev.tlq.find? (·.idx == e.toNat) = some x → x.launched = none →
      s.dev.tlqIsDue x = true → s.dev.tlqBlocked x = false → s.dev.tlqIsLate x = true → x.req.scc = true ∨ s.dev.get (pgCLI x.req.client) CLI.EG_OPEN = 0 →
      Yields (.tlqDue e) s fun d => d.tlq = s.dev.tlq.filter (·.idx != x.idx) ∧
        d.get pgTLQ TLQ.LATE_DROP = (s.dev.get pgTLQ TLQ.LATE_DROP + 1) % 2 ^ 48 ∧ d.raised pgTLQ 1) ∧
  (∀ (e : BitVec 7) (x : TlqEntry) (s : State), s.clocked → s.dev.tlq.find? (·.idx == e.toNat) = some x → x.launched = none →
      s.dev.tlqIsDue x = true → s.dev.tlqBlocked x = false → s.dev.tlqIsLate x = false → s.dev.tlqNoDest x.req = true →
      Yields (.tlqDue e) s fun d => d.tlq = s.dev.tlq.filter (·.idx != x.idx) ∧ d.raised pgTLQ 4) ∧
  (∀ (e : BitVec 7) (x : TlqEntry) (s : State), s.clocked → s.dev.tlq.find? (·.idx == e.toNat) = some x →
      s.dev.tlqIsDue x = false ∨ s.dev.tlqBlocked x = true →
      Yields (.tlqDue e) s fun d => Frame [] s.dev d) ∧
  (∀ (e : BitVec 7) (lag : BitVec 32) (x : TlqEntry) (t : Nat) (s : State), s.clocked → s.dev.tlq.find? (·.idx == e.toNat) = some x → x.launched = some t →
      x.req.scc = false ∨ (s.dev.scc.get x.req.port).tx2.any (·.entry == e.toNat + 1) = false →
      (s.dev.get pgTLQ TLQ.DONE_WR_WR + 256 - s.dev.get pgTLQ TLQ.DONE_RD_RD) % 256 ≠ 32 →
      Yields (.tlqLaunchDone e lag) s fun d => d.tlq = s.dev.tlq.filter (·.idx != e.toNat) ∧
        d.get pgTLQ TLQ.LAUNCHED = (s.dev.get pgTLQ TLQ.LAUNCHED + 1) % 2 ^ 48 ∧
        d.get pgTLQ TLQ.DONE_WR_WR = (s.dev.get pgTLQ TLQ.DONE_WR_WR + 1) % 256 ∧
        d.get pgTLQ (TLQ.DONE_WORD.at (4 * (s.dev.get pgTLQ TLQ.DONE_WR_WR % 32) + 1)) = t / 2 ^ 16 % 2 ^ 32 ∧ d.raised pgTLQ 0 ∧
        (x.req.scc = false → Output.clientFrame x.req.client.val
          (s.dev.launchFrame x.req.client x (s.dev.egStamp x.req.client lag.toNat)) x.cut ∈ d.out))

/-- A preamble at the threshold starts a reception, in place of a header awaited a false one, and during a packet takes its place where it is 6 dB stronger; the canceller and EC_CONV follow the symbol periods before it, updates of which it discards, and the taps stay while frozen and during receptions; nothing happens in OFF. A header awaited whose CRC-8 fits is kept, another is counted; a packet with a failed codeword is counted, and an accepted one not seen before is counted, acknowledged if reliable, and delivered; an RSP of the identity read brings the link UP where the serial is the expected one and to HOLD where another one was expected, one of a plain request completes it for the host or its pier engine, one of a secure request is only a security failure, and another does nothing; with no merge entry, TEL goes to its place in the ring, its whole words at once and the rest as a narrow write, or is counted where the ring is full; EXEC_DONE and companion events are shown. -/
def Obligations.HangerReception : Prop :=
  (∀ (n : Fin 4) (corr : BitVec 9) (peak : BitVec 32) (line : List EchoSample) (s : State), s.clocked → s.dev.hgLink n.val ≠ 0 →
      s.dev.get (pgHG n.val) HGL.DET_CTL_THR ≤ corr.toNat → (s.dev.hgs n.val).rx ≠ 2 →
      Yields (.hgPreamble n corr peak line) s fun d => (d.hgs n.val).rx = 1 ∧ (d.hgs n.val).peak = peak.toNat ∧
        d.get (pgHG n.val) HGL.FALSE_PREAMBLE = (s.dev.get (pgHG n.val) HGL.FALSE_PREAMBLE + (if (s.dev.hgs n.val).rx = 1 then 1 else 0)) % 2 ^ 48 ∧
        (let e := line.foldl (HgEcho.symbol (s.dev.get (pgHG n.val) HGL.EC_CTL_MU) (s.dev.flag (pgHG n.val) HGL.EC_CTL_FREEZE))
          ((s.dev.hgs n.val).echo, s.dev.flag (pgHG n.val) HGL.STATUS_EC_CONV);
         d.get (pgHG n.val) HGL.STATUS_EC_CONV = b2n e.2 ∧ (d.hgs n.val).echo = { e.1 with late := [] })) ∧
  (∀ (n : Fin 4) (corr : BitVec 9) (peak : BitVec 32) (line : List EchoSample) (s : State), s.clocked → s.dev.hgLink n.val ≠ 0 →
      corr.toNat < s.dev.get (pgHG n.val) HGL.DET_CTL_THR →
      Yields (.hgPreamble n corr peak line) s fun d => (d.hgs n.val).rx = (s.dev.hgs n.val).rx ∧
        (let e := line.foldl (HgEcho.symbol (s.dev.get (pgHG n.val) HGL.EC_CTL_MU) (s.dev.flag (pgHG n.val) HGL.EC_CTL_FREEZE))
          ((s.dev.hgs n.val).echo, s.dev.flag (pgHG n.val) HGL.STATUS_EC_CONV);
         d.get (pgHG n.val) HGL.STATUS_EC_CONV = b2n e.2 ∧ (d.hgs n.val).echo = e.1)) ∧
  (∀ (mu : Nat) (e : HgEcho × Bool) (x : EchoSample), (HgEcho.symbol mu true e x).1.taps = e.1.taps) ∧
  (∀ (mu : Nat) (freeze : Bool) (e : HgEcho × Bool) (x : EchoSample), x.far = true →
      (HgEcho.symbol mu freeze e x).1.taps = e.1.taps ∧ (HgEcho.symbol mu freeze e x).2 = e.2) ∧
  (∀ (n : Fin 4) (corr : BitVec 9) (peak : BitVec 32) (line : List EchoSample) (s : State), s.clocked → s.dev.hgLink n.val ≠ 0 →
      s.dev.get (pgHG n.val) HGL.DET_CTL_THR ≤ corr.toNat → (s.dev.hgs n.val).rx = 2 →
      Yields (.hgPreamble n corr peak line) s fun d =>
        (sixDb peak.toNat (s.dev.hgs n.val).peak = true → (d.hgs n.val).rx = 1 ∧ (d.hgs n.val).peak = peak.toNat ∧
          d.get (pgHG n.val) HGL.PREEMPT = (s.dev.get (pgHG n.val) HGL.PREEMPT + 1) % 2 ^ 48) ∧
        (sixDb peak.toNat (s.dev.hgs n.val).peak = false → (d.hgs n.val).rx = 2 ∧ (d.hgs n.val).peak = (s.dev.hgs n.val).peak ∧
          d.get (pgHG n.val) HGL.PREEMPT = s.dev.get (pgHG n.val) HGL.PREEMPT)) ∧
  (∀ (n : Fin 4) (corr : BitVec 9) (peak : BitVec 32) (line : List EchoSample) (s : State), s.clocked → s.dev.hgLink n.val = 0 →
      Yields (.hgPreamble n corr peak line) s fun d => Frame [] s.dev d) ∧
  (∀ (n : Fin 4) (w : BitVec 32) (s : State), s.clocked → (s.dev.hgs n.val).rx = 1 →
      Yields (.hgHeader n w) s fun d =>
        (crc8 (beBytes 3 (w.toNat / 256)) = w.toNat % 256 → (d.hgs n.val).rx = 2 ∧ (d.hgs n.val).rxHdr = w.toNat ∧
          d.get (pgHG n.val) HGL.HDR_ERR = s.dev.get (pgHG n.val) HGL.HDR_ERR) ∧
        (crc8 (beBytes 3 (w.toNat / 256)) ≠ w.toNat % 256 → (d.hgs n.val).rx = 0 ∧
          d.get (pgHG n.val) HGL.HDR_ERR = (s.dev.get (pgHG n.val) HGL.HDR_ERR + 1) % 2 ^ 48)) ∧
  (∀ (n : Fin 4) (w : BitVec 32) (s : State), s.clocked → (s.dev.hgs n.val).rx ≠ 1 → Yields (.hgHeader n w) s fun d => Frame [] s.dev d) ∧
  (∀ (n : Fin 4) (words : List (List Int)) (s : State), s.clocked → (s.dev.hgs n.val).rx = 2 →
      Yields (.hgPacket n words) s fun d => (d.hgs n.val).rx = 0 ∧ (hangerBytes words = none →
        d.get (pgHG n.val) HGL.CW_FAIL = (s.dev.get (pgHG n.val) HGL.CW_FAIL + 1) % 2 ^ 48 ∧
        Frame [HGL.CW_FAIL.key (pgHG n.val)] (s.dev.hgUpd n.val fun h => { h with rx := 0 }) d)) ∧
  (∀ (n : Fin 4) (words : List (List Int)) (typ seq : Nat) (s : State), s.clocked → (s.dev.hgs n.val).rx = 2 → 2 ≤ s.dev.hgLink n.val →
      typ = bitsOf (s.dev.hgs n.val).rxHdr 28 4 → seq = bitsOf (s.dev.hgs n.val).rxHdr 8 16 → typ ≤ 7 →
      (hgReliable typ = true → (s.dev.hgs n.val).lastRel ≠ some seq) → (s.dev.hgs n.val).rel = none → (s.dev.hgs n.val).queue = [] →
      Yields (.hgPacket n words) s fun d => ∀ pay ∈ hangerBytes words,
        beVal (part pay 4 2) ≤ 96 * (bitsOf (s.dev.hgs n.val).rxHdr 25 3 + 1) - 6 →
        (d.hgs n.val).rxRef = some seq ∧ (d.hgs n.val).ackDue = (if hgReliable typ then some seq else (s.dev.hgs n.val).ackDue) ∧
        d.get (pgHG n.val) HGL.PKT_RX = (s.dev.get (pgHG n.val) HGL.PKT_RX + 1) % 2 ^ 48 ∧
        Output.hangerRx n.val typ seq (part pay 6 (beVal (part pay 4 2))) ∈ d.out) ∧
  (∀ (n : Fin 4) (tag : BitVec 16) (lo hi : Word) (s : State), s.clocked → (s.dev.hgs n.val).idTag = some tag.toNat →
      s.dev.hgSerial n.val HGL.ID_EXP_LO_SERIAL HGL.ID_EXP_HI_SERIAL = lo.toNat + 2 ^ 32 * hi.toNat →
      Yields (.rsp n tag 0 [lo, hi]) s fun d => d.hgLink n.val = 4 ∧ d.raised (pgHG n.val) 0 ∧ (d.hgs n.val).idTag = none ∧
        d.get (pgHG n.val) HGL.ID_SEEN_LO_SERIAL = lo.toNat ∧ d.get (pgHG n.val) HGL.ID_SEEN_HI_SERIAL = hi.toNat) ∧
  (∀ (n : Fin 4) (tag : BitVec 16) (lo hi : Word) (s : State), s.clocked → (s.dev.hgs n.val).idTag = some tag.toNat →
      s.dev.hgSerial n.val HGL.ID_EXP_LO_SERIAL HGL.ID_EXP_HI_SERIAL ≠ 0 →
      s.dev.hgSerial n.val HGL.ID_EXP_LO_SERIAL HGL.ID_EXP_HI_SERIAL ≠ lo.toNat + 2 ^ 32 * hi.toNat →
      Yields (.rsp n tag 0 [lo, hi]) s fun d => d.hgLink n.val = 3 ∧ d.get (pgHG n.val) HGL.STAT_HOLD_WHY = 1 ∧ d.raised (pgHG n.val) 2 ∧
        d.get (pgHG n.val) HGL.ID_SEEN_LO_SERIAL = lo.toNat ∧ d.get (pgHG n.val) HGL.ID_SEEN_HI_SERIAL = hi.toNat) ∧
  (∀ (n : Fin 4) (tag : BitVec 16) (status : BitVec 8) (words : List Word) (r : HgReq) (s : State), s.clocked →
      (s.dev.hgs n.val).idTag ≠ some tag.toNat → (s.dev.hgs n.val).reqs.find? (·.tag == tag.toNat) = some r → r.secure = false → r.count ≤ 16 →
      Yields (.rsp n tag status words) s fun d => (d.hgs n.val).reqs = (s.dev.hgs n.val).reqs.erase r ∧
        (r.eng = none → d.get (pgHG n.val) HGL.REQ_STAT_RESULT = (if status = 0 then 1 else 7) ∧
          d.get (pgHG n.val) HGL.REQ_STAT_STATUS = status.toNat ∧ d.get (pgHG n.val) HGL.STATUS_REQ_BUSY = 0 ∧ d.raised (pgHG n.val) 3 ∧
          ∀ i : Fin 16, d.get (pgHG n.val) (HGL.REQ_DATA_DATA.at i.val) =
            (if r.read = true ∧ status = 0 ∧ i.val < min r.count words.length then (words.getD i.val 0).toNat
             else s.dev.get (pgHG n.val) (HGL.REQ_DATA_DATA.at i.val))) ∧
        (∀ e ∈ r.eng, Output.pierReply n.val e (if status = 0 then 1 else 7) status.toNat
          (if r.read = true ∧ status = 0 then (words.map (·.toNat)).take r.count else []) ∈ d.out)) ∧
  (∀ (n : Fin 4) (tag : BitVec 16) (status : BitVec 8) (words : List Word) (r : HgReq) (s : State), s.clocked →
      (s.dev.hgs n.val).idTag ≠ some tag.toNat → (s.dev.hgs n.val).reqs.find? (·.tag == tag.toNat) = some r → r.secure = true →
      Yields (.rsp n tag status words) s fun d => (d.hgs n.val).reqs = (s.dev.hgs n.val).reqs ∧
        d.get (pgHG n.val) HGL.SEC_FAIL = (s.dev.get (pgHG n.val) HGL.SEC_FAIL + 1) % 2 ^ 48 ∧ d.raised (pgHG n.val) 7 ∧
        Frame [HGL.SEC_FAIL.key (pgHG n.val)] s.dev d) ∧
  (∀ (n : Fin 4) (tag : BitVec 16) (status : BitVec 8) (words : List Word) (s : State), s.clocked →
      (s.dev.hgs n.val).idTag ≠ some tag.toNat → (s.dev.hgs n.val).reqs.find? (·.tag == tag.toNat) = none →
      Yields (.rsp n tag status words) s fun d => Frame [] s.dev d) ∧
  (∀ (n : Fin 4) (seq : BitVec 16) (body : List (BitVec 8)) (a b : Nat) (s : State), s.clocked → s.dev.merge = [] →
      (s.dev.get (pgHG n.val) HGL.STAT_TEL_WR + 256 - s.dev.get (pgHG n.val) HGL.TEL_RD_RD) % 256 ≠ 16 →
      b = (s.dev.get (pgHG n.val) HGL.TEL_BASE_ADDR / 4096 * 4096 + 1024 * (s.dev.get (pgHG n.val) HGL.STAT_TEL_WR % 16)) % 2 ^ 26 →
      Yields (.tel n seq body) s fun d => d.get (pgHG n.val) HGL.STAT_TEL_WR = (s.dev.get (pgHG n.val) HGL.STAT_TEL_WR + 1) % 256 ∧
        memBytes d.mem (memBase 2 + b) ((4 + body.length) / 8 * 8) = (telSlot seq.toNat body).take ((4 + body.length) / 8 * 8) ∧
        ((4 + body.length) % 8 = 0 → d.merge = []) ∧
        ((4 + body.length) % 8 ≠ 0 → d.merge.length = 1 ∧ ∃ e ∈ d.merge, e.ctrl = 0 ∧ e.word = b / 8 + (4 + body.length) / 8 ∧
          e.mask = 2 ^ ((4 + body.length) % 8) - 1 ∧
          (List.range ((4 + body.length) % 8)).map (fun i => BitVec.ofNat 8 (e.data / 2 ^ (8 * i))) =
            (telSlot seq.toNat body).drop ((4 + body.length) / 8 * 8)) ∧
        (a < memBase 2 + b ∨ memBase 2 + b + (4 + body.length) / 8 * 8 ≤ a → memRead d.mem a = memRead s.dev.mem a)) ∧
  (∀ (n : Fin 4) (seq : BitVec 16) (body : List (BitVec 8)) (s : State), s.clocked →
      (s.dev.get (pgHG n.val) HGL.STAT_TEL_WR + 256 - s.dev.get (pgHG n.val) HGL.TEL_RD_RD) % 256 = 16 →
      Yields (.tel n seq body) s fun d => d.get (pgHG n.val) HGL.TEL_DROP = (s.dev.get (pgHG n.val) HGL.TEL_DROP + 1) % 2 ^ 48 ∧
        Frame [HGL.TEL_DROP.key (pgHG n.val)] s.dev d) ∧
  (∀ (n : Fin 4) (h : Fin 16) (st : BitVec 8) (t : HgTimed) (s : State), s.clocked → AMap.find? (s.dev.hgs n.val).timed h.val = some t → t.fired = true →
      s.dev.tmdState n.val h.val = 2 →
      Yields (.event n 3 (BitVec.ofNat 8 h.val) st) s fun d => d.tmdState n.val h.val = (if st = 0 then 3 else 4) ∧
        d.get (pgHG n.val) (HGL.TMD_STAT_STATUS.at h.val) = st.toNat ∧
        d.get (pgHG n.val) (HGL.TMD_STAT_OUTCOME.at h.val) = (if st = 0 then 1 else 8) ∧ d.raised (pgHG n.val) 5) ∧
  (∀ (n : Fin 4) (code b1 b2 : BitVec 8) (s : State), s.clocked → code.toNat < 0x10 → code ≠ 3 →
      Yields (.event n code b1 b2) s fun d => Frame [] s.dev d) ∧
  (∀ (n : Fin 4) (code b1 b2 : BitVec 8) (s : State), s.clocked → 0x10 ≤ code.toNat →
      Yields (.event n code b1 b2) s fun d => d.get (pgHG n.val) HGL.CEVT_CODE = code.toNat ∧
        d.get (pgHG n.val) HGL.CEVT_DATA = b1.toNat * 256 + b2.toNat ∧ d.raised (pgHG n.val) 4 ∧
        Frame [HGL.CEVT_CODE.key (pgHG n.val), HGL.CEVT_DATA.key (pgHG n.val)] s.dev d)

/-- EN brings a port from OFF to TRAIN with its sender at SEQ 0, leaves another state, and its end leads to OFF; a retransmission timeout sends the unacknowledged packet again, and after the fourth send ends its request NOACK, another one DOWN, and leads to TRAIN; the acknowledgement timer with one owed and the idle timer in TRAIN send an IDLE event; a link timeout above TRAIN and RETRAIN lead to TRAIN; each timer does nothing otherwise; ACCEPT in HOLD takes the serial seen and brings the link UP; NOISE_CLR starts the gap count again and a gap adds to it, the 256th giving the noise floor to a tenth of a dB; EC_CTL.RESET zeroes the taps. -/
def Obligations.HangerLink : Prop :=
  (∀ (n : Fin 4) (w : Word) (s : State), s.clocked → HGL.CTL_EN.ofWord w.toNat = 1 → s.dev.hgLink n.val = 0 →
      Yields (.hglEn n w) s fun d => d.hgLink n.val = 1 ∧ (d.hgs n.val).seq = 0 ∧ (d.hgs n.val).queue = [] ∧ (d.hgs n.val).rel = none ∧
        d.get (pgHG n.val) HGL.CTL_SEC_REQ = HGL.CTL_SEC_REQ.ofWord w.toNat ∧ d.get (pgHG n.val) HGL.CTL_TMO = HGL.CTL_TMO.ofWord w.toNat) ∧
  (∀ (n : Fin 4) (w : Word) (s : State), s.clocked → HGL.CTL_EN.ofWord w.toNat = 1 → s.dev.hgLink n.val ≠ 0 →
      Yields (.hglEn n w) s fun d => d.hgLink n.val = s.dev.hgLink n.val ∧ d.hgs n.val = s.dev.hgs n.val ∧
        d.get (pgHG n.val) HGL.CTL_SEC_REQ = HGL.CTL_SEC_REQ.ofWord w.toNat ∧ d.get (pgHG n.val) HGL.CTL_TMO = HGL.CTL_TMO.ofWord w.toNat) ∧
  (∀ (n : Fin 4) (w : Word) (s : State), s.clocked → HGL.CTL_EN.ofWord w.toNat = 0 →
      Yields (.hglEn n w) s fun d => d.hgLink n.val = 0 ∧ (d.hgs n.val).rx = 0 ∧ (d.hgs n.val).rel = none ∧ (d.hgs n.val).idTag = none ∧
        d.get (pgHG n.val) HGL.CTL_EN = 0) ∧
  (∀ (n : Fin 4) (r : HgRel) (s : State), s.clocked → (s.dev.hgs n.val).rel = some r → r.sends < 4 → s.dev.hgLink n.val ≠ 0 →
      (s.dev.hgs n.val).resv = false →
      Yields (.hgRto n) s fun d => (d.hgs n.val).rel = some { r with due := false, sends := r.sends + 1 } ∧
        d.get (pgHG n.val) HGL.RETX = (s.dev.get (pgHG n.val) HGL.RETX + 1) % 2 ^ 48 ∧
        d.get (pgHG n.val) HGL.PKT_TX = (s.dev.get (pgHG n.val) HGL.PKT_TX + 1) % 2 ^ 48 ∧ d.hgLink n.val = s.dev.hgLink n.val) ∧
  (∀ (n : Fin 4) (r : HgRel) (s : State), s.clocked → (s.dev.hgs n.val).rel = some r → 4 ≤ r.sends → s.dev.hgLink n.val ≠ 0 →
      Yields (.hgRto n) s fun d => d.hgLink n.val = 1 ∧ (d.hgs n.val).rel = none ∧ (d.hgs n.val).reqs = [] ∧ (d.hgs n.val).seq = 0 ∧
        (∀ q ∈ (s.dev.hgs n.val).reqs.head?, (s.dev.hgs n.val).reqs.length = 1 → q.eng = none →
          d.get (pgHG n.val) HGL.REQ_STAT_RESULT = (if q.other r.pkt then 3 else 2))) ∧
  (∀ (n : Fin 4) (s : State), s.clocked → (s.dev.hgs n.val).rel = none ∨ s.dev.hgLink n.val = 0 →
      Yields (.hgRto n) s fun d => Frame [] s.dev d) ∧
  (∀ (n : Fin 4) (k : Nat) (s : State), s.clocked → (s.dev.hgs n.val).ackDue = some k → s.dev.hgLink n.val ≠ 0 → (s.dev.hgs n.val).resv = false →
      Yields (.hgAckTimer n) s fun d => (d.hgs n.val).ackDue = none ∧ (d.hgs n.val).seq = ((s.dev.hgs n.val).seq + 1) % 2 ^ 16 ∧
        d.get (pgHG n.val) HGL.PKT_TX = (s.dev.get (pgHG n.val) HGL.PKT_TX + 1) % 2 ^ 48) ∧
  (∀ (n : Fin 4) (s : State), s.clocked → (s.dev.hgs n.val).ackDue = none ∨ s.dev.hgLink n.val = 0 →
      Yields (.hgAckTimer n) s fun d => Frame [] s.dev d) ∧
  (∀ (n : Fin 4) (s : State), s.clocked → s.dev.hgLink n.val = 1 → (s.dev.hgs n.val).resv = false →
      Yields (.hgIdleTimer n) s fun d => (d.hgs n.val).seq = ((s.dev.hgs n.val).seq + 1) % 2 ^ 16 ∧ d.hgLink n.val = 1 ∧
        d.get (pgHG n.val) HGL.PKT_TX = (s.dev.get (pgHG n.val) HGL.PKT_TX + 1) % 2 ^ 48) ∧
  (∀ (n : Fin 4) (s : State), s.clocked → s.dev.hgLink n.val ≠ 1 → Yields (.hgIdleTimer n) s fun d => Frame [] s.dev d) ∧
  (∀ (n : Fin 4) (s : State), s.clocked → 2 ≤ s.dev.hgLink n.val →
      Yields (.hgLinkTimeout n) s fun d => d.hgLink n.val = 1 ∧ (d.hgs n.val).seq = 0 ∧ (d.hgs n.val).queue = [] ∧
        (s.dev.hgLink n.val = 4 → d.raised (pgHG n.val) 1)) ∧
  (∀ (n : Fin 4) (s : State), s.clocked → s.dev.hgLink n.val < 2 → Yields (.hgLinkTimeout n) s fun d => Frame [] s.dev d) ∧
  (∀ (n : Fin 4) (w : Word) (s : State), s.clocked → w.getLsbD 0 = false → 2 ≤ s.dev.hgLink n.val →
      Yields (.retrain n w) s fun d => d.hgLink n.val = 1 ∧ (d.hgs n.val).seq = 0 ∧ (d.hgs n.val).queue = []) ∧
  (∀ (n : Fin 4) (w : Word) (s : State), s.clocked → w.getLsbD 1 = false → s.dev.hgLink n.val = 3 → AMap.find? s.dev.ks.hgExch n.val = none →
      Yields (.hglAccept n w) s fun d => d.hgLink n.val = 4 ∧ d.raised (pgHG n.val) 0 ∧
        d.get (pgHG n.val) HGL.ID_EXP_LO_SERIAL = s.dev.hgSerial n.val HGL.ID_SEEN_LO_SERIAL HGL.ID_SEEN_HI_SERIAL % 2 ^ 32 ∧
        d.get (pgHG n.val) HGL.SEC_STAT_PINNED = 0 ∧ AMap.find? d.ks.pins n.val = none) ∧
  (∀ (n : Fin 4) (w : Word) (s : State), s.clocked →
      Yields (.noiseClr n w) s fun d => d.get (pgHG n.val) HGL.GAPS = 0 ∧ d.get (pgHG n.val) HGL.GAP_SUM = 0) ∧
  (∀ (n : Fin 4) (power : BitVec 32) (s : State), s.clocked → s.dev.get (pgHG n.val) HGL.GAPS < 255 →
      Yields (.noiseGap n power) s fun d => d.get (pgHG n.val) HGL.GAPS = s.dev.get (pgHG n.val) HGL.GAPS + 1 ∧
        d.get (pgHG n.val) HGL.GAP_SUM = (s.dev.get (pgHG n.val) HGL.GAP_SUM + power.toNat) % 2 ^ 48 ∧
        Frame [HGL.GAPS.key (pgHG n.val), HGL.GAP_SUM.key (pgHG n.val)] s.dev d) ∧
  (∀ (n : Fin 4) (power : BitVec 32) (s : State), s.clocked → s.dev.get (pgHG n.val) HGL.GAPS = 255 →
      Yields (.noiseGap n power) s fun d => d.get (pgHG n.val) HGL.GAPS = 0 ∧ d.get (pgHG n.val) HGL.GAP_SUM = 0 ∧
        d.get (pgHG n.val) HGL.NOISE_VALID = 1 ∧
        (∀ k ∈ floorDb ((s.dev.get (pgHG n.val) HGL.GAP_SUM + power.toNat) % 2 ^ 48),
          d.get (pgHG n.val) HGL.NOISE_FLOOR = sTo 12 (-(k : Int)) ∨ d.get (pgHG n.val) HGL.NOISE_FLOOR = sTo 12 (1 - (k : Int)))) ∧
  (∀ (n : Fin 4) (w : Word) (s : State), s.clocked →
      Yields (.ecReset n w) s fun d => (d.hgs n.val).echo.taps = [] ∧ d.get (pgHG n.val) HGL.EC_CTL_MU = HGL.EC_CTL_MU.ofWord (w ||| 0x20#32).toNat ∧
        d.get (pgHG n.val) HGL.EC_CTL_FREEZE = HGL.EC_CTL_FREEZE.ofWord (w ||| 0x20#32).toNat) ∧
  (∀ (sample : Int) (sent : List Int), echoResidual [] sample sent = sample * 2 ^ 15)

/-- A request of the host or of a pier engine on a link that is UP and free becomes outstanding and its packet goes out; below ID it ends DOWN, a write in HOLD ends HOLD, one that asks for security without a session NOKEY; an accepted timed command is SENT with its target kept, one in HOLD is refused; a reservation keeps the link for the armed commands due and fails those still SENT with LINK, and one trigger is sent for all that are due at its instant; a missing EXEC_DONE fails the command with LINK. A key agreement on a link that is UP starts its exchange, keeps the fragments it awaits, and ends with the reason of an abort or TIMEOUT; an SRSP without a session is a security failure, counted as a control record too and ending a secure request with SEC, and one that opens moves the receive counter and completes its request. -/
def Obligations.HangerCommands : Prop :=
  (∀ (n : Fin 4) (w : Word) (s : State), s.clocked → s.dev.hgLink n.val = 4 → s.dev.get (pgHG n.val) HGL.CTL_SEC_REQ = 0 →
      s.dev.get (pgHG n.val) HGL.STATUS_REQ_BUSY = 0 → HGL.REQ_CTL_OP.ofWord w.toNat = 1 ∨ HGL.REQ_CTL_OP.ofWord w.toNat = 2 →
      (s.dev.hgs n.val).rel = none → (s.dev.hgs n.val).queue = [] → (s.dev.hgs n.val).resv = false →
      Yields (.reqGo n w none) s fun d => d.get (pgHG n.val) HGL.STATUS_REQ_BUSY = 1 ∧
        (d.hgs n.val).reqs = (s.dev.hgs n.val).reqs ++ [⟨s.dev.hgTag n.val, false, HGL.REQ_CTL_OP.ofWord w.toNat == 1,
          clampN 1 16 (HGL.REQ_CTL_COUNT.ofWord w.toNat), none⟩] ∧
        d.get (pgHG n.val) HGL.PKT_TX = (s.dev.get (pgHG n.val) HGL.PKT_TX + 1) % 2 ^ 48 ∧ (d.hgs n.val).queue = [] ∧
        ((d.hgs n.val).rel.map fun r => (r.pkt.typ, r.sends, r.pkt.tag)) = some (0, 1, s.dev.hgTag n.val)) ∧
  (∀ (n : Fin 4) (w : Word) (q : PierReq) (s : State), s.clocked → s.dev.hgLink n.val = 4 → s.dev.get (pgHG n.val) HGL.CTL_SEC_REQ = 0 →
      (s.dev.hgs n.val).rel = none → (s.dev.hgs n.val).queue = [] → (s.dev.hgs n.val).resv = false →
      Yields (.reqGo n w (some q)) s fun d => d.get (pgHG n.val) HGL.STATUS_REQ_BUSY = s.dev.get (pgHG n.val) HGL.STATUS_REQ_BUSY ∧
        (d.hgs n.val).reqs = (s.dev.hgs n.val).reqs ++ [⟨s.dev.hgTag n.val, false, q.read, clampN 1 16 q.count.val, some q.engine.val⟩] ∧
        d.get (pgHG n.val) HGL.PKT_TX = (s.dev.get (pgHG n.val) HGL.PKT_TX + 1) % 2 ^ 48) ∧
  (∀ (n : Fin 4) (w : Word) (q : PierReq) (s : State), s.clocked → s.dev.hgLink n.val ≤ 1 ∨ (s.dev.hgLink n.val = 3 ∧ q.read = false) →
      Yields (.reqGo n w (some q)) s fun d =>
        Output.pierReply n.val q.engine.val (if s.dev.hgLink n.val ≤ 1 then 3 else 4) 0 [] ∈ d.out ∧ Frame [] s.dev d) ∧
  (∀ (n : Fin 4) (w : Word) (s : State), s.clocked → s.dev.hgLink n.val ≤ 1 → s.dev.get (pgHG n.val) HGL.STATUS_REQ_BUSY = 0 →
      HGL.REQ_CTL_OP.ofWord w.toNat = 1 ∨ HGL.REQ_CTL_OP.ofWord w.toNat = 2 →
      Yields (.reqGo n w none) s fun d => d.get (pgHG n.val) HGL.REQ_STAT_RESULT = 3 ∧ d.get (pgHG n.val) HGL.STATUS_REQ_BUSY = 0 ∧ d.raised (pgHG n.val) 3) ∧
  (∀ (n : Fin 4) (w : Word) (s : State), s.clocked → s.dev.hgLink n.val = 3 → s.dev.get (pgHG n.val) HGL.STATUS_REQ_BUSY = 0 →
      HGL.REQ_CTL_OP.ofWord w.toNat = 2 →
      Yields (.reqGo n w none) s fun d => d.get (pgHG n.val) HGL.REQ_STAT_RESULT = 4 ∧ d.get (pgHG n.val) HGL.STATUS_REQ_BUSY = 0 ∧ d.raised (pgHG n.val) 3) ∧
  (∀ (n : Fin 4) (w : Word) (s : State), s.clocked → s.dev.hgLink n.val = 4 → s.dev.get (pgHG n.val) HGL.STATUS_REQ_BUSY = 0 →
      HGL.REQ_CTL_OP.ofWord w.toNat = 1 ∨ HGL.REQ_CTL_OP.ofWord w.toNat = 2 → s.dev.get (pgHG n.val) HGL.CTL_SEC_REQ = 1 → s.dev.hgSession n.val = none →
      Yields (.reqGo n w none) s fun d => d.get (pgHG n.val) HGL.REQ_STAT_RESULT = 5 ∧ d.get (pgHG n.val) HGL.STATUS_REQ_BUSY = 0 ∧ d.raised (pgHG n.val) 3) ∧
  (∀ (n : Fin 4) (w : Word) (pos : FramePos) (t : HgTimed) (s : State), s.clocked →
      t = ⟨s.dev.getLH (pgHG n.val) HGL.TMD_SPAN_LO_SPAN HGL.TMD_SPAN_HI_SPAN, s.dev.get (pgHG n.val) HGL.TMD_SPAN_HI_FRAME,
        if s.dev.flag (pgHG n.val) HGL.TMD_SPAN_HI_PORT then 1 else 0, s.dev.flag (pgHG n.val) HGL.TMD_SPAN_HI_CNT,
        max 1 (HGL.TMD_CTL_LEAD.ofWord (w ||| 0x80000000#32).toNat), false⟩ →
      s.dev.tmdRefusal n.val (HGL.TMD_CTL_HANDLE.ofWord w.toNat) pos t = 0 → s.dev.get (pgHG n.val) HGL.CTL_SEC_REQ = 0 →
      Yields (.tmdGo n w pos) s fun d => d.tmdState n.val (HGL.TMD_CTL_HANDLE.ofWord w.toNat) = 1 ∧
        AMap.find? (d.hgs n.val).timed (HGL.TMD_CTL_HANDLE.ofWord w.toNat) = some t ∧
        d.get (pgHG n.val) (HGL.TMD_STAT_OUTCOME.at (HGL.TMD_CTL_HANDLE.ofWord w.toNat)) = 0) ∧
  (∀ (n : Fin 4) (w : Word) (pos : FramePos) (s : State), s.clocked → s.dev.hgLink n.val = 3 →
      s.dev.tmdState n.val (HGL.TMD_CTL_HANDLE.ofWord w.toNat) = 0 →
      Yields (.tmdGo n w pos) s fun d => d.tmdState n.val (HGL.TMD_CTL_HANDLE.ofWord w.toNat) = 4 ∧
        d.get (pgHG n.val) (HGL.TMD_STAT_OUTCOME.at (HGL.TMD_CTL_HANDLE.ofWord w.toNat)) = 7 ∧ d.raised (pgHG n.val) 5) ∧
  (∀ (n : Fin 4) (pos : FramePos) (due : List Nat) (s : State), s.clocked → due = s.dev.trigDue n.val pos 34048 (fun st => st == 1 || st == 2) →
      Yields (.triggerReservation n pos) s fun d =>
        (d.hgs n.val).resv = ((s.dev.hgs n.val).resv || due.any fun h => s.dev.tmdState n.val h == 2) ∧
        ∀ h : Fin 16, h.val ∈ due →
          (s.dev.tmdState n.val h.val = 1 → d.tmdState n.val h.val = 4 ∧ d.get (pgHG n.val) (HGL.TMD_STAT_OUTCOME.at h.val) = 5 ∧ d.raised (pgHG n.val) 5) ∧
          (s.dev.tmdState n.val h.val = 2 → d.tmdState n.val h.val = 2)) ∧
  (∀ (n : Fin 4) (pos : FramePos) (due : List Nat) (s : State), s.clocked → due = s.dev.trigDue n.val pos 0 (fun st => st == 2) → due ≠ [] →
      s.dev.hgLink n.val ≠ 0 → (s.dev.hgs n.val).rel = none → (s.dev.hgs n.val).queue = [] →
      Yields (.trigger n pos) s fun d => (d.hgs n.val).resv = false ∧
        (∀ h : Fin 16, AMap.find? (d.hgs n.val).timed h.val = (AMap.find? (s.dev.hgs n.val).timed h.val).map
          fun t => { t with fired := t.fired || due.contains h.val }) ∧
        d.get (pgHG n.val) HGL.PKT_TX = (s.dev.get (pgHG n.val) HGL.PKT_TX + 1) % 2 ^ 48) ∧
  (∀ (n : Fin 4) (pos : FramePos) (s : State), s.clocked → s.dev.trigDue n.val pos 0 (fun st => st == 2) = [] →
      (s.dev.hgs n.val).rel = none → (s.dev.hgs n.val).queue = [] →
      Yields (.trigger n pos) s fun d => Frame [] (s.dev.hgUpd n.val fun h => { h with resv := false }) d) ∧
  (∀ (n : Fin 4) (h : Fin 16) (t : HgTimed) (s : State), s.clocked → s.dev.tmdState n.val h.val = 2 →
      AMap.find? (s.dev.hgs n.val).timed h.val = some t → t.fired = true →
      Yields (.execDoneTimeout n h) s fun d => d.tmdState n.val h.val = 4 ∧ d.get (pgHG n.val) (HGL.TMD_STAT_OUTCOME.at h.val) = 5 ∧
        d.raised (pgHG n.val) 5) ∧
  (∀ (s : State), s.clocked → s.dev.ksWaits 11 1 → s.dev.mbBody.headD 0 ≤ 3 → AMap.find? s.dev.ks.hgExch (s.dev.mbBody.headD 0) = none →
      s.dev.hgLink (s.dev.mbBody.headD 0) = 4 →
      Yields (.hgKeyAgree) s fun d => ((AMap.find? d.ks.hgExch (s.dev.mbBody.headD 0)).map (·.phase)) = some 1 ∧
        d.get (pgHG (s.dev.mbBody.headD 0)) HGL.SEC_STAT_STATE = 1 ∧ d.get (pgHG (s.dev.mbBody.headD 0)) HGL.STATUS_SEC = 0 ∧ d.ks.result = none) ∧
  (∀ (n : Fin 4) (rest : List (BitVec 8)) (agreed : Bool) (x : KsHgExch) (s : State), s.clocked → AMap.find? s.dev.ks.hgExch n.val = some x →
      x.phase = 1 → x.frags = [] →
      Yields (.key n (0x51 :: 0 :: 2 :: rest) agreed) s fun d =>
        AMap.find? d.ks.hgExch n.val = some { x with frags := [(0, bytesOf rest)] }) ∧
  (∀ (n : Fin 4) (reason : BitVec 8) (agreed : Bool) (x : KsHgExch) (s : State), s.clocked → AMap.find? s.dev.ks.hgExch n.val = some x →
      Yields (.key n [0x54, 0, 1, reason] agreed) s fun d => AMap.find? d.ks.hgExch n.val = none ∧
        d.get (pgHG n.val) HGL.SEC_STAT_STATE = 3 ∧ d.get (pgHG n.val) HGL.SEC_STAT_REASON = reason.toNat ∧ d.raised (pgHG n.val) 6) ∧
  (∀ (n : Fin 4) (x : KsHgExch) (s : State), s.clocked → AMap.find? s.dev.ks.hgExch n.val = some x →
      Yields (.kxTimeout n) s fun d => AMap.find? d.ks.hgExch n.val = none ∧ AMap.find? d.ks.hangers n.val = none ∧
        d.get (pgHG n.val) HGL.SEC_STAT_STATE = 3 ∧ d.get (pgHG n.val) HGL.SEC_STAT_REASON = 11 ∧ d.raised (pgHG n.val) 6) ∧
  (∀ (n : Fin 4) (record : List (BitVec 8)) (agreed : Bool) (s : State), s.clocked →
      s.dev.hgSession n.val = none ∨ record.headD 0 ≠ 3 →
      Yields (.srsp n record agreed) s fun d => d.get (pgHG n.val) HGL.SEC_FAIL = (s.dev.get (pgHG n.val) HGL.SEC_FAIL + 1) % 2 ^ 48 ∧
        d.raised (pgHG n.val) 7 ∧ d.get pgENC ENC.CTL_FAILS = (s.dev.get pgENC ENC.CTL_FAILS + 1) % 2 ^ 48 ∧ d.raised pgENC 14 ∧
        ((s.dev.hgs n.val).reqs.all (fun r => !r.secure) = true → (d.hgs n.val).reqs = (s.dev.hgs n.val).reqs) ∧
        (∀ q ∈ (s.dev.hgs n.val).reqs.head?, (s.dev.hgs n.val).reqs.length = 1 → q.secure = true → q.eng = none →
          (d.hgs n.val).reqs = [] ∧ d.get (pgHG n.val) HGL.REQ_STAT_RESULT = 6)) ∧
  (∀ (n : Fin 4) (record : List (BitVec 8)) (agreed : Bool) (k : KsHanger) (s : State), s.clocked → s.dev.hgSession n.val = some k → record.headD 0 = 3 →
      Yields (.srsp n record agreed) s fun d =>
        ∀ r ∈ openRecord k.rxKey k.rxLast agreed (bytesOf record), d.hgSession n.val = some { k with rxLast := r.1 } ∧
          (∀ q ∈ (s.dev.hgs n.val).reqs.find? (fun (y : HgReq) => y.secure && y.tag == beVal (r.2.take 2)),
            (d.hgs n.val).reqs = (s.dev.hgs n.val).reqs.erase q ∧
            (q.eng = none → d.get (pgHG n.val) HGL.REQ_STAT_RESULT = (if r.2.getD 2 0 = 0 then 1 else 7))) ∧
          d.get (pgHG n.val) HGL.SEC_FAIL = s.dev.get (pgHG n.val) HGL.SEC_FAIL)

/-- A write of TCV_CTL takes its fields and with REF_EN off discards the conversions; the reference becomes ready with its event where it is due, and only there; the scan starts at entry 0 once the reference is ready and waits until then, and stops at once; a settled multiplexer begins the conversion, of an injection first; samples that complete a conversion of single-cycle settling give the scan's result, clamped, flagged and counted on an overrange, of hub ground for a channel of a power-gated die, queued, or dropped and counted on a full queue; the injected result is tagged as such; without samples there is no result; the end of a delay starts the next entry, and no entry while an injection holds it; an injection into an idle converter is taken and one into a busy converter is dropped; reading the head returns and removes it, and an empty queue answers its fixed value; Q_FLUSH empties the queue. -/
def Obligations.TelemetryConverter : Prop :=
  (∀ (w : Word) (s : State), s.clocked → w.getLsbD 0 = true → w.getLsbD 16 = false → w.getLsbD 17 = false →
      TCV.CTL_SCAN_EN.ofWord w.toNat = s.dev.get pgTCV TCV.CTL_SCAN_EN →
      Yields (.refEn w) s fun d => d.tcv = s.dev.tcv ∧ d.get pgTCV TCV.CTL_REF_EN = 1 ∧ d.get pgTCV TCV.CTL_LAST = TCV.CTL_LAST.ofWord w.toNat ∧
        Frame [TCV.CTL_REF_EN.key pgTCV, TCV.CTL_SCAN_EN.key pgTCV, TCV.CTL_LAST.key pgTCV] s.dev d) ∧
  (∀ (w : Word) (s : State), s.clocked → w.getLsbD 0 = false → s.dev.get pgTCV TCV.CTL_REF_EN = 1 → w.getLsbD 16 = false → w.getLsbD 17 = false →
      TCV.CTL_SCAN_EN.ofWord w.toNat = s.dev.get pgTCV TCV.CTL_SCAN_EN →
      Yields (.refEn w) s fun d => d.get pgTCV TCV.CTL_REF_EN = 0 ∧ d.get pgTCV TCV.STATUS_REF_READY = 0 ∧ d.get pgTCV TCV.CTL_LAST = TCV.CTL_LAST.ofWord w.toNat ∧
        d.tcv.inj = 0 ∧ d.tcv.phase ≠ 1 ∧ d.tcv.phase ≠ 2 ∧ d.tcv.queue = s.dev.tcv.queue ∧ d.get pgTCV TCV.STATUS_INJ_PEND = 0) ∧
  (∀ (s : State), s.clocked → s.dev.get pgTCV TCV.CTL_REF_EN = 1 → s.dev.get pgTCV TCV.STATUS_REF_READY = 0 →
      Yields (.refReady) s fun d => d.get pgTCV TCV.STATUS_REF_READY = 1 ∧ d.raised pgTCV 8) ∧
  (∀ (s : State), s.clocked → s.dev.get pgTCV TCV.CTL_REF_EN = 0 ∨ s.dev.get pgTCV TCV.STATUS_REF_READY = 1 →
      Yields (.refReady) s fun d => Frame [] s.dev d) ∧
  (∀ (w : Word) (s : State), s.clocked → w.getLsbD 0 = true → w.getLsbD 1 = true → w.getLsbD 16 = false → w.getLsbD 17 = false →
      s.dev.get pgTCV TCV.CTL_SCAN_EN = 0 → s.dev.get pgTCV TCV.STATUS_REF_READY = 1 → s.dev.tcv.cal = 0 → s.dev.tcv.inj = 0 →
      Yields (.scanEn w) s fun d => d.tcv.phase = 1 ∧ d.get pgTCV TCV.STATUS_ENTRY = 0 ∧ d.get pgTCV TCV.STATUS_RUN = 1 ∧
        (d.tcv.cur.map fun x => (x.ch, x.prof)) = some (s.dev.get pgTCV (TCV.SCAN_CH.at 0), s.dev.get pgTCV (TCV.SCAN_PROFILE.at 0)) ∧
        d.tcv.left = s.dev.get pgTCV (TCV.SCAN_REPEAT.at 0) + 1 ∧ d.tcv.dc = []) ∧
  (∀ (w : Word) (s : State), s.clocked → w.getLsbD 0 = true → w.getLsbD 1 = true → w.getLsbD 16 = false → w.getLsbD 17 = false →
      s.dev.get pgTCV TCV.CTL_SCAN_EN = 0 → s.dev.get pgTCV TCV.STATUS_REF_READY = 0 →
      Yields (.scanEn w) s fun d => d.tcv.phase = 4 ∧ d.tcv.next = 0 ∧ d.get pgTCV TCV.CTL_SCAN_EN = 1 ∧ d.get pgTCV TCV.STATUS_RUN = 0) ∧
  (∀ (w : Word) (s : State), s.clocked → w.getLsbD 0 = true → w.getLsbD 1 = false → w.getLsbD 16 = false → w.getLsbD 17 = false →
      s.dev.get pgTCV TCV.CTL_SCAN_EN = 1 → s.dev.tcv.cal = 0 →
      Yields (.scanEn w) s fun d => d.tcv.phase = 0 ∧ d.tcv.cur = none ∧ d.get pgTCV TCV.STATUS_RUN = 0) ∧
  (∀ (s : State), s.clocked → s.dev.tcv.inj ≠ 1 → s.dev.tcv.phase = 1 →
      Yields (.muxSettled) s fun d => Frame [] (s.dev.tcvUpd fun t => { t with phase := 2 }) d) ∧
  (∀ (s : State), s.clocked → s.dev.tcv.inj = 1 →
      Yields (.muxSettled) s fun d => Frame [] (s.dev.tcvUpd fun t => { t with inj := 2 }) d) ∧
  (∀ (s : State), s.clocked → s.dev.tcv.inj ≠ 1 → s.dev.tcv.phase ≠ 1 → Yields (.muxSettled) s fun d => Frame [] s.dev d) ∧
  (∀ (raw : TcvRaw) (x : TcvSample) (s : State), s.clocked → s.dev.tcv.inj ≠ 2 → s.dev.tcv.phase = 2 → s.dev.tcv.cal = 0 → s.dev.tcv.cur = some x →
      2 ≤ s.dev.tcv.left → x.scs = true → x.dec = 4 → x.shSinc = 0 → s.dev.tcv.chain = TcvChain.reset → raw.samples.length = 12 → raw.ground.length = 12 →
      s.dev.tcv.queue.length < 512 →
      raw.ovr = some true →
      Yields (.tcvResult raw) s fun d => d.tcv.queue = s.dev.tcv.queue ++
          [x.ch * 2 ^ 26 + s.dev.get pgTCV TCV.STATUS_ENTRY * 2 ^ 21 + 2 ^ 20 + b2n (s.dev.tcv.dip || raw.stale) * 2 ^ 19 + x.prof * 2 ^ 16 + 0x7FFF] ∧
        d.tcv.left = s.dev.tcv.left - 1 ∧ d.tcv.phase = 2 ∧ d.tcv.ovrRun = none ∧ d.tcv.dip = false ∧
        d.get pgTCV TCV.OVR = (s.dev.get pgTCV TCV.OVR + 1) % 2 ^ 48 ∧
        d.get pgTCV TCV.RESULTS = (s.dev.get pgTCV TCV.RESULTS + 1) % 2 ^ 48 ∧ d.raised pgTCV 6) ∧
  (∀ (raw : TcvRaw) (x : TcvSample) (s : State), s.clocked → s.dev.tcv.inj ≠ 2 → s.dev.tcv.phase = 2 → s.dev.tcv.cal = 0 → s.dev.tcv.cur = some x →
      2 ≤ s.dev.tcv.left → x.scs = true → x.dec = 4 → x.shSinc = 0 → s.dev.tcv.chain = TcvChain.reset → raw.samples.length = 12 → raw.ground.length = 12 →
      raw.ovr = none → s.dev.tcv.ovrRun = none → s.dev.tcv.since = 0 →
      Yields (.tcvResult raw) s fun d => d.tcv.queue = s.dev.tcv.queue ++ (if 512 ≤ s.dev.tcv.queue.length then [] else
          [x.ch * 2 ^ 26 + s.dev.get pgTCV TCV.STATUS_ENTRY * 2 ^ 21 + b2n (s.dev.tcv.dip || raw.stale) * 2 ^ 19 + x.prof * 2 ^ 16 +
            sTo 16 (s.dev.tcvCorrect (sat24 (divRound (sincSum 4 (if s.dev.tcvGround x.ch then raw.ground else raw.samples).reverse) 64)))]) ∧
        d.get pgTCV TCV.Q_DROP = (if 512 ≤ s.dev.tcv.queue.length then (s.dev.get pgTCV TCV.Q_DROP + 1) % 2 ^ 48 else s.dev.get pgTCV TCV.Q_DROP) ∧
        (512 ≤ s.dev.tcv.queue.length → d.raised pgTCV 3) ∧
        d.tcv.left = s.dev.tcv.left - 1 ∧ d.get pgTCV TCV.OVR = s.dev.get pgTCV TCV.OVR ∧
        d.get pgTCV TCV.STALE = (s.dev.get pgTCV TCV.STALE + b2n (s.dev.tcv.dip || raw.stale)) % 2 ^ 48 ∧
        d.get pgTCV TCV.RESULTS = (s.dev.get pgTCV TCV.RESULTS + 1) % 2 ^ 48) ∧
  (∀ (raw : TcvRaw) (x : TcvSample) (s : State), s.clocked → s.dev.tcv.inj = 2 → s.dev.tcv.injCur = some x → raw.ovr = none → s.dev.tcv.ovrRun = none →
      s.dev.tcv.queue.length < 512 → x.scs = true → x.dec = 4 → x.shSinc = 0 → s.dev.tcv.chain = TcvChain.reset → raw.samples.length = 12 → raw.ground.length = 12 →
      Yields (.tcvResult raw) s fun d =>
        d.tcv.queue = s.dev.tcv.queue ++ [x.ch * 2 ^ 26 + 31 * 2 ^ 21 + b2n (s.dev.tcv.dip || raw.stale) * 2 ^ 19 + 2 ^ 18 + x.prof * 2 ^ 16 +
          sTo 16 (s.dev.tcvCorrect (sat24 (divRound (sincSum 4 (if s.dev.tcvGround x.ch then raw.ground else raw.samples).reverse) 64)))] ∧
        d.tcv.inj = 0 ∧ d.raised pgTCV 4) ∧
  (∀ (raw : TcvRaw) (s : State), s.clocked → raw.ovr = none → raw.stale = false → raw.samples = [] → raw.ground = [] →
      Yields (.tcvResult raw) s fun d => Frame [] s.dev d) ∧
  (∀ (raw : TcvRaw) (s : State), s.clocked → s.dev.tcv.inj ≠ 2 → s.dev.tcv.phase ≠ 2 →
      Yields (.tcvResult raw) s fun d => Frame [] s.dev d) ∧
  (∀ (s : State), s.clocked → s.dev.tcv.phase = 3 → s.dev.tcv.cal = 0 → s.dev.tcv.inj = 0 → s.dev.get pgTCV TCV.STATUS_REF_READY = 1 →
      Yields (.scanDelayEnd) s fun d => d.get pgTCV TCV.STATUS_ENTRY =
          (if s.dev.get pgTCV TCV.CTL_LAST ≤ s.dev.get pgTCV TCV.STATUS_ENTRY then 0 else (s.dev.get pgTCV TCV.STATUS_ENTRY + 1) % 32) ∧ d.tcv.phase = 1 ∧
        d.get pgTCV TCV.STATUS_IN_DELAY = 0 ∧
        (s.dev.get pgTCV TCV.CTL_LAST ≤ s.dev.get pgTCV TCV.STATUS_ENTRY →
          d.get pgTCV TCV.LOOPS = (s.dev.get pgTCV TCV.LOOPS + 1) % 2 ^ 48 ∧ d.raised pgTCV 9)) ∧
  (∀ (s : State), s.clocked → s.dev.tcv.phase = 3 → s.dev.tcv.cal = 0 → s.dev.tcv.inj ≠ 0 →
      Yields (.scanDelayEnd) s fun d => d.tcv.phase = 4 ∧ d.tcv.cur = s.dev.tcv.cur ∧ d.get pgTCV TCV.STATUS_ENTRY = s.dev.get pgTCV TCV.STATUS_ENTRY ∧
        d.get pgTCV TCV.STATUS_IN_DELAY = 0) ∧
  (∀ (w : Word) (s : State), s.clocked → s.dev.tcvIdle = true → s.dev.tcv.calConv = false →
      Yields (.injGo w) s fun d => d.tcv.inj = 1 ∧ d.get pgTCV TCV.STATUS_INJ_PEND = 1 ∧
        (d.tcv.injCur.map fun x => (x.ch, x.prof)) = some (TCV.INJ_CH.ofWord w.toNat, TCV.INJ_PROFILE.ofWord w.toNat)) ∧
  (∀ (w : Word) (s : State), s.clocked → s.dev.tcvIdle = false ∨ s.dev.tcv.calConv = true →
      Yields (.injGo w) s fun d => d.tcv = s.dev.tcv ∧ d.get pgTCV TCV.INJ_DROP = (s.dev.get pgTCV TCV.INJ_DROP + 1) % 2 ^ 48 ∧ d.raised pgTCV 5) ∧
  (∀ (s : State), s.clocked →
      Yields (.tcvQHeadRead) s fun d => Output.readData (some (s.dev.tcv.queue.headD 0x00040000)) ∈ d.out ∧ d.tcv = { s.dev.tcv with queue := s.dev.tcv.queue.drop 1 } ∧
        d.get pgTCV TCV.Q_STAT_LEVEL = (s.dev.tcv.queue.length - 1) % 2 ^ TCV.Q_STAT_LEVEL.width) ∧
  (∀ (w : Word) (s : State), s.clocked → (w.getLsbD 0 = false → s.dev.get pgTCV TCV.CTL_REF_EN = 0) → w.getLsbD 16 = false →
      TCV.CTL_SCAN_EN.ofWord w.toNat = s.dev.get pgTCV TCV.CTL_SCAN_EN →
      Yields (.qFlush w) s fun d => d.tcv = { s.dev.tcv with queue := [] } ∧ d.get pgTCV TCV.Q_STAT_LEVEL = 0) ∧
  (∀ (w : Word) (s : State), s.clocked → Yields (.qFlush w) s fun d => d.tcv.queue = [] ∧ d.get pgTCV TCV.Q_STAT_LEVEL = 0)

/-- CAL on an idle converter begins a calibration, and waits for the reference; two measurements that agree are its result with their mean, and two that disagree fail it; age with TCV_AUTO, and TCV_START, make a request, which waits while the scan runs and starts at once on a stopped one, and none is made while VREF_OK is 0; the deferral's end starts a waiting request, and does nothing without one; conversions of VREFX and of the hub temperature are kept, or wait on a busy converter; a VREFX beyond 2.0 % clears VREF_OK, and it returns after 4 checks within 1.5 %. A hybrid calibration is started by the host, or by a loud echo or its age with HG_AUTO, and once only; it takes measurements in pairs, two that differ fail the attempt, the eighth pair ends it, and APPLY leads a link to TRAIN with the waiting setting. -/
def Obligations.ConverterCalibration : Prop :=
  (∀ (w : Word) (s : State), s.clocked → (w.getLsbD 0 = false → s.dev.get pgTCV TCV.CTL_REF_EN = 0) → w.getLsbD 17 = false → TCV.CTL_SCAN_EN.ofWord w.toNat = s.dev.get pgTCV TCV.CTL_SCAN_EN →
      s.dev.get pgTCV TCV.STATUS_CAL_BUSY = 0 → s.dev.tcv.inj = 0 → s.dev.tcv.phase = 0 →
      Yields (.cal w) s fun d => d.get pgTCV TCV.STATUS_CAL_BUSY = 1 ∧ d.tcv.cal = (if s.dev.get pgTCV TCV.STATUS_REF_READY = 0 then 1 else 2) ∧ d.tcv.calOwn = false) ∧
  (∀ (o1 o2 g1 g2 : BitVec 16) (s : State), s.clocked → s.dev.tcv.cal = 2 → (o1.toInt - o2.toInt).natAbs ≤ 2 →
      ((g1.toNat : Int) - (g2.toNat : Int)).natAbs * 10000 ≤ g1.toNat + g2.toNat →
      Yields (.calDone o1 o2 g1 g2) s fun d =>
        (2 * sOf 16 (d.get pgTCV TCV.CAL_OFS_OFS) - (o1.toInt + o2.toInt)).natAbs ≤ 1 ∧
        (2 * (d.get pgTCV TCV.CAL_GAIN_GAIN : Int) - ((g1.toNat + g2.toNat : Nat) : Int)).natAbs ≤ 1 ∧
        (o1 = o2 → d.get pgTCV TCV.CAL_OFS_OFS = o1.toNat) ∧ (g1 = g2 → d.get pgTCV TCV.CAL_GAIN_GAIN = g1.toNat) ∧
        d.get pgTCV TCV.CAL_STAT_RESULT = 1 ∧ d.get pgTCV TCV.STATUS_CAL_BUSY = 0 ∧ d.tcv.cal = 0 ∧ d.raised pgTCV 0 ∧
        d.get pgCAL CAL.STATUS_TCV_STALE = 0) ∧
  (∀ (o1 o2 g1 g2 : BitVec 16) (s : State), s.clocked → s.dev.tcv.cal = 2 → s.dev.tcv.calOwn = false →
      2 < (o1.toInt - o2.toInt).natAbs ∨ g1.toNat + g2.toNat < ((g1.toNat : Int) - (g2.toNat : Int)).natAbs * 10000 →
      Yields (.calDone o1 o2 g1 g2) s fun d => d.get pgTCV TCV.CAL_STAT_RESULT = 2 ∧ d.get pgTCV TCV.STATUS_CAL_BUSY = 0 ∧ d.tcv.cal = 0 ∧
        d.get pgTCV TCV.CAL_OFS_OFS = s.dev.get pgTCV TCV.CAL_OFS_OFS ∧ d.get pgTCV TCV.CAL_GAIN_GAIN = s.dev.get pgTCV TCV.CAL_GAIN_GAIN ∧ d.raised pgTCV 1) ∧
  (∀ (s : State), s.clocked → s.dev.get pgCAL CAL.CTL_TCV_AUTO = 1 → s.dev.get pgCAL CAL.STATUS_VREF_OK = 1 → s.dev.get pgCAL CAL.STATUS_TCV_BUSY = 0 →
      clampN 1 60 (s.dev.get pgCAL CAL.CTL_TCV_AGE) * 60000 ≤ s.dev.get pgCAL CAL.TCV_AGE_MS →
      s.dev.get pgCAL CAL.CTL_TCV_IDLE_ONLY = 1 → s.dev.tcv.phase ≠ 0 →
      Yields (.tcvAge) s fun d => d.get pgCAL CAL.STATUS_TCV_BUSY = 1 ∧ d.get pgCAL CAL.TCV_WAIT = 1 ∧ d.get pgCAL CAL.TCV_LAST_TRIES = 0 ∧
        Frame [CAL.STATUS_TCV_BUSY.key pgCAL, CAL.TCV_WAIT.key pgCAL, CAL.TCV_LAST_TRIES.key pgCAL] s.dev d) ∧
  (∀ (s : State), s.clocked → s.dev.get pgCAL CAL.CTL_TCV_AUTO = 0 ∨ s.dev.get pgCAL CAL.STATUS_VREF_OK = 0 ∨
      s.dev.get pgCAL CAL.TCV_AGE_MS < clampN 1 60 (s.dev.get pgCAL CAL.CTL_TCV_AGE) * 60000 →
      Yields (.tcvAge) s fun d => Frame [] s.dev d) ∧
  (∀ (w : Word) (s : State), s.clocked → s.dev.get pgCAL CAL.STATUS_VREF_OK = 1 → s.dev.get pgCAL CAL.STATUS_TCV_BUSY = 0 →
      s.dev.get pgCAL CAL.CTL_TCV_IDLE_ONLY = 1 → s.dev.tcv.phase ≠ 0 →
      Yields (.tcvStart w) s fun d => d.get pgCAL CAL.STATUS_TCV_BUSY = 1 ∧ d.get pgCAL CAL.TCV_WAIT = 1 ∧ (w = 0 → d.hgCal = s.dev.hgCal)) ∧
  (∀ (w : Word) (s : State), s.clocked → s.dev.get pgCAL CAL.STATUS_VREF_OK = 1 → s.dev.get pgCAL CAL.STATUS_TCV_BUSY = 0 →
      s.dev.get pgTCV TCV.STATUS_CAL_BUSY = 0 → s.dev.tcv.phase = 0 → s.dev.tcv.inj = 0 → s.dev.get pgTCV TCV.STATUS_REF_READY = 1 →
      Yields (.tcvStart w) s fun d => d.get pgCAL CAL.STATUS_TCV_BUSY = 1 ∧ d.get pgCAL CAL.TCV_WAIT = 0 ∧ d.tcv.cal = 2 ∧ d.tcv.calOwn = true ∧
        d.get pgTCV TCV.STATUS_CAL_BUSY = 1 ∧ d.get pgCAL CAL.TCV_RUNS = (s.dev.get pgCAL CAL.TCV_RUNS + 1) % 2 ^ 48) ∧
  (∀ (s : State), s.clocked → s.dev.get pgCAL CAL.STATUS_VREF_OK = 0 →
      Yields (.tcvStart 1) s fun d => Frame [] s.dev d) ∧
  (∀ (s : State), s.clocked → s.dev.get pgCAL CAL.TCV_WAIT = 1 → s.dev.get pgTCV TCV.STATUS_CAL_BUSY = 0 →
      Yields (.tcvDeferExp) s fun d => d.get pgCAL CAL.TCV_WAIT = 0 ∧ d.get pgTCV TCV.STATUS_CAL_BUSY = 1 ∧ d.tcv.calOwn = true ∧
        d.get pgCAL CAL.TCV_RUNS = (s.dev.get pgCAL CAL.TCV_RUNS + 1) % 2 ^ 48 ∧ d.raised pgCAL 4) ∧
  (∀ (s : State), s.clocked → s.dev.get pgCAL CAL.TCV_WAIT = 0 → Yields (.tcvDeferExp) s fun d => Frame [] s.dev d) ∧
  (∀ (value : BitVec 16) (s : State), s.clocked → s.dev.tcvIdle = true →
      Yields (.calConversion true value) s fun d => d.get pgCAL CAL.VREF_CODE = value.toNat ∧ d.get pgCAL CAL.VREF_NEW = 1 ∧
        Frame [CAL.VREF_CODE.key pgCAL, CAL.VREF_NEW.key pgCAL] (s.dev.tcvUpd fun t => { t with calConv := false }) d) ∧
  (∀ (value : BitVec 16) (s : State), s.clocked → s.dev.tcvIdle = true → s.dev.get pgCAL CAL.TCV_HAD = 0 →
      Yields (.calConversion false value) s fun d => d.get pgCAL CAL.TEMP = value.toNat ∧
        Frame [CAL.TEMP.key pgCAL] (s.dev.tcvUpd fun t => { t with calConv := false }) d) ∧
  (∀ (value : BitVec 16) (s : State), s.clocked → s.dev.tcvIdle = true → s.dev.get pgCAL CAL.TCV_HAD = 1 → s.dev.get pgCAL CAL.CTL_TCV_AUTO = 0 →
      16 * clampN 5 100 (s.dev.get pgCAL CAL.CTL_TCV_DT) < 10 * (value.toInt - sOf 16 (s.dev.get pgCAL CAL.TCV_LAST_TEMP)).natAbs →
      Yields (.calConversion false value) s fun d => d.get pgCAL CAL.TEMP = value.toNat ∧ d.get pgCAL CAL.STATUS_TCV_STALE ≠ 0) ∧
  (∀ (vref : Bool) (value : BitVec 16) (s : State), s.clocked → s.dev.tcvIdle = false →
      Yields (.calConversion vref value) s fun d => Frame [] (s.dev.tcvUpd fun t => { t with calConv := true }) d) ∧
  (∀ (band : BitVec 16) (s : State), s.clocked → s.dev.get pgCAL CAL.CTL_VREF_CHK = 1 → s.dev.get pgCAL CAL.STATUS_VREF_OK = 1 →
      s.dev.get pgCAL CAL.VREF_NEW = 1 → band ≠ 0 →
      2 * band.toNat < 100 * ((s.dev.get pgCAL CAL.VREF_CODE : Int) - (band.toNat : Int)).natAbs →
      Yields (.vrefCheck band) s fun d => d.get pgCAL CAL.STATUS_VREF_OK = 0 ∧ d.get pgCAL CAL.VREF_NEW = 0 ∧
        d.get pgCAL CAL.VREF_BAD = (s.dev.get pgCAL CAL.VREF_BAD + 1) % 2 ^ 48 ∧ d.raised pgCAL 8) ∧
  (∀ (band : BitVec 16) (s : State), s.clocked → s.dev.get pgCAL CAL.CTL_VREF_CHK = 1 → s.dev.get pgCAL CAL.VREF_NEW = 1 →
      s.dev.get pgCAL CAL.VREF_CODE = band.toNat → band ≠ 0 →
      Yields (.vrefCheck band) s fun d => d.get pgCAL CAL.VREF_DEV = 0 ∧ d.get pgCAL CAL.VREF_BAD = s.dev.get pgCAL CAL.VREF_BAD ∧
        d.get pgCAL CAL.STATUS_VREF_OK = (if s.dev.get pgCAL CAL.STATUS_VREF_OK = 0 ∧ 3 ≤ s.dev.get pgCAL CAL.VREF_GOOD then 1
          else s.dev.get pgCAL CAL.STATUS_VREF_OK) ∧
        (s.dev.get pgCAL CAL.STATUS_VREF_OK = 0 → 3 ≤ s.dev.get pgCAL CAL.VREF_GOOD → d.raised pgCAL 9)) ∧
  (∀ (band : BitVec 16) (s : State), s.clocked → s.dev.get pgCAL CAL.CTL_VREF_CHK = 0 → Yields (.vrefCheck band) s fun d => Frame [] s.dev d) ∧
  (∀ (w : Word) (s : State), s.clocked → w.getLsbD 0 = false →
      Yields (.hgStart w) s fun d => (∀ n : Fin 4, AMap.find? d.hgCal n.val =
          (if w.getLsbD (1 + n.val) ∧ AMap.find? s.dev.hgCal n.val = none then some ⟨0, none, []⟩ else AMap.find? s.dev.hgCal n.val)) ∧
        d.get pgCAL CAL.HG_RUNS = (s.dev.get pgCAL CAL.HG_RUNS +
          ((List.range 4).filter fun n => w.getLsbD (1 + n) && (AMap.find? s.dev.hgCal n).isNone).length) % 2 ^ 48) ∧
  (∀ (n : Fin 4) (echo : BitVec 12) (s : State), s.clocked → s.dev.get pgCAL CAL.CTL_HG_AUTO = 1 → AMap.find? s.dev.hgCal n.val = none →
      sOf 12 (s.dev.get pgCAL CAL.HG_CTL_THR) < echo.toInt ∨
        clampN 1 60 (s.dev.get pgCAL CAL.HG_CTL_AGE) * 60000 ≤ s.dev.get pgCAL (CAL.HG_AGE_MS.at n.val) →
      Yields (.hgEchoTrigger n echo) s fun d => AMap.find? d.hgCal n.val = some ⟨0, none, []⟩ ∧
        d.get pgCAL CAL.HG_RUNS = (s.dev.get pgCAL CAL.HG_RUNS + 1) % 2 ^ 48) ∧
  (∀ (n : Fin 4) (echo : BitVec 12) (s : State), s.clocked → s.dev.get pgCAL CAL.CTL_HG_AUTO = 0 ∨ (AMap.find? s.dev.hgCal n.val).isSome = true ∨
      (echo.toInt ≤ sOf 12 (s.dev.get pgCAL CAL.HG_CTL_THR) ∧
        s.dev.get pgCAL (CAL.HG_AGE_MS.at n.val) < clampN 1 60 (s.dev.get pgCAL CAL.HG_CTL_AGE) * 60000) →
      Yields (.hgEchoTrigger n echo) s fun d => Frame [] s.dev d) ∧
  (∀ (n : Fin 4) (s : State), s.clocked → s.dev.get pgCAL (CAL.HG_PEND.at n.val) = 1 → 2 ≤ s.dev.hgLink n.val →
      Yields (.hgApply (BitVec.ofNat 32 (2 ^ (5 + n.val)))) s fun d => d.hgLink n.val = 1 ∧ d.get pgCAL (CAL.HG_PEND.at n.val) = 0 ∧
        d.get pgCAL (CAL.HG_SEL.at n.val) = s.dev.get pgCAL (CAL.HG_NEXT.at n.val) % 8 ∧
        d.get pgCAL CAL.HG_APPLIED = (s.dev.get pgCAL CAL.HG_APPLIED + 1) % 2 ^ 48 ∧ d.raised pgCAL 7) ∧
  (∀ (n : Fin 4) (s : State), s.clocked → s.dev.get pgCAL (CAL.HG_PEND.at n.val) = 0 ∨ s.dev.hgLink n.val < 2 →
      Yields (.hgApply (BitVec.ofNat 32 (2 ^ (5 + n.val)))) s fun d => Frame [] s.dev d) ∧
  (∀ (n : Fin 4) (echo : BitVec 12) (f : Nat) (sums : List Int) (s : State), s.clocked → AMap.find? s.dev.hgCal n.val = some ⟨f, none, sums⟩ →
      Yields (.hgCalMeasurement n echo) s fun d => Frame [] (s.dev.hgCalSet n.val ⟨f, some echo.toInt, sums⟩) d) ∧
  (∀ (n : Fin 4) (echo : BitVec 12) (f : Nat) (a : Int) (sums : List Int) (s : State), s.clocked → AMap.find? s.dev.hgCal n.val = some ⟨f, some a, sums⟩ →
      (a - echo.toInt).natAbs ≤ 5 → sums.length < 7 →
      Yields (.hgCalMeasurement n echo) s fun d => Frame [] (s.dev.hgCalSet n.val ⟨f, none, sums ++ [a + echo.toInt]⟩) d) ∧
  (∀ (n : Fin 4) (echo : BitVec 12) (f : Nat) (a : Int) (sums : List Int) (s : State), s.clocked → AMap.find? s.dev.hgCal n.val = some ⟨f, some a, sums⟩ →
      5 < (a - echo.toInt).natAbs →
      Yields (.hgCalMeasurement n echo) s fun d => AMap.find? d.hgCal n.val = (if f < 3 then some ⟨f + 1, none, []⟩ else none) ∧
        d.get pgCAL CAL.HG_DISAGREE = (s.dev.get pgCAL CAL.HG_DISAGREE + 1) % 2 ^ 48 ∧
        (3 ≤ f → d.get pgCAL (CAL.HG_SUSPECT.at n.val) = 1 ∧ d.raised pgCAL 6)) ∧
  (∀ (n : Fin 4) (echo : BitVec 12) (f : Nat) (a : Int) (sums : List Int) (s : State), s.clocked → AMap.find? s.dev.hgCal n.val = some ⟨f, some a, sums⟩ →
      (a - echo.toInt).natAbs ≤ 5 → 7 ≤ sums.length →
      Yields (.hgCalMeasurement n echo) s fun d => AMap.find? d.hgCal n.val = none ∧ d.get pgCAL (CAL.HG_SUSPECT.at n.val) = 0 ∧ d.raised pgCAL 5 ∧
        ((sums ++ [a + echo.toInt]).getD (bestSetting (sums ++ [a + echo.toInt])) 0 + 60 ≤
            (sums ++ [a + echo.toInt]).getD (s.dev.get pgCAL (CAL.HG_SEL.at n.val)) 0 →
          d.get pgCAL (CAL.HG_PEND.at n.val) = 1 ∧ d.get pgCAL (CAL.HG_NEXT.at n.val) = bestSetting (sums ++ [a + echo.toInt]) % 8)) ∧
  (∀ (n : Fin 4) (echo : BitVec 12) (s : State), s.clocked → AMap.find? s.dev.hgCal n.val = none →
      Yields (.hgCalMeasurement n echo) s fun d => Frame [] s.dev d)

/-- A core that faults stops and is reported, a stopped one cannot; a changed heartbeat makes the runtime alive, an unchanged one does nothing, and its absence ends that; START takes a halted or faulted engine to CHECK at the end of the checker's line, and under a debug unlock to RUN unchecked; HALT takes a running one to HALT with its offset, RESET an engine of a powered cluster to HALT without events; engines in other states ignore them; the checker runs an engine whose code fits its recipe and halts another with DIGEST, and does nothing without one; a fault of a running engine is shown with its code, offset and event. -/
def Obligations.ManagementCores : Prop :=
  (∀ (core : Fin 4) (s : State), s.clocked → bitOf (s.dev.get pgMGMT MGMT.STATUS_CORE_RUN) core.val = true →
      Yields (.coreFault core) s fun d => bitOf (d.get pgMGMT MGMT.STATUS_CORE_RUN) core.val = false ∧
        bitOf (d.get pgMGMT MGMT.STATUS_CORE_FAULT) core.val = true ∧
        d.get pgMGMT MGMT.CORE_FAULTS = (s.dev.get pgMGMT MGMT.CORE_FAULTS + 1) % 2 ^ 48 ∧ d.raised pgMGMT core.val) ∧
  (∀ (core : Fin 4) (s : State), s.clocked → bitOf (s.dev.get pgMGMT MGMT.STATUS_CORE_RUN) core.val = false →
      Yields (.coreFault core) s fun d => Frame [] s.dev d) ∧
  (∀ (w : Word) (s : State), s.clocked → s.dev.get pgMGMT MGMT.HEARTBEAT_COUNT ≠ w.toNat → s.dev.get pgMGMT MGMT.STATUS_RT_ALIVE = 0 →
      Yields (.mgmtHeartbeat w) s fun d => d.get pgMGMT MGMT.HEARTBEAT_COUNT = w.toNat ∧ d.get pgMGMT MGMT.STATUS_RT_ALIVE = 1 ∧ d.raised pgMGMT 5) ∧
  (∀ (w : Word) (s : State), s.clocked → s.dev.get pgMGMT MGMT.HEARTBEAT_COUNT = w.toNat ∨ s.dev.get pgMGMT MGMT.STATUS_RT_ALIVE = 1 →
      Yields (.mgmtHeartbeat w) s fun d => d.get pgMGMT MGMT.HEARTBEAT_COUNT = w.toNat ∧ Frame [MGMT.HEARTBEAT_COUNT.key pgMGMT] s.dev d) ∧
  (∀ (s : State), s.clocked → s.dev.get pgMGMT MGMT.STATUS_RT_ALIVE = 0 → Yields (.rtDown) s fun d => Frame [] s.dev d) ∧
  (∀ (s : State), s.clocked → s.dev.get pgMGMT MGMT.STATUS_RT_ALIVE = 1 →
      Yields (.rtDown) s fun d => d.get pgMGMT MGMT.STATUS_RT_ALIVE = 0 ∧ d.raised pgMGMT 4 ∧
        d.get pgMGMT MGMT.HB_MISSES = (s.dev.get pgMGMT MGMT.HB_MISSES + 1) % 2 ^ 48) ∧
  (∀ (cluster : Fin 12) (w : Word) (pc : BitVec 14) (k : Nat) (s : State), s.clocked → k = 16 * cluster.val + PIER.CMD_ENG.ofWord w.toNat →
      w.getLsbD 9 = false → w.getLsbD 10 = false → s.dev.engState k = 1 ∨ s.dev.engState k = 4 → s.dev.checksOff = false →
      Yields (.pierStart cluster w pc) s fun d => d.engState k = 2 ∧ k ∈ d.mgmt.checks ∧ d.get pgMGMT MGMT.STATUS_CHECK_BUSY = 1 ∧
        d.get (pgPIER cluster.val) PIER.STARTS = (s.dev.get (pgPIER cluster.val) PIER.STARTS + 1) % 2 ^ 48) ∧
  (∀ (cluster : Fin 12) (w : Word) (pc : BitVec 14) (k : Nat) (s : State), s.clocked → k = 16 * cluster.val + PIER.CMD_ENG.ofWord w.toNat →
      w.getLsbD 9 = false → w.getLsbD 10 = false → s.dev.engState k = 1 ∨ s.dev.engState k = 4 → s.dev.checksOff = true →
      Yields (.pierStart cluster w pc) s fun d => d.engState k = 3 ∧ d.get (engPage k) (PIER.ENG_UNCHECKED.at (k % 16)) = 1 ∧
        bitOf (d.get (pgPIER cluster.val) PIER.STATUS_RUN) (k % 16) = true ∧
        d.get (pgPIER cluster.val) PIER.STARTS = (s.dev.get (pgPIER cluster.val) PIER.STARTS + 1) % 2 ^ 48) ∧
  (∀ (cluster : Fin 12) (w : Word) (pc : BitVec 14) (k : Nat) (s : State), s.clocked → k = 16 * cluster.val + PIER.CMD_ENG.ofWord w.toNat →
      (w.getLsbD 9 = false → w.getLsbD 10 = false → s.dev.engState k ≠ 1 → s.dev.engState k ≠ 4 →
        Yields (.pierStart cluster w pc) s fun d => Frame [] s.dev d) ∧
      (w.getLsbD 8 = false → w.getLsbD 10 = false → s.dev.engState k ≠ 3 → Yields (.pierHalt cluster w pc) s fun d => Frame [] s.dev d) ∧
      (w.getLsbD 8 = false → w.getLsbD 9 = false → s.dev.get (pgPIER cluster.val) PIER.CLUSTER_POWERED = 0 →
        Yields (.pierReset cluster w pc) s fun d => Frame [] s.dev d)) ∧
  (∀ (cluster : Fin 12) (w : Word) (pc : BitVec 14) (k : Nat) (s : State), s.clocked → k = 16 * cluster.val + PIER.CMD_ENG.ofWord w.toNat →
      w.getLsbD 8 = false → w.getLsbD 10 = false → s.dev.engState k = 3 →
      Yields (.pierHalt cluster w pc) s fun d => d.engState k = 1 ∧ d.get (engPage k) (PIER.ENG2_PC.at (k % 16)) = pc.toNat ∧
        bitOf (d.get (pgPIER cluster.val) PIER.STATUS_RUN) (k % 16) = false) ∧
  (∀ (cluster : Fin 12) (w : Word) (pc : BitVec 14) (k : Nat) (s : State), s.clocked → k = 16 * cluster.val + PIER.CMD_ENG.ofWord w.toNat →
      w.getLsbD 8 = false → w.getLsbD 9 = false → s.dev.get (pgPIER cluster.val) PIER.CLUSTER_POWERED = 1 → s.dev.evt.route = [] →
      Yields (.pierReset cluster w pc) s fun d => d.engState k = 1 ∧ d.get (engPage k) (PIER.ENG_FAULT.at (k % 16)) = 0 ∧
        AMap.find? d.evt.evq k = none) ∧
  (∀ (k : Fin 192) (t : List Nat) (s : State), s.clocked → s.dev.mgmt.checks = k.val :: t → s.dev.checksOff = false →
      s.dev.recipe (s.dev.get (engPage k.val) (PIER.ENG1_RECIPE.at (k.val % 16))) = none →
      Yields (.recipeCheckDone) s fun d => d.engState k.val = 1 ∧ d.get (engPage k.val) (PIER.ENG_FAULT.at (k.val % 16)) = 4 ∧
        d.get pgMGMT MGMT.CHECKS = (s.dev.get pgMGMT MGMT.CHECKS + 1) % 2 ^ 48 ∧
        d.get pgMGMT MGMT.CHECK_FAIL = (s.dev.get pgMGMT MGMT.CHECK_FAIL + 1) % 2 ^ 48 ∧ d.get pgMGMT MGMT.CHECK_LAST_PASS = 0 ∧ d.raised pgMGMT 6) ∧
  (∀ (k : Fin 192) (t : List Nat) (r : Recipe) (s : State), s.clocked → s.dev.mgmt.checks = k.val :: t → s.dev.checksOff = false →
      s.dev.recipe (s.dev.get (engPage k.val) (PIER.ENG1_RECIPE.at (k.val % 16))) = some r →
      Yields (.recipeCheckDone) s fun d => d.get pgMGMT MGMT.CHECKS = (s.dev.get pgMGMT MGMT.CHECKS + 1) % 2 ^ 48 ∧
        (r.digest = Config.shake256 (s.dev.codeHalf k.val) 32 → d.engState k.val = 3 ∧ d.get pgMGMT MGMT.CHECK_LAST_PASS = 1 ∧
          d.get (engPage k.val) (PIER.ENG1_VERSION.at (k.val % 16)) = r.version % 2 ^ 16 ∧
          d.get (engPage k.val) (PIER.ENG_UNCHECKED.at (k.val % 16)) = 0) ∧
        (r.digest ≠ Config.shake256 (s.dev.codeHalf k.val) 32 → d.engState k.val = 1 ∧ d.get (engPage k.val) (PIER.ENG_FAULT.at (k.val % 16)) = 4)) ∧
  (∀ (s : State), s.clocked → s.dev.mgmt.checks = [] → Yields (.recipeCheckDone) s fun d => Frame [] s.dev d) ∧
  (∀ (engine : Fin 192) (cause : EngineFault) (pc : BitVec 14) (s : State), s.clocked →
      s.dev.engState engine.val ≠ 3 ∨ (cause = .wdt ∧ s.dev.get (engPage engine.val) PIER.CTL_WDT = 0) →
      Yields (.pierFault engine cause pc) s fun d => Frame [] s.dev d) ∧
  (∀ (engine : Fin 192) (cause : EngineFault) (pc : BitVec 14) (s : State), s.clocked → s.dev.engState engine.val = 3 →
      (cause = .wdt → s.dev.get (engPage engine.val) PIER.CTL_WDT ≠ 0) →
      Yields (.pierFault engine cause pc) s fun d => d.engState engine.val = 4 ∧
        d.get (engPage engine.val) (PIER.ENG_FAULT.at (engine.val % 16)) = engFaultCode cause ∧
        d.get (engPage engine.val) (PIER.ENG2_PC.at (engine.val % 16)) = pc.toNat ∧
        bitOf (d.get (engPage engine.val) PIER.FAULT_ENG) (engine.val % 16) = true ∧
        d.get (engPage engine.val) PIER.FAULTS = (s.dev.get (engPage engine.val) PIER.FAULTS + 1) % 2 ^ 48 ∧ d.raised (engPage engine.val) 0)

/-- A doorbell within 256 of CONSUMED is recorded, one outside stalls the ring, and on a stalled ring one is only recorded; a fetched entry with the next sequence number is consumed and handed on, or completed where its opcode or length is wrong, one with another number stalls, and a fetch that fails waits for its retry; a NOP, LOOP_STOP and NTF_EVENTS first in order complete with their effect, a LOOP_START waits for its check or completes where its engine does not start, and none acts on another command; a notification is written while the ring has room, with WRITTEN advanced, an OVERFLOW in place of discarded ones, a failed write waits, and there is none on a full ring; an acknowledgement is taken; RESYNC runs, refused while one runs, and publishes its snapshot, or ends with a PCIe error; EN is written; a retry that succeeds does what the transfer stood for, and one that fails clears EN with RING_ERR. -/
def Obligations.HostRings : Prop :=
  (∀ (w : Word) (s : State), s.clocked → 0 ≤ diff16 (MBX.CMD_DB_TAIL.ofWord w.toNat) (s.dev.get pgMBX MBX.CMD_CONSUMED_SEQ) →
      diff16 (MBX.CMD_DB_TAIL.ofWord w.toNat) (s.dev.get pgMBX MBX.CMD_CONSUMED_SEQ) ≤ 256 →
      Yields (.mbxCmdDb w) s fun d => d.get pgMBX MBX.CMD_DB_TAIL = MBX.CMD_DB_TAIL.ofWord w.toNat ∧ Frame [MBX.CMD_DB_TAIL.key pgMBX, MBX.DB_OLD.key pgMBX] s.dev d) ∧
  (∀ (w : Word) (s : State), s.clocked → s.dev.get pgMBX MBX.STATUS_CMD_STALL = 0 →
      (diff16 (MBX.CMD_DB_TAIL.ofWord w.toNat) (s.dev.get pgMBX MBX.CMD_CONSUMED_SEQ) < 0 ∨
        256 < diff16 (MBX.CMD_DB_TAIL.ofWord w.toNat) (s.dev.get pgMBX MBX.CMD_CONSUMED_SEQ)) →
      Yields (.mbxCmdDb w) s fun d => d.get pgMBX MBX.STATUS_CMD_STALL = 1 ∧ d.get pgMBX MBX.STATUS_RUN = 0 ∧
        d.get pgMBX MBX.SEQ_ERR = (s.dev.get pgMBX MBX.SEQ_ERR + 1) % 2 ^ 48 ∧ d.raised pgMBX 1) ∧
  (∀ (w : Word) (s : State), s.clocked → s.dev.get pgMBX MBX.STATUS_CMD_STALL = 1 →
      Yields (.mbxCmdDb w) s fun d => d.get pgMBX MBX.CMD_DB_TAIL = MBX.CMD_DB_TAIL.ofWord w.toNat ∧ Frame [MBX.CMD_DB_TAIL.key pgMBX, MBX.DB_OLD.key pgMBX] s.dev d) ∧
  (∀ (headErr : Bool) (s : State), s.clocked → s.dev.fetching = true →
      Yields (.cmdFetchDone none headErr) s fun d => Frame [] (s.dev.mgmtUpd fun m => { m with retry := 1 }) d) ∧
  (∀ (entry : Option (List Byte)) (headErr : Bool) (s : State), s.clocked → s.dev.fetching = false →
      Yields (.cmdFetchDone entry headErr) s fun d => Frame [] s.dev d) ∧
  (∀ (entry : List Byte) (r : Nat) (s : State), s.clocked → s.dev.fetching = true → s.dev.mgmt.cmds = [] →
      pay16 (bytesOf entry) 0 = (s.dev.get pgMBX MBX.CMD_CONSUMED_SEQ + 1) % 2 ^ 16 →
      cmdPreset (pay16 (bytesOf entry) 2) (pay16 (bytesOf entry) 4) = some r →
      Yields (.cmdFetchDone (some entry) false) s fun d => d.get pgMBX MBX.CMD_CONSUMED_SEQ = (s.dev.get pgMBX MBX.CMD_CONSUMED_SEQ + 1) % 2 ^ 16 ∧
        d.get pgMBX MBX.CMDS = (s.dev.get pgMBX MBX.CMDS + 1) % 2 ^ 48 ∧ d.mgmt.cmds = [] ∧
        ⟨1, (s.dev.get pgMBX MBX.CMD_CONSUMED_SEQ + 1) % 2 ^ 16, r, []⟩ ∈ d.mgmt.ntf) ∧
  (∀ (entry : List Byte) (s : State), s.clocked → s.dev.fetching = true → s.dev.mgmt.cmds = [] →
      pay16 (bytesOf entry) 0 = (s.dev.get pgMBX MBX.CMD_CONSUMED_SEQ + 1) % 2 ^ 16 →
      cmdPreset (pay16 (bytesOf entry) 2) (pay16 (bytesOf entry) 4) = none →
      Yields (.cmdFetchDone (some entry) false) s fun d => d.get pgMBX MBX.CMD_CONSUMED_SEQ = (s.dev.get pgMBX MBX.CMD_CONSUMED_SEQ + 1) % 2 ^ 16 ∧
        d.get pgMBX MBX.CMDS = (s.dev.get pgMBX MBX.CMDS + 1) % 2 ^ 48 ∧
        d.mgmt.cmds = [⟨(s.dev.get pgMBX MBX.CMD_CONSUMED_SEQ + 1) % 2 ^ 16, pay16 (bytesOf entry) 2,
          ((bytesOf entry).drop 8).take (pay16 (bytesOf entry) 4), none, false⟩]) ∧
  (∀ (entry : List Byte) (headErr : Bool) (s : State), s.clocked → s.dev.fetching = true →
      pay16 (bytesOf entry) 0 ≠ (s.dev.get pgMBX MBX.CMD_CONSUMED_SEQ + 1) % 2 ^ 16 →
      Yields (.cmdFetchDone (some entry) headErr) s fun d => d.get pgMBX MBX.STATUS_CMD_STALL = 1 ∧ d.mgmt.cmds = s.dev.mgmt.cmds ∧
        d.get pgMBX MBX.CMD_CONSUMED_SEQ = s.dev.get pgMBX MBX.CMD_CONSUMED_SEQ ∧ d.raised pgMBX 1) ∧
  (∀ (c : RingCmd) (s : State), s.clocked → s.dev.mgmt.cmds = [c] → c.op = 1 → c.started = false →
      Yields (.nop) s fun d => d.mgmt.cmds = [] ∧ ⟨1, c.seq, 0, []⟩ ∈ d.mgmt.ntf) ∧
  (∀ (c : RingCmd) (s : State), s.clocked → s.dev.mgmt.cmds = [c] → c.op = 4 → c.started = false → pay16 c.payload 0 < 192 →
      s.dev.engState (pay16 c.payload 0) = 1 → s.dev.checksOff = false →
      Yields (.loopStart) s fun d => d.engState (pay16 c.payload 0) = 2 ∧ d.mgmt.cmds = [{ c with started := true }] ∧
        d.get (engPage (pay16 c.payload 0)) (PIER.ENG1_RECIPE.at (pay16 c.payload 0 % 16)) = pay16 c.payload 2 % 2 ^ 16) ∧
  (∀ (c : RingCmd) (s : State), s.clocked → s.dev.mgmt.cmds = [c] → c.op = 4 → c.started = false → pay16 c.payload 0 < 192 →
      s.dev.engState (pay16 c.payload 0) ≠ 1 → s.dev.engState (pay16 c.payload 0) ≠ 2 → s.dev.engState (pay16 c.payload 0) ≠ 4 →
      Yields (.loopStart) s fun d => d.engState (pay16 c.payload 0) = s.dev.engState (pay16 c.payload 0) ∧ d.mgmt.cmds = [] ∧
        ⟨1, c.seq, (if s.dev.engState (pay16 c.payload 0) = 3 then 0 else 3), [s.dev.engState (pay16 c.payload 0),
          s.dev.get (engPage (pay16 c.payload 0)) (PIER.ENG_FAULT.at (pay16 c.payload 0 % 16))]⟩ ∈ d.mgmt.ntf) ∧
  (∀ (pc : BitVec 14) (c : RingCmd) (s : State), s.clocked → s.dev.mgmt.cmds = [c] → c.started = false → 192 ≤ pay16 c.payload 0 →
      (c.op = 4 → Yields (.loopStart) s fun d => d.mgmt.cmds = [] ∧ (∃ n ∈ d.mgmt.ntf, n.typ = 1 ∧ n.ref = c.seq)) ∧
      (c.op = 5 → Yields (.loopStop pc) s fun d => d.mgmt.cmds = [] ∧ (∃ n ∈ d.mgmt.ntf, n.typ = 1 ∧ n.ref = c.seq))) ∧
  (∀ (pc : BitVec 14) (c : RingCmd) (s : State), s.clocked → s.dev.mgmt.cmds = [c] → c.op = 5 → c.started = false → pay16 c.payload 0 < 192 →
      s.dev.engState (pay16 c.payload 0) ≠ 3 →
      Yields (.loopStop pc) s fun d => d.mgmt.cmds = [] ∧ ⟨1, c.seq, 0, [s.dev.engState (pay16 c.payload 0)]⟩ ∈ d.mgmt.ntf) ∧
  (∀ (pc : BitVec 14) (s : State), s.clocked →
      (s.dev.mgmt.cmds.head?.all (fun (c : RingCmd) => c.op != 1 || c.started) = true → Yields (.nop) s fun d => Frame [] s.dev d) ∧
      (s.dev.mgmt.cmds.head?.all (fun (c : RingCmd) => c.op != 4 || c.started) = true → Yields (.loopStart) s fun d => Frame [] s.dev d) ∧
      (s.dev.mgmt.cmds.head?.all (fun (c : RingCmd) => c.op != 5 || c.started) = true → Yields (.loopStop pc) s fun d => Frame [] s.dev d) ∧
      (s.dev.mgmt.cmds.head?.all (fun (c : RingCmd) => c.op != 6 || c.started) = true → Yields (.ntfEvents) s fun d => Frame [] s.dev d)) ∧
  (∀ (pc : BitVec 14) (c : RingCmd) (s : State), s.clocked → s.dev.mgmt.cmds = [c] → c.op = 5 → c.started = false → pay16 c.payload 0 < 192 →
      s.dev.engState (pay16 c.payload 0) = 3 →
      Yields (.loopStop pc) s fun d => d.engState (pay16 c.payload 0) = 1 ∧ d.mgmt.cmds = [] ∧ ⟨1, c.seq, 0, [1]⟩ ∈ d.mgmt.ntf) ∧
  (∀ (c : RingCmd) (s : State), s.clocked → s.dev.mgmt.cmds = [c] → c.op = 6 → c.started = false →
      Yields (.ntfEvents) s fun d => d.mgmt.groups = (pay32 c.payload 0 + 2 ^ 32 * pay32 c.payload 4) % 2 ^ 36 ∧ d.mgmt.cmds = [] ∧
        ⟨1, c.seq, 0, []⟩ ∈ d.mgmt.ntf) ∧
  (∀ (n : Ntf) (t : List Ntf) (s : State), s.clocked → s.dev.mgmt.ntf = n :: t → s.dev.mgmt.lost = 0 → s.dev.mgmt.retry = 0 → s.dev.mgmt.groups = 0 →
      s.dev.ntfRoom ≠ 0 →
      Yields (.ntf .none) s fun d => d.mgmt.ntf = t ∧ d.get pgMBX MBX.NTF_WRITTEN_SEQ = (s.dev.get pgMBX MBX.NTF_WRITTEN_SEQ + 1) % 2 ^ 16 ∧
        d.get pgMBX MBX.NTFS = (s.dev.get pgMBX MBX.NTFS + 1) % 2 ^ 48 ∧ (n.typ = 1 → d.get pgMBX MBX.CMD_DONE_SEQ = n.ref % 2 ^ 16) ∧
        Output.hostWrite (s.dev.ringBase MBX.NTF_BASE_LO_BASE MBX.NTF_BASE_HI_BASE + 32 * ((s.dev.get pgMBX MBX.NTF_WRITTEN_SEQ + 1) % 2 ^ 16 % 1024))
          (n.bytes ((s.dev.get pgMBX MBX.NTF_WRITTEN_SEQ + 1) % 2 ^ 16)) ∈ d.out) ∧
  (∀ (s : State), s.clocked → s.dev.mgmt.lost ≠ 0 → s.dev.mgmt.lost < 2 ^ 16 → s.dev.mgmt.retry = 0 → s.dev.mgmt.groups = 0 → s.dev.ntfRoom ≠ 0 →
      Yields (.ntf .none) s fun d => d.mgmt.ntf = s.dev.mgmt.ntf ∧ d.mgmt.lost = 0 ∧
        d.get pgMBX MBX.NTF_WRITTEN_SEQ = (s.dev.get pgMBX MBX.NTF_WRITTEN_SEQ + 1) % 2 ^ 16 ∧
        Output.hostWrite (s.dev.ringBase MBX.NTF_BASE_LO_BASE MBX.NTF_BASE_HI_BASE + 32 * ((s.dev.get pgMBX MBX.NTF_WRITTEN_SEQ + 1) % 2 ^ 16 % 1024))
          ((⟨3, s.dev.mgmt.lost, 0, []⟩ : Ntf).bytes ((s.dev.get pgMBX MBX.NTF_WRITTEN_SEQ + 1) % 2 ^ 16)) ∈ d.out) ∧
  (∀ (s : State), s.clocked → s.dev.mgmt.lost ≠ 0 ∨ s.dev.mgmt.ntf ≠ [] → s.dev.mgmt.retry = 0 → s.dev.ntfRoom ≠ 0 →
      Yields (.ntf .entry) s fun d => Frame [] (s.dev.mgmtUpd fun m => { m with retry := 2 }) d) ∧
  (∀ (s : State), s.clocked → s.dev.mgmt.ntf ≠ [] → s.dev.mgmt.lost = 0 → s.dev.mgmt.retry = 0 → s.dev.ntfRoom ≠ 0 → s.dev.get pgMBX MBX.CTL_EN = 1 →
      Yields (.ntf .head) s fun d => d.mgmt.retry = 3 ∧ d.get pgMBX MBX.NTF_WRITTEN_SEQ = (s.dev.get pgMBX MBX.NTF_WRITTEN_SEQ + 1) % 2 ^ 16) ∧
  (∀ (err : RingErr) (s : State), s.clocked → s.dev.ntfRoom = 0 ∨ s.dev.mgmt.retry ≠ 0 ∨ (s.dev.mgmt.lost = 0 ∧ s.dev.mgmt.ntf = []) →
      Yields (.ntf err) s fun d => Frame [] s.dev d) ∧
  (∀ (w : Word) (s : State), s.clocked → Yields (.mbxNtfAck w) s fun d => d.get pgMBX MBX.NTF_ACK_SEQ = w.toNat % 2 ^ 16) ∧
  (∀ (w : Word) (s : State), s.clocked → s.dev.get pgMBX MBX.STATUS_RESYNC_BUSY = 0 →
      Yields (.resyncGo w) s fun d => d.get pgMBX MBX.STATUS_RESYNC_BUSY = 1 ∧ d.get pgMBX MBX.STATUS_RUN = 0 ∧
        d.mgmt.resync = some (s.dev.ringBase MBX.RESYNC_ADDR_LO_ADDR MBX.RESYNC_ADDR_HI_ADDR)) ∧
  (∀ (w : Word) (s : State), s.clocked → s.dev.get pgMBX MBX.STATUS_RESYNC_BUSY = 1 →
      Yields (.resyncGo w) s fun d => d.get pgMBX MBX.RESYNC_STAT_RESULT = 3 ∧ Frame [MBX.RESYNC_STAT_RESULT.key pgMBX] s.dev d) ∧
  (∀ (a : Nat) (s : State), s.clocked → s.dev.mgmt.resync = some a → s.dev.executing = false →
      Yields (.resyncDone false) s fun d => d.mgmt.resync = none ∧ d.get pgMBX MBX.STATUS_RESYNC_BUSY = 0 ∧ d.get pgMBX MBX.RESYNC_STAT_RESULT = 2 ∧
        d.get pgMBX MBX.RESYNCS = s.dev.get pgMBX MBX.RESYNCS ∧ d.get pgMBX MBX.RING_ERR = (s.dev.get pgMBX MBX.RING_ERR + 1) % 2 ^ 48) ∧
  (∀ (ok : Bool) (s : State), s.clocked → s.dev.mgmt.resync = none ∨ s.dev.executing = true →
      Yields (.resyncDone ok) s fun d => Frame [] s.dev d) ∧
  (∀ (a : Nat) (s : State), s.clocked → s.dev.mgmt.resync = some a → s.dev.executing = false →
      Yields (.resyncDone true) s fun d => d.mgmt.resync = none ∧ d.get pgMBX MBX.STATUS_RESYNC_BUSY = 0 ∧ d.get pgMBX MBX.RESYNC_STAT_RESULT = 1 ∧
        d.get pgMBX MBX.RESYNCS = (s.dev.get pgMBX MBX.RESYNCS + 1) % 2 ^ 48 ∧ d.raised pgMBX 4 ∧ Output.hostWrite a s.dev.snapshot ∈ d.out) ∧
  (∀ (w : Word) (s : State), s.clocked → Yields (.mbxEn w) s fun d => d.get pgMBX MBX.CTL_EN = 1 ∧
        d.get pgMBX MBX.CTL_COALESCE = MBX.CTL_COALESCE.ofWord (w ||| 1).toNat) ∧
  (∀ (entry : List Byte) (headErr : Bool) (s : State), s.clocked → s.dev.mgmt.retry ≠ 0 →
      Yields (.ringRetry false entry headErr) s fun d => d.get pgMBX MBX.CTL_EN = 0 ∧ d.get pgMBX MBX.STATUS_RUN = 0 ∧ d.mgmt.retry = 0 ∧
        d.get pgMBX MBX.RING_ERR = (s.dev.get pgMBX MBX.RING_ERR + 1) % 2 ^ 48 ∧ d.raised pgMBX 6) ∧
  (∀ (ok : Bool) (entry : List Byte) (headErr : Bool) (s : State), s.clocked → s.dev.mgmt.retry = 0 →
      Yields (.ringRetry ok entry headErr) s fun d => Frame [] s.dev d) ∧
  (∀ (entry : List Byte) (headErr : Bool) (s : State), s.clocked → s.dev.mgmt.retry = 1 → s.dev.get pgMBX MBX.STATUS_RUN = 1 → s.dev.mgmt.cmds = [] →
      pay16 (bytesOf entry) 0 = (s.dev.get pgMBX MBX.CMD_CONSUMED_SEQ + 1) % 2 ^ 16 →
      Yields (.ringRetry true entry headErr) s fun d => d.get pgMBX MBX.CMD_CONSUMED_SEQ = (s.dev.get pgMBX MBX.CMD_CONSUMED_SEQ + 1) % 2 ^ 16 ∧
        d.get pgMBX MBX.CMDS = (s.dev.get pgMBX MBX.CMDS + 1) % 2 ^ 48) ∧
  (∀ (entry : List Byte) (headErr : Bool) (n : Ntf) (t : List Ntf) (s : State), s.clocked → s.dev.mgmt.retry = 2 → s.dev.get pgMBX MBX.CTL_EN = 1 →
      s.dev.mgmt.ntf = n :: t → s.dev.mgmt.lost = 0 → s.dev.mgmt.groups = 0 →
      Yields (.ringRetry true entry headErr) s fun d => d.mgmt.ntf = t ∧ d.get pgMBX MBX.NTF_WRITTEN_SEQ = (s.dev.get pgMBX MBX.NTF_WRITTEN_SEQ + 1) % 2 ^ 16) ∧
  (∀ (entry : List Byte) (headErr : Bool) (s : State), s.clocked → s.dev.mgmt.retry = 3 → s.dev.get pgMBX MBX.CTL_EN = 1 →
      Yields (.ringRetry true entry headErr) s fun d => d.mgmt.retry = 0 ∧
        Output.hostWrite (s.dev.ringBase MBX.HEAD_BASE_LO_BASE MBX.HEAD_BASE_HI_BASE)
          ((beBytes 2 (s.dev.get pgMBX MBX.CMD_CONSUMED_SEQ)).reverse ++ (beBytes 2 (s.dev.get pgMBX MBX.CMD_DONE_SEQ)).reverse ++
            (beBytes 2 (s.dev.get pgMBX MBX.NTF_WRITTEN_SEQ)).reverse ++ (beBytes 2 (s.dev.get pgMBX MBX.RESYNC_STAT_COUNT)).reverse ++
            List.replicate 8 0) ∈ d.out ∧ Frame [] (s.dev.mgmtUpd fun m => { m with retry := 0 }) d)

/-- A training trains a QDR channel or takes it offline, with its event; the hub's fill shows FILL_DONE on every trained channel and raises its event, once; a line die whose fill ends becomes ready when its truss link is up, waits for the link otherwise, and a gated or held die does not fill; the oldest merge entry of a controller drains, a whole word being written with clean check bits and a part of a clean word merged over it, nothing else in memory; a scrub of a clean word changes no byte and counts, of any memory, a word with one wrong data bit is written back corrected and counted, an uncorrectable one is poisoned, its data kept, and a scrub that is off does nothing; a leak takes one from a bucket's level; a second with more link errors than LINK_THR raises its event; RETRAIN clears TRAINED and keeps the data. -/
def Obligations.MemoryControllers : Prop :=
  (∀ (q : Fin 2) (ok : Bool) (s : State), s.clocked →
      Yields (.trainDone q ok) s fun d => d.get (pgQMC q) QMC.STATUS_TRAINED = b2n ok ∧ d.get (pgQMC q) QMC.STATUS_OFFLINE = b2n (!ok) ∧
        d.raised (pgQMC q) (if ok then 0 else 1) ∧
        Frame [QMC.STATUS_TRAINED.key (pgQMC q), QMC.STATUS_OFFLINE.key (pgQMC q)] s.dev d) ∧
  (∀ (s : State), s.clocked → s.dev.get pgECC ECC.STATUS_FILL_DONE = 0 →
      Yields (.fillDone) s fun d => d.get pgECC ECC.STATUS_FILL_DONE = 1 ∧ d.raised pgECC 0 ∧
        d.get (pgQMC 0) QMC.STATUS_FILL_DONE = b2n (s.dev.flag (pgQMC 0) QMC.STATUS_TRAINED) ∧
        d.get (pgQMC 1) QMC.STATUS_FILL_DONE = b2n (s.dev.flag (pgQMC 1) QMC.STATUS_TRAINED)) ∧
  (∀ (s : State), s.clocked → s.dev.get pgECC ECC.STATUS_FILL_DONE = 1 → Yields (.fillDone) s fun d => Frame [] s.dev d) ∧
  (∀ (p : Port) (s : State), s.clocked → s.dev.flag (pgLDSYS p) LDSYS.GATED = true ∨ s.dev.flag (pgLDSYS p) LDSYS.HELD = true →
      Yields (.ldFillDone p) s fun d => Frame [] s.dev d) ∧
  (∀ (p : Port) (s : State), s.clocked → s.dev.flag (pgLDSYS p) LDSYS.GATED = false → s.dev.flag (pgLDSYS p) LDSYS.HELD = false →
      s.dev.get (pgTRS p) TRS.STATUS_LINK_UP = 1 → s.dev.online p = false →
      Yields (.ldFillDone p) s fun d => d.get (pgLDSYS p) LDSYS.STATUS_FILL_DONE = 1 ∧ d.online p = true ∧
        d.get (pgLDSYS p) LDSYS.STATUS_PLL_LOCK = 1 ∧ d.raised (pgLDSYS p) 2 ∧ d.get (pgLFR p) LFR.STATUS_SDEF = 1 ∧
        bitOf (d.get pgSYS SYS.STATUS_LD_READY) p.val = true) ∧
  (∀ (p : Port) (s : State), s.clocked → s.dev.flag (pgLDSYS p) LDSYS.GATED = false → s.dev.flag (pgLDSYS p) LDSYS.HELD = false →
      s.dev.get (pgTRS p) TRS.STATUS_LINK_UP = 0 →
      Yields (.ldFillDone p) s fun d => d.get (pgLDSYS p) LDSYS.STATUS_FILL_DONE = 1 ∧ Frame [LDSYS.STATUS_FILL_DONE.key (pgLDSYS p)] s.dev d) ∧
  (∀ (ctrl : Fin 3) (s : State), s.clocked → (s.dev.merge.filter fun e => e.ctrl == ctrl.val) = [] →
      Yields (.mergeDrain ctrl) s fun d => Frame [] s.dev d) ∧
  (∀ (ctrl : Fin 3) (e : MergeEntry) (t : List MergeEntry) (s : State), s.clocked → (s.dev.merge.filter fun e => e.ctrl == ctrl.val) = e :: t →
      e.mask = 0xFF → e.data < 2 ^ 64 →
      Yields (.mergeDrain ctrl) s fun d => d.merge = s.dev.merge.filter (· != e) ∧ d.wordData (ctrlMem ctrl.val) e.word = e.data ∧
        d.wordSyn (ctrlMem ctrl.val) e.word = 0 ∧ memKept s.dev d (wordAddr (ctrlMem ctrl.val) e.word) 8) ∧
  (∀ (ctrl : Fin 3) (e : MergeEntry) (t : List MergeEntry) (s : State), s.clocked → (s.dev.merge.filter fun e => e.ctrl == ctrl.val) = e :: t →
      e.mask ≠ 0xFF → s.dev.wordSyn (ctrlMem ctrl.val) e.word = 0 →
      Yields (.mergeDrain ctrl) s fun d => d.merge = s.dev.merge.filter (· != e) ∧
        d.wordData (ctrlMem ctrl.val) e.word = mergeBytes (s.dev.wordData (ctrlMem ctrl.val) e.word) e.mask e.data % 2 ^ 64 ∧
        d.wordSyn (ctrlMem ctrl.val) e.word = 0 ∧ memKept s.dev d (wordAddr (ctrlMem ctrl.val) e.word) 8) ∧
  (∀ (b : Fin 13) (word : BitVec 23) (last : Bool) (w : Nat) (s : State), s.clocked →
      w = (if b.val = 1 ∨ b.val = 2 then s.dev.get (eccPort b.val).pg QMC.SCRUB_POS_WORD else word.toNat) →
      s.dev.get pgECC (if b.val = 1 ∨ b.val = 2 then ECC.CTL_QDR_SCRUB else ECC.CTL_SRAM_SCRUB) ≠ 0 →
      (5 ≤ b.val → s.dev.online (if b.val < 9 then 0 else 1) = true) → s.dev.wordSyn (bucketWord b.val w).1 (bucketWord b.val w).2 = 0 →
      Yields (.scrubRead b word ⟨0, 0, 0⟩ last) s fun d => memKept s.dev d 0 0 ∧ d.syn = s.dev.syn ∧
        (b.val = 1 ∨ b.val = 2 → d.get (eccPort b.val).pg QMC.SCRUB_WORDS = (s.dev.get (eccPort b.val).pg QMC.SCRUB_WORDS + 1) % 2 ^ 48 ∧
          d.get (eccPort b.val).pg QMC.SCRUB_POS_WORD = (w + 1) % 2 ^ 21 ∧ (w + 1 = 2 ^ 21 → d.raised (eccPort b.val).pg 7)) ∧
        (b.val ≠ 1 → b.val ≠ 2 → d.get pgECC ECC.SCRUB_WORDS = (s.dev.get pgECC ECC.SCRUB_WORDS + 1) % 2 ^ 48 ∧
          (last = true → d.raised (eccPort b.val).pg (eccPort b.val).pass))) ∧
  (∀ (b : Fin 13) (word : BitVec 23) (x : Upset) (last : Bool) (s : State), s.clocked →
      s.dev.get pgECC (if b.val = 1 ∨ b.val = 2 then ECC.CTL_QDR_SCRUB else ECC.CTL_SRAM_SCRUB) = 0 ∨
        (5 ≤ b.val ∧ s.dev.online (if b.val < 9 then 0 else 1) = false) →
      Yields (.scrubRead b word x last) s fun d => Frame [] s.dev d) ∧
  (∀ (word : BitVec 23) (last : Bool) (s : State), s.clocked → s.dev.get pgECC ECC.CTL_SRAM_SCRUB ≠ 0 → s.dev.wordSyn 2 word.toNat = 0 →
      Yields (.scrubRead 0 word ⟨0, 0, 0⟩ last) s fun d => d.get pgECC ECC.SCRUB_WORDS = (s.dev.get pgECC ECC.SCRUB_WORDS + 1) % 2 ^ 48 ∧
        (last = true → d.raised pgECC 7) ∧ memKept s.dev d 0 0 ∧ Frame [ECC.SCRUB_WORDS.key pgECC] s.dev d) ∧
  (∀ (word : BitVec 23) (x : BitVec 72) (i : Fin 64) (last : Bool) (s : State), s.clocked → s.dev.get pgECC ECC.CTL_SRAM_SCRUB ≠ 0 → s.dev.wordSyn 2 word.toNat = 0 →
      s.dev.wordData 2 word.toNat < 2 ^ 64 → x.toNat = 2 ^ i.val →
      Yields (.scrubRead 0 word ⟨x, 0, 0⟩ last) s fun d => d.wordData 2 word.toNat = s.dev.wordData 2 word.toNat ∧
        d.wordSyn 2 word.toNat = 0 ∧ d.get pgECC ECC.CE = (s.dev.get pgECC ECC.CE + 1) % 2 ^ 48 ∧
        d.get pgECC ECC.CE_ADDR_WORD = word.toNat ∧ d.get pgECC ECC.CE_INFO_SYND = eccCols.getD i.val 0 ∧
        memKept s.dev d (wordAddr 2 word.toNat) 8) ∧
  (∀ (word : BitVec 23) (x : BitVec 72) (last : Bool) (s : State), s.clocked → s.dev.get pgECC ECC.CTL_SRAM_SCRUB ≠ 0 → s.dev.wordSyn 2 word.toNat = 0 →
      eccClass (flipSyn x.toNat) = 3 →
      Yields (.scrubRead 0 word ⟨x, 0, 0⟩ last) s fun d => d.wordSyn 2 word.toNat = 0xFF ∧
        d.wordData 2 word.toNat = (s.dev.wordData 2 word.toNat ^^^ x.toNat % 2 ^ 64) % 2 ^ 64 ∧
        d.get pgECC ECC.UE = (s.dev.get pgECC ECC.UE + 1) % 2 ^ 48 ∧ d.get pgECC ECC.POISONED = (s.dev.get pgECC ECC.POISONED + 1) % 2 ^ 48 ∧
        d.get pgECC ECC.UE_INFO_KIND = 1 ∧ d.raised pgECC 4 ∧ memKept s.dev d (wordAddr 2 word.toNat) 8) ∧
  (∀ (b : Fin 13) (s : State), s.clocked →
      Yields (.leak b) s fun d => d.get pgECC (ECC.BKT_LEVEL.at b.val) = (s.dev.get pgECC (ECC.BKT_LEVEL.at b.val) - 1) % 2 ^ 5 ∧
        Frame [(ECC.BKT_LEVEL.at b.val).key pgECC] s.dev d) ∧
  (∀ (q : Fin 2) (s : State), s.clocked →
      Yields (.qmcLinkWindow q) s fun d =>
        (s.dev.get (pgQMC q) QMC.CTL_LINK_THR < (s.dev.get (pgQMC q) QMC.LINK_ERR + 2 ^ 48 - s.dev.get (pgQMC q) QMC.LINK_LAST) % 2 ^ 48 →
          d.raised (pgQMC q) 5) ∧
        d.get (pgQMC q) QMC.LINK_LAST = s.dev.get (pgQMC q) QMC.LINK_ERR % 2 ^ 48 ∧ Frame [QMC.LINK_LAST.key (pgQMC q)] s.dev d) ∧
  (∀ (q : Fin 2) (w : Word) (s : State), s.clocked →
      Yields (.qmcRetrain q w) s fun d => d.get (pgQMC q) QMC.STATUS_TRAINED = 0 ∧ d.get (pgQMC q) QMC.CTL_LINK_THR = QMC.CTL_LINK_THR.ofWord w.toNat ∧
        Frame [QMC.STATUS_TRAINED.key (pgQMC q), QMC.CTL_LINK_THR.key (pgQMC q)] s.dev d)

/-- A BAR2 read of a clean word returns it, whole or the half the offset names, and changes no byte; with no merge entry it returns zero between the windows, and zero with an event before the fill; a poisoned word of the hub SRAM and any word of an offline channel complete without data. A write between the windows or to an offline channel does nothing, one before the fill raises an event, one to the hub SRAM of an owner image in transfer is refused and counted; a write of a whole word stores it with clean check bits; a narrow write to the hub SRAM or a QDR channel enters the merge buffer with its mask and leaves memory alone; a narrow one to a clean word of a stopped engine's code changes just its bytes, and one to a running engine's code is dropped and counted. WRITE_RAW stores data and check bits as given; READ_RAW shows data, check bits, syndrome and class; both do nothing for the reserved memory. -/
def Obligations.MemoryWindows : Prop :=
  (∀ (off : BitVec 26) (wide : Bool) (x : Upset) (s : State), s.clocked → s.dev.merge = [] → s.dev.bar2Place off.toNat = none →
      Yields (.bar2Read off wide x) s fun d => Output.readData (some 0) ∈ d.out ∧ Frame [] s.dev d) ∧
  (∀ (off : BitVec 26) (wide : Bool) (x : Upset) (m a : Nat) (s : State), s.clocked → s.dev.bar2Place off.toNat = some (m, a) →
      s.dev.filled m a = false → s.dev.qmOffline m = false → s.dev.merge = [] →
      Yields (.bar2Read off wide x) s fun d => Output.readData (some 0) ∈ d.out ∧ d.raised pgECC 1 ∧ Frame [] s.dev d) ∧
  (∀ (off : BitVec 26) (wide : Bool) (m a : Nat) (s : State), s.clocked → s.dev.bar2Place off.toNat = some (m, a) →
      s.dev.filled m a = true → s.dev.qmOffline m = false → s.dev.merge = [] → s.dev.wordSyn m (a / 8) = 0 →
      Yields (.bar2Read off wide ⟨0, 0, 0⟩) s fun d =>
        Output.readData (some (if wide then s.dev.wordData m (a / 8) else s.dev.wordData m (a / 8) / 2 ^ (if a % 8 < 4 then 0 else 32) % 2 ^ 32)) ∈ d.out ∧
        memKept s.dev d 0 0 ∧ Frame (if m < 2 then [QMC.READS.key (0x20 + m), (PERFW.bits false (36 + m)).key pgPERFW] else []) s.dev d) ∧
  (∀ (off : BitVec 26) (be : BitVec 8) (data : BitVec 64) (wide : Bool) (x : Upset) (m a : Nat) (s : State), s.clocked →
      s.dev.bar2Place off.toNat = some (m, a) → s.dev.qmOffline m = true →
      (s.dev.merge = [] → Yields (.bar2Read off wide x) s fun d => Output.readData none ∈ d.out ∧ Frame [] s.dev d) ∧
      Yields (.bar2Write off be data) s fun d => Frame [] s.dev d) ∧
  (∀ (off : BitVec 26) (be : BitVec 8) (data : BitVec 64) (a : Nat) (s : State), s.clocked →
      s.dev.bar2Place off.toNat = some (2, a) → s.dev.filled 2 a = true → s.dev.get pgKSMB KSMB.BOOT_STATE = 5 →
      Yields (.bar2Write off be data) s fun d => d.get pgKSMB KSMB.REFUSED = (s.dev.get pgKSMB KSMB.REFUSED + 1) % 2 ^ 48 ∧
        Frame [KSMB.REFUSED.key pgKSMB] s.dev d) ∧
  (∀ (off : BitVec 26) (wide : Bool) (a : Nat) (s : State), s.clocked → s.dev.bar2Place off.toNat = some (2, a) →
      s.dev.filled 2 a = true → s.dev.merge = [] → s.dev.wordSyn 2 (a / 8) = 0xFF →
      Yields (.bar2Read off wide ⟨0, 0, 0⟩) s fun d => Output.readData none ∈ d.out ∧ d.raised pgECC 6 ∧ Frame [] s.dev d) ∧
  (∀ (off : BitVec 26) (be : BitVec 8) (data : BitVec 64) (s : State), s.clocked → s.dev.bar2Place off.toNat = none →
      Yields (.bar2Write off be data) s fun d => Frame [] s.dev d) ∧
  (∀ (off : BitVec 26) (be : BitVec 8) (data : BitVec 64) (m a : Nat) (s : State), s.clocked → s.dev.bar2Place off.toNat = some (m, a) →
      s.dev.filled m a = false → s.dev.qmOffline m = false →
      Yields (.bar2Write off be data) s fun d => d.raised pgECC 1 ∧ memKept s.dev d 0 0 ∧ Frame [] s.dev d) ∧
  (∀ (off : BitVec 26) (data : BitVec 64) (m a : Nat) (s : State), s.clocked → s.dev.bar2Place off.toNat = some (m, a) → m < 3 →
      s.dev.filled m a = true → s.dev.qmOffline m = false → s.dev.get pgKSMB KSMB.BOOT_STATE ≠ 5 →
      (∀ e ∈ s.dev.merge, ¬(ctrlMem e.ctrl = m ∧ e.word = a / 8)) →
      Yields (.bar2Write off 0xFF data) s fun d => d.wordData m (a / 8) = data.toNat ∧ d.wordSyn m (a / 8) = 0 ∧ d.merge = s.dev.merge ∧
        memKept s.dev d (wordAddr m (a / 8)) 8) ∧
  (∀ (off : BitVec 26) (be : BitVec 8) (data : BitVec 64) (m a c : Nat) (s : State), s.clocked → s.dev.bar2Place off.toNat = some (m, a) →
      memCtrl m = some c → s.dev.filled m a = true → s.dev.qmOffline m = false → (m = 2 → s.dev.get pgKSMB KSMB.BOOT_STATE ≠ 5) → be ≠ 0 → be ≠ 0xFF →
      (s.dev.merge.filter fun e => e.ctrl == c).length < 8 → (∀ e ∈ s.dev.merge, ¬(e.ctrl = c ∧ e.word = a / 8)) →
      Yields (.bar2Write off be data) s fun d => d.merge = s.dev.merge ++ [⟨c, a / 8, be.toNat, mergeBytes 0 be.toNat data.toNat, 0⟩] ∧
        memKept s.dev d 0 0 ∧ Frame [] { s.dev with merge := d.merge } d) ∧
  (∀ (off : BitVec 26) (be : BitVec 8) (data : BitVec 64) (m a c : Nat) (e : MergeEntry) (s : State), s.clocked → s.dev.bar2Place off.toNat = some (m, a) →
      memCtrl m = some c → s.dev.filled m a = true → s.dev.qmOffline m = false → (m = 2 → s.dev.get pgKSMB KSMB.BOOT_STATE ≠ 5) → be ≠ 0 → be ≠ 0xFF →
      s.dev.merge = [e] → e.ctrl = c → e.word = a / 8 →
      Yields (.bar2Write off be data) s fun d => d.merge = [⟨c, a / 8, e.mask ||| be.toNat, mergeBytes e.data be.toNat data.toNat, 0⟩] ∧
        memKept s.dev d 0 0 ∧ Frame [] { s.dev with merge := d.merge } d) ∧
  (∀ (off : BitVec 26) (be : BitVec 8) (data : BitVec 64) (a : Nat) (s : State), s.clocked → s.dev.bar2Place off.toNat = some (3, a) →
      s.dev.filled 3 a = true → be ≠ 0 → s.dev.engState (a / 32768) ≠ 2 → s.dev.engState (a / 32768) ≠ 3 → s.dev.wordSyn 3 (a / 8) = 0 →
      Yields (.bar2Write off be data) s fun d => d.wordData 3 (a / 8) = mergeBytes (s.dev.wordData 3 (a / 8)) be.toNat data.toNat % 2 ^ 64 ∧
        memKept s.dev d (wordAddr 3 (a / 8)) 8) ∧
  (∀ (off : BitVec 26) (be : BitVec 8) (data : BitVec 64) (a : Nat) (s : State), s.clocked → s.dev.bar2Place off.toNat = some (3, a) →
      s.dev.filled 3 a = true → be ≠ 0 → a / 8 % 4096 < 2048 → s.dev.engState (a / 32768) = 3 →
      Yields (.bar2Write off be data) s fun d => memKept s.dev d 0 0 ∧
        d.get (engPage (a / 32768)) PIER.CODE_WR_DROP = (s.dev.get (engPage (a / 32768)) PIER.CODE_WR_DROP + 1) % 2 ^ 48) ∧
  (∀ (w : Word) (a : Nat) (s : State), s.clocked → w.getLsbD 1 = false → s.dev.get pgECC ECC.TEST_ADDR_MEM = 0 → s.dev.merge = [] →
      a = s.dev.get pgECC ECC.TEST_ADDR_WORD % 2 ^ 23 →
      Yields (.writeRaw w) s fun d => d.wordData 2 a = s.dev.getLH pgECC ECC.TEST_DATA_LO_DATA ECC.TEST_DATA_HI_DATA % 2 ^ 64 ∧
        d.wordSyn 2 a = eccCheck (s.dev.getLH pgECC ECC.TEST_DATA_LO_DATA ECC.TEST_DATA_HI_DATA) ^^^ s.dev.get pgECC ECC.TEST_CHK_CHK ∧
        memKept s.dev d (wordAddr 2 a) 8 ∧ Frame [] { s.dev with mem := d.mem, syn := d.syn } d) ∧
  (∀ (w : Word) (m a : Nat) (s : State), s.clocked → w.getLsbD 1 = false → s.dev.get pgECC ECC.TEST_ADDR_MEM = m + 1 → m < 2 → s.dev.merge = [] →
      a = s.dev.get pgECC ECC.TEST_ADDR_WORD % 2 ^ 21 →
      Yields (.writeRaw w) s fun d => d.wordData m a = s.dev.getLH pgECC ECC.TEST_DATA_LO_DATA ECC.TEST_DATA_HI_DATA % 2 ^ 64 ∧
        d.wordSyn m a = eccCheck (s.dev.getLH pgECC ECC.TEST_DATA_LO_DATA ECC.TEST_DATA_HI_DATA) ^^^ s.dev.get pgECC ECC.TEST_CHK_CHK ∧
        memKept s.dev d (wordAddr m a) 8 ∧ Frame [] { s.dev with mem := d.mem, syn := d.syn } d) ∧
  (∀ (w : Word) (m a : Nat) (s : State), s.clocked → w.getLsbD 0 = false → s.dev.get pgECC ECC.TEST_ADDR_MEM = m + 1 → m < 2 → s.dev.merge = [] →
      a = s.dev.get pgECC ECC.TEST_ADDR_WORD % 2 ^ 21 → s.dev.wordSyn m a < 2 ^ 8 →
      Yields (.readRaw w) s fun d => d.getLH pgECC ECC.TEST_RD_LO_DATA ECC.TEST_RD_HI_DATA = s.dev.wordData m a ∧
        d.get pgECC ECC.TEST_RD_CHK_CHK = (eccCheck (s.dev.wordData m a) ^^^ s.dev.wordSyn m a) % 2 ^ 8 ∧ d.get pgECC ECC.TEST_RD_CHK_SYND = s.dev.wordSyn m a ∧
        d.get pgECC ECC.TEST_RD_CHK_CLASS = eccClass (s.dev.wordSyn m a)) ∧
  (∀ (w : Word) (s : State), s.clocked → s.dev.get pgECC ECC.TEST_ADDR_MEM = 3 →
      Yields (.writeRaw w) s (fun d => Frame [] s.dev d) ∧ Yields (.readRaw w) s fun d => Frame [] s.dev d) ∧
  (∀ (w : Word) (a : Nat) (s : State), s.clocked → w.getLsbD 0 = false → s.dev.get pgECC ECC.TEST_ADDR_MEM = 0 → s.dev.merge = [] →
      a = s.dev.get pgECC ECC.TEST_ADDR_WORD % 2 ^ 23 → s.dev.wordSyn 2 a < 2 ^ 8 →
      Yields (.readRaw w) s fun d => d.getLH pgECC ECC.TEST_RD_LO_DATA ECC.TEST_RD_HI_DATA = s.dev.wordData 2 a ∧
        d.get pgECC ECC.TEST_RD_CHK_CHK = (eccCheck (s.dev.wordData 2 a) ^^^ s.dev.wordSyn 2 a) % 2 ^ 8 ∧ d.get pgECC ECC.TEST_RD_CHK_SYND = s.dev.wordSyn 2 a ∧
        d.get pgECC ECC.TEST_RD_CHK_CLASS = eccClass (s.dev.wordSyn 2 a) ∧
        Frame [ECC.TEST_RD_LO_DATA.key pgECC, ECC.TEST_RD_HI_DATA.key pgECC, ECC.TEST_RD_CHK_CHK.key pgECC, ECC.TEST_RD_CHK_SYND.key pgECC, ECC.TEST_RD_CHK_CLASS.key pgECC] s.dev d)

/-- A good flit on a module that is up is counted, adds its bits to the bandwidth of its direction and ends a row of failures; a bad one, of CRC or FIFO parity, is counted, awaited again and replayed; the fourth failure in a row takes the module down on both pages, with one replay and one failover; a flit of a module that is not up does nothing; a lane above LANE_THR in a second takes its module down; a module that trains comes up with its replaced lanes, or fails when the repair is refused or exceeds two lanes of a half, and one that is up, failed, gated or held does not train; RETRAIN takes the thresholds, lets a failed module train again and takes an up one through a failover. -/
def Obligations.TrussLinks : Prop :=
  (∀ (p : Port) (toLine : Bool) (m : Fin 3) (g : Nat) (s : State), s.clocked → g = (if toLine then pgTRSL p else pgTRS p) → s.dev.get g (TRS.MOD_STATE.at m.val) = 2 →
      Yields (.trussFlit p toLine m none) s fun d => d.get g TRS.FLITS = (s.dev.get g TRS.FLITS + 1) % 2 ^ 48 ∧ d.get g (TRS.streak m.val) = 0 ∧
        d.get pgPERFW (PERFW.bits toLine (34 + p.val)) = (s.dev.get pgPERFW (PERFW.bits toLine (34 + p.val)) + 2048) % 2 ^ 48 ∧
        Frame [TRS.FLITS.key g, (TRS.streak m.val).key g, (PERFW.bits toLine (34 + p.val)).key pgPERFW] s.dev d) ∧
  (∀ (p : Port) (toLine : Bool) (m : Fin 3) (g : Nat) (s : State), s.clocked → g = (if toLine then pgTRSL p else pgTRS p) → s.dev.get g (TRS.MOD_STATE.at m.val) = 2 →
      s.dev.get g (TRS.streak m.val) < 3 →
      Yields (.trussFlit p toLine m (some .crc)) s fun d => d.get g TRS.CRC_ERR = (s.dev.get g TRS.CRC_ERR + 1) % 2 ^ 48 ∧
        d.get g TRS.REPLAYS = (s.dev.get g TRS.REPLAYS + 1) % 2 ^ 48 ∧ d.get g (TRS.streak m.val) = s.dev.get g (TRS.streak m.val) + 1 ∧
        Frame [TRS.CRC_ERR.key g, TRS.REPLAYS.key g, (TRS.streak m.val).key g] s.dev d) ∧
  (∀ (p : Port) (toLine : Bool) (m : Fin 3) (bad : Option FlitFault) (s : State), s.clocked →
      s.dev.get (if toLine then pgTRSL p else pgTRS p) (TRS.MOD_STATE.at m.val) ≠ 2 →
      Yields (.trussFlit p toLine m bad) s fun d => Frame [] s.dev d) ∧
  (∀ (p : Port) (toLine : Bool) (m : Fin 3) (g : Nat) (s : State), s.clocked → g = (if toLine then pgTRSL p else pgTRS p) → s.dev.get g (TRS.MOD_STATE.at m.val) = 2 →
      s.dev.get g (TRS.streak m.val) < 3 →
      Yields (.trussFlit p toLine m (some .parity)) s fun d => d.get g TRS.CRC_ERR = (s.dev.get g TRS.CRC_ERR + 1) % 2 ^ 48 ∧
        d.get g TRS.REPLAYS = (s.dev.get g TRS.REPLAYS + 1) % 2 ^ 48 ∧ d.get g (TRS.streak m.val) = s.dev.get g (TRS.streak m.val) + 1 ∧
        d.get pgECC ECC.PAR_FIFO = (if toLine then s.dev.get pgECC ECC.PAR_FIFO else (s.dev.get pgECC ECC.PAR_FIFO + 1) % 2 ^ 48)) ∧
  (∀ (p : Port) (m : Fin 3) (bad : FlitFault) (s : State), s.clocked → s.dev.get (pgTRS p) (TRS.MOD_STATE.at m.val) = 2 →
      s.dev.get (pgTRS p) (TRS.streak m.val) = 3 →
      Yields (.trussFlit p false m (some bad)) s fun d => d.get (pgTRS p) (TRS.MOD_STATE.at m.val) = 1 ∧ d.get (pgTRSL p) (TRS.MOD_STATE.at m.val) = 1 ∧
        d.get (pgTRS p) TRS.FAILOVERS = (s.dev.get (pgTRS p) TRS.FAILOVERS + 1) % 2 ^ 48 ∧ d.get (pgTRS p) TRS.REPLAYS = (s.dev.get (pgTRS p) TRS.REPLAYS + 1) % 2 ^ 48 ∧
        d.get (pgTRS p) TRS.CRC_ERR = (s.dev.get (pgTRS p) TRS.CRC_ERR + 1) % 2 ^ 48 ∧ d.raised (pgTRS p) 0 ∧ d.raised (pgTRS p) 7 ∧
        bitOf (d.get (pgTRS p) TRS.STATUS_MOD_UP) m.val = false ∧ d.get (pgTRS p) TRS.STATUS_LINK_UP = 0) ∧
  (∀ (p : Port) (m : Fin 3) (bad : FlitFault) (s : State), s.clocked → s.dev.get (pgTRSL p) (TRS.MOD_STATE.at m.val) = 2 →
      s.dev.get (pgTRS p) (TRS.MOD_STATE.at m.val) = 2 → s.dev.get (pgTRSL p) (TRS.streak m.val) = 3 →
      Yields (.trussFlit p true m (some bad)) s fun d => d.get (pgTRS p) (TRS.MOD_STATE.at m.val) = 1 ∧ d.get (pgTRSL p) (TRS.MOD_STATE.at m.val) = 1 ∧
        d.get (pgTRSL p) TRS.FAILOVERS = (s.dev.get (pgTRSL p) TRS.FAILOVERS + 1) % 2 ^ 48 ∧ d.raised (pgTRSL p) 0 ∧ d.raised (pgTRSL p) 7) ∧
  (∀ (p : Port) (toLine : Bool) (m : Fin 3) (worst total : BitVec 32) (g : Nat) (s : State), s.clocked → g = (if toLine then pgTRSL p else pgTRS p) →
      m ≠ 0 → worst.toNat ≤ s.dev.get g TRS.CTL_LANE_THR →
      Yields (.trussLaneWindow p toLine m worst total) s fun d => d.get g TRS.PAR_ERR = (s.dev.get g TRS.PAR_ERR + total.toNat) % 2 ^ 48 ∧
        Frame [TRS.PAR_ERR.key g] s.dev d) ∧
  (∀ (p : Port) (toLine : Bool) (m : Fin 3) (worst total : BitVec 32) (s : State), s.clocked → m ≠ 0 → s.dev.get (pgTRS p) (TRS.MOD_STATE.at m.val) = 2 →
      s.dev.get (if toLine then pgTRSL p else pgTRS p) TRS.CTL_LANE_THR < worst.toNat →
      Yields (.trussLaneWindow p toLine m worst total) s fun d => d.get (pgTRS p) (TRS.MOD_STATE.at m.val) = 1 ∧
        d.get (pgTRSL p) (TRS.MOD_STATE.at m.val) = 1 ∧ d.raised (pgTRS p) 0 ∧ d.raised (pgTRSL p) 0) ∧
  (∀ (p : Port) (m : Fin 3) (s : State), s.clocked → s.dev.get (pgTRS p) (TRS.MOD_STATE.at m.val) < 2 →
      s.dev.flag (pgLDSYS p) LDSYS.GATED = false → s.dev.flag (pgLDSYS p) LDSYS.HELD = false →
      s.dev.get (pgTRS p) (TRS.MOD_REP_LO.at m.val) ≤ 2 → s.dev.get (pgTRS p) (TRS.MOD_REP_HI.at m.val) ≤ 2 →
      s.dev.get (pgTRSL p) (TRS.MOD_REP_LO.at m.val) ≤ 2 → s.dev.get (pgTRSL p) (TRS.MOD_REP_HI.at m.val) ≤ 2 →
      Yields (.modUp p m true 0 0) s fun d => d.get (pgTRS p) (TRS.MOD_STATE.at m.val) = 2 ∧ d.get (pgTRSL p) (TRS.MOD_STATE.at m.val) = 2 ∧
        bitOf (d.get (pgTRS p) TRS.STATUS_MOD_UP) m.val = true ∧ d.raised (pgTRS p) 1 ∧ d.raised (pgTRSL p) 1) ∧
  (∀ (p : Port) (m : Fin 3) (hub line : BitVec 4) (s : State), s.clocked → s.dev.get (pgTRS p) (TRS.MOD_STATE.at m.val) < 2 →
      s.dev.flag (pgLDSYS p) LDSYS.GATED = false → s.dev.flag (pgLDSYS p) LDSYS.HELD = false →
      s.dev.get (pgTRS p) TRS.CTL_AUTO_REPAIR = 1 → s.dev.get (pgTRSL p) TRS.CTL_AUTO_REPAIR = 1 →
      s.dev.get (pgTRS p) (TRS.MOD_REP_LO.at m.val) = 0 → s.dev.get (pgTRS p) (TRS.MOD_REP_HI.at m.val) = 0 →
      s.dev.get (pgTRSL p) (TRS.MOD_REP_LO.at m.val) = 0 → s.dev.get (pgTRSL p) (TRS.MOD_REP_HI.at m.val) = 0 →
      Yields (.modUp p m true hub line) s fun d =>
        (hub.toNat % 4 ≤ 2 → hub.toNat / 4 ≤ 2 → line.toNat % 4 ≤ 2 → line.toNat / 4 ≤ 2 → d.get (pgTRS p) (TRS.MOD_STATE.at m.val) = 2 ∧
          d.get (pgTRS p) (TRS.MOD_REP_LO.at m.val) = hub.toNat % 4 ∧ d.get (pgTRS p) (TRS.MOD_REP_HI.at m.val) = hub.toNat / 4 ∧
          d.get (pgTRSL p) (TRS.MOD_REP_LO.at m.val) = line.toNat % 4 ∧ d.get (pgTRSL p) (TRS.MOD_REP_HI.at m.val) = line.toNat / 4 ∧
          d.get (pgTRS p) TRS.REPAIRS = (s.dev.get (pgTRS p) TRS.REPAIRS + hub.toNat % 4 + hub.toNat / 4) % 2 ^ 48) ∧
        (2 < hub.toNat % 4 ∨ 2 < hub.toNat / 4 ∨ 2 < line.toNat % 4 ∨ 2 < line.toNat / 4 →
          d.get (pgTRS p) (TRS.MOD_STATE.at m.val) = 3 ∧ d.get (pgTRSL p) (TRS.MOD_STATE.at m.val) = 3 ∧ d.raised (pgTRS p) 3)) ∧
  (∀ (p : Port) (m : Fin 3) (ok : Bool) (hub line : BitVec 4) (s : State), s.clocked →
      2 ≤ s.dev.get (pgTRS p) (TRS.MOD_STATE.at m.val) ∨ s.dev.flag (pgLDSYS p) LDSYS.GATED = true ∨ s.dev.flag (pgLDSYS p) LDSYS.HELD = true →
      Yields (.modUp p m ok hub line) s fun d => Frame [] s.dev d) ∧
  (∀ (p : Port) (m : Fin 3) (hub line : BitVec 4) (s : State), s.clocked → s.dev.get (pgTRS p) (TRS.MOD_STATE.at m.val) < 2 →
      s.dev.flag (pgLDSYS p) LDSYS.GATED = false → s.dev.flag (pgLDSYS p) LDSYS.HELD = false →
      Yields (.modUp p m false hub line) s fun d => d.get (pgTRS p) (TRS.MOD_STATE.at m.val) = 3 ∧ d.get (pgTRSL p) (TRS.MOD_STATE.at m.val) = 3 ∧
        d.raised (pgTRS p) 3) ∧
  (∀ (p : Port) (w : Word) (s : State), s.clocked → w.getLsbD 20 = false → w.getLsbD 21 = true → w.getLsbD 22 = false →
      s.dev.get (pgTRS p) (TRS.MOD_STATE.at 1) = 3 → s.dev.flag (pgLDSYS p) LDSYS.GATED = false → s.dev.flag (pgLDSYS p) LDSYS.HELD = false →
      Yields (.trsRetrain p false w) s fun d => d.get (pgTRS p) (TRS.MOD_STATE.at 1) = 1 ∧ d.get (pgTRSL p) (TRS.MOD_STATE.at 1) = 1 ∧
        d.get (pgTRS p) TRS.CTL_LANE_THR = TRS.CTL_LANE_THR.ofWord w.toNat ∧ d.get (pgTRS p) TRS.CTL_CRC_THR = TRS.CTL_CRC_THR.ofWord w.toNat) ∧
  (∀ (p : Port) (w : Word) (s : State), s.clocked → s.dev.online p = true → w.getLsbD 20 = false → w.getLsbD 21 = true → w.getLsbD 22 = false →
      s.dev.get (pgTRSL p) (TRS.MOD_STATE.at 1) = 2 → s.dev.get (pgTRS p) (TRS.MOD_STATE.at 1) = 2 →
      Yields (.trsRetrain p true w) s fun d => d.get (pgTRS p) (TRS.MOD_STATE.at 1) = 1 ∧ d.get (pgTRSL p) (TRS.MOD_STATE.at 1) = 1 ∧
        d.get (pgTRSL p) TRS.CTL_LANE_THR = TRS.CTL_LANE_THR.ofWord w.toNat ∧
        d.get (pgTRSL p) TRS.FAILOVERS = (s.dev.get (pgTRSL p) TRS.FAILOVERS + 1) % 2 ^ 48)

/-- A START on an idle channel whose set passes the checks runs it from byte 0; a set that fails is refused with its code and event and the channel stays idle; one on a channel that is not idle, or before the fill, starts nothing; START_SHD takes every field of the armed shadow set and starts it, and does nothing where none is armed; ABORT drains a running channel, frees a halted one, and leaves others; DISARM and SHD_ARM write the arming bit alone; a set word is taken while the channel is idle, one of the shadow set while it is not armed, and ignored with WR_IGN otherwise; a drained channel reports ABORTED. A soft reset with every channel idle returns every field of the page to reset, and drains a running channel first. -/
def Obligations.DmaControl : Prop :=
  (∀ (c : Fin 8) (w : Word) (s : State), s.clocked → w.getLsbD 1 = false → w.getLsbD 2 = false → w.getLsbD 3 = false → w.getLsbD 8 = false →
      s.dev.get pgECC ECC.STATUS_FILL_DONE = 1 → s.dev.dmaGet c.val DMA.STAT_STATE = 0 → (s.dev.dmaSet c.val).refuse = 0 → s.dev.flag pgDMA DMA.RST_PEND = false →
      Yields (.dmaStart c w) s fun d => d.dmaGet c.val DMA.STAT_STATE = 1 ∧ d.dmaPos c.val = 0 ∧ d.dmaGet c.val DMA.STAT_RESULT = 0 ∧
        d.dmaGet c.val DMA.STAT_SHD_TAKEN = 0 ∧ bitOf (d.get pgDMA DMA.STATUS_BUSY) c.val = true ∧ d.dmaSet c.val = s.dev.dmaSet c.val) ∧
  (∀ (c : Fin 8) (w : Word) (s : State), s.clocked → w.getLsbD 1 = false → w.getLsbD 2 = false → w.getLsbD 3 = false → w.getLsbD 8 = false →
      s.dev.get pgECC ECC.STATUS_FILL_DONE = 1 → s.dev.dmaGet c.val DMA.STAT_STATE = 0 → (s.dev.dmaSet c.val).refuse ≠ 0 → s.dev.flag pgDMA DMA.RST_PEND = false →
      Yields (.dmaStart c w) s fun d => d.dmaGet c.val DMA.STAT_RESULT = (s.dev.dmaSet c.val).refuse ∧ d.raised pgDMA (24 + c.val) ∧
        Frame [(DMA.STAT_RESULT.at c.val).key pgDMA, (DMA.STAT_SHD_TAKEN.at c.val).key pgDMA] s.dev d) ∧
  (∀ (c : Fin 8) (w : Word) (s : State), s.clocked → w.getLsbD 1 = false → w.getLsbD 2 = false → w.getLsbD 3 = false → w.getLsbD 8 = false →
      s.dev.dmaGet c.val DMA.STAT_STATE ≠ 0 → s.dev.flag pgDMA DMA.RST_PEND = false →
      Yields (.dmaStart c w) s fun d => Frame [] s.dev d) ∧
  (∀ (c : Fin 8) (w : Word) (s : State), s.clocked → w.getLsbD 1 = false → w.getLsbD 2 = false → w.getLsbD 3 = false → w.getLsbD 8 = false →
      s.dev.get pgECC ECC.STATUS_FILL_DONE = 0 → s.dev.flag pgDMA DMA.RST_PEND = false →
      Yields (.dmaStart c w) s fun d => d.dmaGet c.val DMA.STAT_STATE = s.dev.dmaGet c.val DMA.STAT_STATE ∧ Frame [(DMA.STAT_SHD_TAKEN.at c.val).key pgDMA] s.dev d) ∧
  (∀ (c : Fin 8) (w : Word) (s : State), s.clocked → w.getLsbD 0 = false → w.getLsbD 2 = false → w.getLsbD 3 = false → w.getLsbD 8 = false →
      s.dev.dmaGet c.val DMA.STAT_STATE ≠ 0 ∨ s.dev.dmaGet c.val DMA.CTL_SHD_ARM = 0 → s.dev.flag pgDMA DMA.RST_PEND = false →
      Yields (.startShd c w) s fun d => Frame [] s.dev d) ∧
  (∀ (c : Fin 8) (w : Word) (s : State), s.clocked → w.getLsbD 0 = false → w.getLsbD 1 = false → w.getLsbD 3 = false → w.getLsbD 8 = false →
      s.dev.dmaGet c.val DMA.STAT_STATE ≠ 1 → s.dev.dmaGet c.val DMA.STAT_STATE ≠ 4 → s.dev.flag pgDMA DMA.RST_PEND = false →
      Yields (.abort c w) s fun d => Frame [] s.dev d) ∧
  (∀ (c : Fin 8) (w : Word) (s : State), s.clocked → w.getLsbD 0 = false → w.getLsbD 2 = false → w.getLsbD 3 = false → w.getLsbD 8 = false →
      s.dev.get pgECC ECC.STATUS_FILL_DONE = 1 → s.dev.dmaGet c.val DMA.STAT_STATE = 0 → s.dev.dmaGet c.val DMA.CTL_SHD_ARM = 1 → s.dev.flag pgDMA DMA.RST_PEND = false →
      Yields (.startShd c w) s fun d => (∀ r ∈ dmaFields, ∀ f ∈ r.1.zip r.2, d.dmaGet c.val f.1 = s.dev.dmaGet c.val f.2 % 2 ^ f.1.width) ∧
        d.dmaGet c.val DMA.CTL_SHD_ARM = 0 ∧ d.dmaGet c.val DMA.STAT_SHD_TAKEN = 1 ∧
        ((d.dmaSet c.val).refuse = 0 → d.dmaGet c.val DMA.STAT_STATE = 1) ∧
        ((d.dmaSet c.val).refuse ≠ 0 → d.dmaGet c.val DMA.STAT_RESULT = (d.dmaSet c.val).refuse ∧ d.raised pgDMA (24 + c.val))) ∧
  (∀ (c : Fin 8) (w : Word) (s : State), s.clocked → w.getLsbD 0 = false → w.getLsbD 1 = false → w.getLsbD 3 = false → w.getLsbD 8 = false →
      s.dev.dmaGet c.val DMA.STAT_STATE = 1 → s.dev.flag pgDMA DMA.RST_PEND = false →
      Yields (.abort c w) s fun d => d.dmaGet c.val DMA.STAT_STATE = 2 ∧ d.dmaHeld c.val = [] ∧ bitOf (d.get pgDMA DMA.STATUS_BUSY) c.val = true ∧
        Frame [(DMA.STAT_STATE.at c.val).key pgDMA, DMA.STATUS_BUSY.key pgDMA, DMA.STATUS_HALTED.key pgDMA, (DMA.waiting c.val).key pgDMA] { s.dev with dmaBuf := AMap.erase s.dev.dmaBuf c.val } d) ∧
  (∀ (c : Fin 8) (w : Word) (s : State), s.clocked → w.getLsbD 0 = false → w.getLsbD 1 = false → w.getLsbD 3 = false → w.getLsbD 8 = false →
      s.dev.dmaGet c.val DMA.STAT_STATE = 4 → s.dev.flag pgDMA DMA.RST_PEND = false →
      Yields (.abort c w) s fun d => d.dmaGet c.val DMA.STAT_STATE = 0 ∧ bitOf (d.get pgDMA DMA.STATUS_HALTED) c.val = false ∧
        Frame [(DMA.STAT_STATE.at c.val).key pgDMA, DMA.STATUS_BUSY.key pgDMA, DMA.STATUS_HALTED.key pgDMA] s.dev d) ∧
  (∀ (c : Fin 8) (w : Word) (s : State), s.clocked → w.getLsbD 0 = false → w.getLsbD 1 = false → w.getLsbD 2 = false → w.getLsbD 8 = false →
      s.dev.flag pgDMA DMA.RST_PEND = false →
      Yields (.disarm c w) s fun d => d.dmaGet c.val DMA.CTL_SHD_ARM = 0 ∧ Frame [(DMA.CTL_SHD_ARM.at c.val).key pgDMA] s.dev d) ∧
  (∀ (c : Fin 8) (w : Word) (s : State), s.clocked → w.getLsbD 0 = false → w.getLsbD 1 = false → w.getLsbD 2 = false → w.getLsbD 3 = false →
      s.dev.flag pgDMA DMA.RST_PEND = false →
      Yields (.shdArm c w) s fun d => d.dmaGet c.val DMA.CTL_SHD_ARM = 1 ∧ Frame [(DMA.CTL_SHD_ARM.at c.val).key pgDMA] s.dev d) ∧
  (∀ (c : Fin 8) (r : Fin 11) (w : Word) (fs : List Fld × List Fld) (s : State), s.clocked → dmaFields[r.val]? = some fs → s.dev.dmaGet c.val DMA.STAT_STATE = 0 →
      Yields (.dmaSetWrite c false r w) s fun d => (∀ f ∈ fs.1, d.dmaGet c.val f = f.ofWord w.toNat) ∧ Frame (fs.1.map fun f => (f.at c.val).key pgDMA) s.dev d) ∧
  (∀ (c : Fin 8) (r : Fin 11) (w : Word) (fs : List Fld × List Fld) (s : State), s.clocked → dmaFields[r.val]? = some fs → s.dev.dmaGet c.val DMA.CTL_SHD_ARM = 0 →
      Yields (.dmaSetWrite c true r w) s fun d => (∀ f ∈ fs.2, d.dmaGet c.val f = f.ofWord w.toNat) ∧ Frame (fs.2.map fun f => (f.at c.val).key pgDMA) s.dev d) ∧
  (∀ (c : Fin 8) (r : Fin 11) (w : Word) (s : State), s.clocked → s.dev.dmaGet c.val DMA.STAT_STATE ≠ 0 →
      Yields (.dmaSetWrite c false r w) s fun d => d.dmaGet c.val DMA.STAT_WR_IGN = 1 ∧ Frame [(DMA.STAT_WR_IGN.at c.val).key pgDMA] s.dev d) ∧
  (∀ (c : Fin 8) (r : Fin 11) (w : Word) (s : State), s.clocked → s.dev.dmaGet c.val DMA.CTL_SHD_ARM = 1 →
      Yields (.dmaSetWrite c true r w) s fun d => d.dmaGet c.val DMA.STAT_WR_IGN = 1 ∧ Frame [(DMA.STAT_WR_IGN.at c.val).key pgDMA] s.dev d) ∧
  (∀ (c : Fin 8) (s : State), s.clocked → s.dev.dmaGet c.val DMA.STAT_STATE ≠ 2 → Yields (.dmaDrainDone c) s fun d => Frame [] s.dev d) ∧
  (∀ (c : Fin 8) (s : State), s.clocked → s.dev.dmaGet c.val DMA.STAT_STATE = 2 → s.dev.flag pgDMA DMA.RST_PEND = false →
      Yields (.dmaDrainDone c) s fun d => d.dmaGet c.val DMA.STAT_STATE = 0 ∧ d.dmaGet c.val DMA.STAT_RESULT = 2 ∧ d.raised pgDMA (8 + c.val) ∧
        bitOf (d.get pgDMA DMA.STATUS_BUSY) c.val = false) ∧
  (∀ (s : State), s.clocked → s.dev.get pgDMA DMA.STATUS_BUSY = 0 → (∀ c : Fin 8, s.dev.dmaGet c.val DMA.STAT_STATE = 0) →
      Yields (.dmaSoftRst) s fun d => (∀ e ∈ d.regs, keyPage e.1 ≠ pgDMA) ∧ (∀ e ∈ d.evt.sticky, e.1 / 64 ≠ pgDMA)) ∧
  (∀ (c : Fin 8) (s : State), s.clocked → s.dev.dmaGet c.val DMA.STAT_STATE = 1 → bitOf (s.dev.get pgDMA DMA.STATUS_BUSY) c.val = true →
      Yields (.dmaSoftRst) s fun d => d.dmaGet c.val DMA.STAT_STATE = 2 ∧ d.flag pgDMA DMA.RST_PEND = true ∧ d.dmaSet c.val = s.dev.dmaSet c.val)

/-- A completed request of a transfer writes its bytes in order and counts them: from host memory, from a clean word of the hub SRAM or from a register, to host memory, cut at a 4 KiB boundary, to a word of the hub SRAM and nothing beside it, or to a register; the bytes that the write engine has not reached stay in the buffer as far as the channel's share of it goes; the last one begins the read-back, whose end reports DONE, or starts the armed shadow set; a request that fails, of the host or of an unreachable device memory, or a read-back that fails, waits for a retry while retries are left, and halts the channel with its error kind otherwise; a retry repeats and counts; a time-out of a host request does so too; a channel with nothing out does nothing. -/
def Obligations.DmaTransfer : Prop :=
  (∀ (c : Fin 8) (l : List Byte) (x : List Upset) (e : HostEnv) (t : DmaSet) (k n : Nat) (s : State), s.clocked → s.dev.dmaGet c.val DMA.STAT_STATE = 1 →
      s.dev.flag pgDMA (DMA.waiting c.val) = false → t = s.dev.dmaSet c.val → k = s.dev.dmaPos c.val → AMap.find? s.dev.dmaBuf c.val = none → n = t.chunk k → t.ssp = 0 → t.dsp = 0 → t.dlines = 1 →
      t.total = t.dlen → k + n < t.total → l.length = n → (t.dst + k) % 4096 + n ≤ 4096 →
      Yields (.dmaReadCompletion c (some l) x e 0) s fun d => Output.hostWrite (t.dst + k) (bytesOf l) ∈ d.out ∧ d.dmaPos c.val = k + n ∧
        d.dmaGet c.val DMA.STAT_STATE = 1 ∧ d.dmaGet c.val DMA.STAT_RETRIES = 0 ∧
        d.get pgDMA (DMA.BYTES_TOTAL.at c.val) = (s.dev.get pgDMA (DMA.BYTES_TOTAL.at c.val) + n) % 2 ^ 48 ∧
        Frame [(DMA.BYTES.at c.val).key pgDMA, (DMA.STAT_BYTES32.at c.val).key pgDMA, (DMA.STAT_RETRIES.at c.val).key pgDMA, (DMA.BYTES_TOTAL.at c.val).key pgDMA] s.dev d) ∧
  (∀ (c : Fin 8) (l : List Byte) (x : List Upset) (e : HostEnv) (t : DmaSet) (k n : Nat) (s : State), s.clocked → s.dev.dmaGet c.val DMA.STAT_STATE = 1 →
      s.dev.flag pgDMA (DMA.waiting c.val) = false → t = s.dev.dmaSet c.val → k = s.dev.dmaPos c.val → AMap.find? s.dev.dmaBuf c.val = none → n = t.chunk k → t.ssp = 0 → t.dsp = 0 → t.dlines = 1 →
      t.total = t.dlen → k + n < t.total → l.length = n → 4096 < (t.dst + k) % 4096 + n →
      Yields (.dmaReadCompletion c (some l) x e 0) s fun d => Output.hostWrite (t.dst + k) ((bytesOf l).take (4096 - (t.dst + k) % 4096)) ∈ d.out ∧
        Output.hostWrite ((t.dst + k) / 4096 * 4096 + 4096) ((bytesOf l).drop (4096 - (t.dst + k) % 4096)) ∈ d.out ∧ d.dmaPos c.val = k + n ∧
        d.dmaGet c.val DMA.STAT_STATE = 1 ∧ d.dmaGet c.val DMA.STAT_RETRIES = 0 ∧
        d.get pgDMA (DMA.BYTES_TOTAL.at c.val) = (s.dev.get pgDMA (DMA.BYTES_TOTAL.at c.val) + n) % 2 ^ 48 ∧
        Frame [(DMA.BYTES.at c.val).key pgDMA, (DMA.STAT_BYTES32.at c.val).key pgDMA, (DMA.STAT_RETRIES.at c.val).key pgDMA, (DMA.BYTES_TOTAL.at c.val).key pgDMA] s.dev d) ∧
  (∀ (c : Fin 8) (l : List Byte) (x : List Upset) (e : HostEnv) (keep : BitVec 16) (t : DmaSet) (k n : Nat) (s : State), s.clocked → s.dev.dmaGet c.val DMA.STAT_STATE = 1 →
      s.dev.flag pgDMA (DMA.waiting c.val) = false → t = s.dev.dmaSet c.val → k = s.dev.dmaPos c.val → AMap.find? s.dev.dmaBuf c.val = none → n = t.chunk k → t.ssp = 0 → t.dsp = 0 → t.dlines = 1 →
      t.total = t.dlen → k + n < t.total → l.length = n →
      Yields (.dmaReadCompletion c (some l) x e keep) s fun d => d.dmaHeld c.val = (bytesOf l).drop (n - min keep.toNat (s.dev.dmaRoom c.val)) ∧
        d.dmaPos c.val = k + (n - min keep.toNat (s.dev.dmaRoom c.val)) ∧ d.dmaGet c.val DMA.STAT_STATE = 1) ∧
  (∀ (c : Fin 8) (l : List Byte) (x : List Upset) (e : HostEnv) (t : DmaSet) (s : State), s.clocked → s.dev.dmaGet c.val DMA.STAT_STATE = 1 →
      s.dev.flag pgDMA (DMA.waiting c.val) = false → t = s.dev.dmaSet c.val → s.dev.dmaPos c.val = 0 → AMap.find? s.dev.dmaBuf c.val = none → t.chunk 0 = 8 → t.ssp = 0 → t.dsp = 1 → t.dlines = 1 →
      t.total = 8 → t.dlen = 8 → t.dst % 8 = 0 → t.dst < 0x4000000 → s.dev.flag pgECC ECC.STATUS_FILL_DONE = true → s.dev.merge = [] → l.length = 8 →
      Yields (.dmaReadCompletion c (some l) x e 7) s fun d => (∀ i : Fin 8, memRead d.mem (wordAddr 2 (t.dst / 8) + i.val) = l.getD i.val 0) ∧
        memKept s.dev d (wordAddr 2 (t.dst / 8)) 8 ∧ d.wordSyn 2 (t.dst / 8) = 0 ∧ d.dmaPos c.val = 8 ∧ d.dmaGet c.val DMA.STAT_STATE = 3) ∧
  (∀ (c : Fin 8) (x : List Upset) (e : HostEnv) (t : DmaSet) (s : State), s.clocked → s.dev.dmaGet c.val DMA.STAT_STATE = 1 →
      s.dev.flag pgDMA (DMA.waiting c.val) = false → t = s.dev.dmaSet c.val → t.ssp = 0 → t.dsp = 0 → s.dev.dmaRd c.val < t.total →
      s.dev.dmaGet c.val DMA.STAT_RETRIES < s.dev.dmaGet c.val DMA.CFG_RETRY_MAX →
      Yields (.dmaReadCompletion c none x e 0) s fun d => d.flag pgDMA (DMA.waiting c.val) = true ∧ d.dmaGet c.val DMA.STAT_STATE = 1 ∧
        d.dmaGet c.val DMA.ERR_ADDR_LO_ADDR = t.srcAt (s.dev.dmaRd c.val) % 2 ^ 32 ∧
        Frame [(DMA.waiting c.val).key pgDMA, (DMA.ERR_ADDR_LO_ADDR.at c.val).key pgDMA, (DMA.ERR_ADDR_HI_ADDR.at c.val).key pgDMA] s.dev d) ∧
  (∀ (c : Fin 8) (x : List Upset) (e : HostEnv) (t : DmaSet) (s : State), s.clocked → s.dev.dmaGet c.val DMA.STAT_STATE = 1 →
      s.dev.flag pgDMA (DMA.waiting c.val) = false → t = s.dev.dmaSet c.val → t.ssp = 0 → t.dsp = 0 → s.dev.dmaRd c.val < t.total →
      s.dev.flag pgDMA DMA.RST_PEND = false →
      s.dev.dmaGet c.val DMA.STAT_RETRIES = s.dev.dmaGet c.val DMA.CFG_RETRY_MAX →
      Yields (.dmaReadCompletion c none x e 0) s fun d => d.dmaGet c.val DMA.STAT_STATE = 4 ∧ d.dmaGet c.val DMA.STAT_RESULT = 3 ∧ d.dmaGet c.val DMA.STAT_ERR = 1 ∧
        bitOf (d.get pgDMA DMA.STATUS_HALTED) c.val = true ∧ d.get pgDMA (DMA.ERRORS.at c.val) = (s.dev.get pgDMA (DMA.ERRORS.at c.val) + 1) % 2 ^ 48 ∧
        d.raised pgDMA (16 + c.val)) ∧
  (∀ (c : Fin 8) (s : State), s.clocked → s.dev.flag pgDMA (DMA.waiting c.val) = true →
      Yields (.dmaRetry c) s fun d => d.flag pgDMA (DMA.waiting c.val) = false ∧ d.dmaGet c.val DMA.STAT_RETRIES = (s.dev.dmaGet c.val DMA.STAT_RETRIES + 1) % 8 ∧
        d.get pgDMA (DMA.RETRIES.at c.val) = (s.dev.get pgDMA (DMA.RETRIES.at c.val) + 1) % 2 ^ 48 ∧
        Frame [(DMA.waiting c.val).key pgDMA, (DMA.STAT_RETRIES.at c.val).key pgDMA, (DMA.RETRIES.at c.val).key pgDMA] s.dev d) ∧
  (∀ (c : Fin 8) (x : Upset) (s : State), s.clocked → s.dev.dmaGet c.val DMA.STAT_STATE = 3 → s.dev.flag pgDMA (DMA.waiting c.val) = false →
      s.dev.dmaGet c.val DMA.CFG_DST_SP = 0 → s.dev.flag pgDMA DMA.RST_PEND = false → s.dev.dmaGet c.val DMA.CTL_SHD_ARM = 0 →
      Yields (.dmaReadbackDone c true x) s fun d => d.dmaGet c.val DMA.STAT_STATE = 0 ∧ d.dmaGet c.val DMA.STAT_RESULT = 1 ∧ d.raised pgDMA c.val ∧
        d.get pgDMA (DMA.XFERS.at c.val) = (s.dev.get pgDMA (DMA.XFERS.at c.val) + 1) % 2 ^ 48 ∧ d.dmaGet c.val DMA.STAT_SHD_TAKEN = 0 ∧
        bitOf (d.get pgDMA DMA.STATUS_BUSY) c.val = false ∧ (s.dev.merge = [] → memKept s.dev d 0 0)) ∧
  (∀ (c : Fin 8) (s : State), s.clocked → s.dev.dmaGet c.val DMA.STAT_STATE = 1 → s.dev.flag pgDMA (DMA.waiting c.val) = false →
      s.dev.dmaGet c.val DMA.CFG_SRC_SP = 0 → s.dev.flag pgDMA DMA.RST_PEND = false →
      s.dev.dmaGet c.val DMA.STAT_RETRIES = s.dev.dmaGet c.val DMA.CFG_RETRY_MAX →
      Yields (.completionTimeout c) s fun d => d.dmaGet c.val DMA.STAT_STATE = 4 ∧ d.dmaGet c.val DMA.STAT_RESULT = 3 ∧ d.dmaGet c.val DMA.STAT_ERR = 5 ∧
        d.raised pgDMA (16 + c.val)) ∧
  (∀ (c : Fin 8) (host : Option (List Byte)) (x : List Upset) (e : HostEnv) (t : DmaSet) (s : State), s.clocked → s.dev.dmaGet c.val DMA.STAT_STATE = 1 →
      s.dev.flag pgDMA (DMA.waiting c.val) = false → t = s.dev.dmaSet c.val → s.dev.dmaPos c.val = 0 → AMap.find? s.dev.dmaBuf c.val = none → t.ssp = 1 → t.dsp = 0 → t.dlines = 1 →
      t.total = 8 → t.slen = 8 → t.dlen = 8 → t.src % 8 = 0 → t.src < 0x4000000 → t.dst % 4096 ≤ 4088 → s.dev.flag pgECC ECC.STATUS_FILL_DONE = true → s.dev.merge = [] →
      s.dev.wordSyn 2 (t.src / 8) = 0 → x = [] →
      Yields (.dmaReadCompletion c host x e 0) s fun d => Output.hostWrite t.dst ((List.range 8).map fun i => bitsOf (s.dev.wordData 2 (t.src / 8)) (8 * i) 8) ∈ d.out ∧
        memKept s.dev d 0 0 ∧ d.dmaPos c.val = 8 ∧ d.dmaGet c.val DMA.STAT_STATE = 3 ∧
        d.get pgDMA (DMA.BYTES_TOTAL.at c.val) = (s.dev.get pgDMA (DMA.BYTES_TOTAL.at c.val) + 8) % 2 ^ 48) ∧
  (∀ (c : Fin 8) (host : Option (List Byte)) (x : List Upset) (e : HostEnv) (t : DmaSet) (s : State), s.clocked → s.dev.dmaGet c.val DMA.STAT_STATE = 1 →
      s.dev.flag pgDMA (DMA.waiting c.val) = false → t = s.dev.dmaSet c.val → s.dev.dmaPos c.val = 0 → AMap.find? s.dev.dmaBuf c.val = none → t.ssp = 2 → t.dsp = 0 → t.dlines = 1 →
      t.total = 4 → t.slen = 4 → t.dlen = 4 → t.dst % 4096 ≤ 4092 →
      Yields (.dmaReadCompletion c host x e 0) s fun d => Output.hostWrite t.dst (leBytes 4 (s.dev.hostRead t.src).2) ∈ d.out ∧ d.dmaPos c.val = 4 ∧
        d.dmaGet c.val DMA.STAT_STATE = 3) ∧
  (∀ (c : Fin 8) (l : List Byte) (x : List Upset) (e : HostEnv) (t : DmaSet) (s : State), s.clocked → s.dev.dmaGet c.val DMA.STAT_STATE = 1 →
      s.dev.flag pgDMA (DMA.waiting c.val) = false → t = s.dev.dmaSet c.val → s.dev.dmaPos c.val = 0 → AMap.find? s.dev.dmaBuf c.val = none → t.ssp = 0 → t.dsp = 2 → t.dlines = 1 →
      t.total = 4 → t.slen = 4 → t.dlen = 4 → t.src % 4096 ≤ 4092 → t.dst = pgSYS * 4096 + 0x100 → l.length = 4 →
      Yields (.dmaReadCompletion c (some l) x e 0) s fun d => d.get pgSYS SYS.SRAM_WIN_SLICE = (l.getD 0 0).toNat % 4 ∧ d.dmaPos c.val = 4 ∧
        d.dmaGet c.val DMA.STAT_STATE = 3) ∧
  (∀ (c : Fin 8) (l : List Byte) (x : List Upset) (e : HostEnv) (t : DmaSet) (s : State), s.clocked → s.dev.dmaGet c.val DMA.STAT_STATE = 1 →
      s.dev.flag pgDMA (DMA.waiting c.val) = false → t = s.dev.dmaSet c.val → s.dev.dmaPos c.val < t.total → AMap.find? s.dev.dmaBuf c.val = none → t.ssp = 0 → t.dsp = 1 →
      s.dev.devOff (t.dstAt (s.dev.dmaPos c.val)) = true → s.dev.flag pgDMA DMA.RST_PEND = false →
      s.dev.dmaGet c.val DMA.STAT_RETRIES = s.dev.dmaGet c.val DMA.CFG_RETRY_MAX →
      Yields (.dmaReadCompletion c (some l) x e 0) s fun d => d.dmaGet c.val DMA.STAT_STATE = 4 ∧ d.dmaGet c.val DMA.STAT_RESULT = 3 ∧ d.dmaGet c.val DMA.STAT_ERR = 4 ∧
        d.raised pgDMA (16 + c.val) ∧ d.mem = s.dev.mem) ∧
  (∀ (c : Fin 8) (hostOk : Bool) (x : Upset) (s : State), s.clocked → s.dev.dmaGet c.val DMA.STAT_STATE = 3 → s.dev.flag pgDMA (DMA.waiting c.val) = false →
      s.dev.dmaGet c.val DMA.CFG_DST_SP = 2 → s.dev.flag pgDMA DMA.RST_PEND = false → s.dev.dmaGet c.val DMA.CTL_SHD_ARM = 0 →
      Yields (.dmaReadbackDone c hostOk x) s fun d => d.dmaGet c.val DMA.STAT_STATE = 0 ∧ d.dmaGet c.val DMA.STAT_RESULT = 1 ∧ d.raised pgDMA c.val) ∧
  (∀ (c : Fin 8) (hostOk : Bool) (t : DmaSet) (s : State), s.clocked → s.dev.dmaGet c.val DMA.STAT_STATE = 3 → s.dev.flag pgDMA (DMA.waiting c.val) = false →
      t = s.dev.dmaSet c.val → t.dsp = 1 → t.dstAt (t.total - 1) < 0x4000000 → s.dev.flag pgECC ECC.STATUS_FILL_DONE = true → s.dev.merge = [] →
      s.dev.wordSyn 2 (t.dstAt (t.total - 1) / 8) = 0 → s.dev.flag pgDMA DMA.RST_PEND = false → s.dev.dmaGet c.val DMA.CTL_SHD_ARM = 0 →
      Yields (.dmaReadbackDone c hostOk ⟨0, 0, 0⟩) s fun d => d.dmaGet c.val DMA.STAT_STATE = 0 ∧ d.dmaGet c.val DMA.STAT_RESULT = 1 ∧ d.raised pgDMA c.val ∧ memKept s.dev d 0 0) ∧
  (∀ (c : Fin 8) (x : Upset) (s : State), s.clocked → s.dev.dmaGet c.val DMA.STAT_STATE = 3 → s.dev.flag pgDMA (DMA.waiting c.val) = false →
      s.dev.dmaGet c.val DMA.CFG_DST_SP = 0 → s.dev.dmaGet c.val DMA.STAT_RETRIES < s.dev.dmaGet c.val DMA.CFG_RETRY_MAX →
      Yields (.dmaReadbackDone c false x) s fun d => d.flag pgDMA (DMA.waiting c.val) = true ∧ d.dmaGet c.val DMA.STAT_STATE = 3) ∧
  (∀ (c : Fin 8) (x : Upset) (s : State), s.clocked → s.dev.dmaGet c.val DMA.STAT_STATE = 3 → s.dev.flag pgDMA (DMA.waiting c.val) = false →
      s.dev.dmaGet c.val DMA.CFG_DST_SP = 0 → s.dev.dmaGet c.val DMA.STAT_RETRIES = s.dev.dmaGet c.val DMA.CFG_RETRY_MAX → s.dev.flag pgDMA DMA.RST_PEND = false →
      (Yields (.dmaReadbackDone c false x) s fun d => d.dmaGet c.val DMA.STAT_STATE = 4 ∧ d.dmaGet c.val DMA.STAT_RESULT = 3 ∧ d.dmaGet c.val DMA.STAT_ERR = 1 ∧
        d.raised pgDMA (16 + c.val)) ∧
      (Yields (.completionTimeout c) s fun d => d.dmaGet c.val DMA.STAT_STATE = 4 ∧ d.dmaGet c.val DMA.STAT_RESULT = 3 ∧ d.dmaGet c.val DMA.STAT_ERR = 5 ∧
        d.raised pgDMA (16 + c.val))) ∧
  (∀ (c : Fin 8) (x : Upset) (s : State), s.clocked → s.dev.dmaGet c.val DMA.STAT_STATE = 3 → s.dev.flag pgDMA (DMA.waiting c.val) = false →
      s.dev.dmaGet c.val DMA.CFG_DST_SP = 0 → s.dev.flag pgDMA DMA.RST_PEND = false → s.dev.dmaGet c.val DMA.CTL_SHD_ARM = 1 → s.dev.get pgECC ECC.STATUS_FILL_DONE = 1 →
      Yields (.dmaReadbackDone c true x) s fun d => d.raised pgDMA c.val ∧ d.dmaGet c.val DMA.CTL_SHD_ARM = 0 ∧ d.dmaGet c.val DMA.STAT_SHD_TAKEN = 1 ∧
        d.get pgDMA (DMA.XFERS.at c.val) = (s.dev.get pgDMA (DMA.XFERS.at c.val) + 1) % 2 ^ 48 ∧
        (∀ r ∈ dmaFields, ∀ f ∈ r.1.zip r.2, d.dmaGet c.val f.1 = s.dev.dmaGet c.val f.2 % 2 ^ f.1.width) ∧
        ((d.dmaSet c.val).refuse = 0 → d.dmaGet c.val DMA.STAT_STATE = 1)) ∧
  (∀ (c : Fin 8) (s : State), s.clocked → s.dev.dmaGet c.val DMA.STAT_STATE = 1 → s.dev.flag pgDMA (DMA.waiting c.val) = false →
      s.dev.dmaGet c.val DMA.CFG_SRC_SP = 0 → s.dev.dmaGet c.val DMA.STAT_RETRIES < s.dev.dmaGet c.val DMA.CFG_RETRY_MAX →
      Yields (.completionTimeout c) s fun d => d.flag pgDMA (DMA.waiting c.val) = true ∧ d.dmaGet c.val DMA.STAT_STATE = 1) ∧
  (∀ (c : Fin 8) (host : Option (List Byte)) (hostOk : Bool) (xs : List Upset) (x : Upset) (e : HostEnv) (keep : BitVec 16) (s : State), s.clocked →
      s.dev.dmaOut c.val = false →
      (Yields (.dmaReadCompletion c host xs e keep) s fun d => Frame [] s.dev d) ∧ (Yields (.dmaReadbackDone c hostOk x) s fun d => Frame [] s.dev d) ∧
      (Yields (.completionTimeout c) s fun d => Frame [] s.dev d) ∧
      (s.dev.flag pgDMA (DMA.waiting c.val) = false → Yields (.dmaRetry c) s fun d => Frame [] s.dev d))

/-- A write of a selection takes its fields; SNAP copies every general counter and the top-down counters, one at a time; SNAP_DONE ends the snapshot, counts it and raises its event, and without one does nothing; the end of a bandwidth window latches bits divided by its length, rounded down and zero for a die that was gated in it, and starts its counts afresh, and a write of WIN ends the window under way; a counter at its last value wraps to zero, with the event when its successor is not chained, and adds one to its successor when it is; BAR4 reads return the counters, their halves, the bandwidths and the sequence numbers while user access is enabled, zero elsewhere, and zero with an event while it is not; a soft reset returns the selections to reset and keeps the counters. -/
def Obligations.PerformanceCounters : Prop :=
  (∀ (i : Fin 32) (w : Word) (s : State), s.clocked →
      Yields (.perfSelWrite i w) s fun d => d.get pgPERFW (PERFW.SEL_KIND.at i.val) = PERFW.SEL_KIND.ofWord w.toNat ∧
        d.get pgPERFW (PERFW.SEL_SRC.at i.val) = PERFW.SEL_SRC.ofWord w.toNat ∧ d.get pgPERFW (PERFW.SEL_PAGE.at i.val) = PERFW.SEL_PAGE.ofWord w.toNat ∧
        d.get pgPERFW (PERFW.SEL_IDX.at i.val) = PERFW.SEL_IDX.ofWord w.toNat ∧ d.get pgPERFW (PERFW.SEL_CHAIN.at i.val) = PERFW.SEL_CHAIN.ofWord w.toNat ∧
        Frame ([PERFW.SEL_KIND, PERFW.SEL_SRC, PERFW.SEL_PAGE, PERFW.SEL_IDX, PERFW.SEL_CHAIN].map fun f => (f.at i.val).key pgPERFW) s.dev d) ∧
  (∀ (w : Word) (s : State), s.clocked → s.dev.flag pgPERFW PERFW.STATUS_SNAP_BUSY = false →
      Yields (.perfSnap w) s fun d => (∀ i : Fin 32, d.get pgPERFW (PERFW.SNAP.at i.val) = s.dev.get pgPERFW (PERFW.CNT.at i.val) % 2 ^ 48) ∧
        d.tdSnap = s.dev.td ∧ d.get pgPERFW PERFW.STATUS_SNAP_BUSY = 1 ∧
        Frame (PERFW.STATUS_SNAP_BUSY.key pgPERFW :: (List.range 32).map fun i => (PERFW.SNAP.at i).key pgPERFW) { s.dev with tdSnap := d.tdSnap } d) ∧
  (∀ (w : Word) (s : State), s.clocked → s.dev.flag pgPERFW PERFW.STATUS_SNAP_BUSY = true →
      Yields (.perfSnap w) s fun d => Frame [] s.dev d) ∧
  (∀ (s : State), s.clocked → s.dev.flag pgPERFW PERFW.STATUS_SNAP_BUSY = true →
      Yields (.snapDone) s fun d => d.get pgPERFW PERFW.STATUS_SNAP_BUSY = 0 ∧ d.get pgPERFW PERFW.SEQ_SNAP_SEQ = (s.dev.get pgPERFW PERFW.SEQ_SNAP_SEQ + 1) % 2 ^ 16 ∧
        d.raised pgPERFW 1 ∧ Frame [PERFW.STATUS_SNAP_BUSY.key pgPERFW, PERFW.SEQ_SNAP_SEQ.key pgPERFW] s.dev d) ∧
  (∀ (s : State), s.clocked → s.dev.flag pgPERFW PERFW.STATUS_SNAP_BUSY = false → Yields (.snapDone) s fun d => Frame [] s.dev d) ∧
  (∀ (bits : List (BitVec 64 × BitVec 64)) (m : Nat) (s : State), s.clocked → m = 1000 * clampN 1 1000 (s.dev.get pgPERFW PERFW.BW_CTL_WIN) →
      Yields (.bwLatch bits) s fun d => (∀ j : Fin 39,
          d.get pgPERFW (PERFW.BW_IN.at j.val) = (if ((bwDie j.val).any fun p => bitOf (s.dev.get pgPERFW PERFW.GATED) p) = true then 0
            else (s.dev.bwBits (bits.map fun b => (b.1.toNat, b.2.toNat)) j.val).1 / m % 2 ^ 32) ∧
          d.get pgPERFW (PERFW.BWO_OUT.at j.val) = (if ((bwDie j.val).any fun p => bitOf (s.dev.get pgPERFW PERFW.GATED) p) = true then 0
            else (s.dev.bwBits (bits.map fun b => (b.1.toNat, b.2.toNat)) j.val).2 / m % 2 ^ 32)) ∧
        (∀ j : Fin 6, d.get pgPERFW (PERFW.bits false (32 + j.val)) = 0 ∧ d.get pgPERFW (PERFW.bits true (32 + j.val)) = 0) ∧
        d.get pgPERFW PERFW.SEQ_BW_SEQ = (s.dev.get pgPERFW PERFW.SEQ_BW_SEQ + 1) % 2 ^ 16 ∧ d.raised pgPERFW 0 ∧
        (∀ i : Fin 32, d.get pgPERFW (PERFW.SNAP.at i.val) = s.dev.get pgPERFW (PERFW.CNT.at i.val) % 2 ^ 48)) ∧
  (∀ (w : Word) (bits : List (BitVec 64 × BitVec 64)) (clocks : BitVec 32) (s : State), s.clocked → s.dev.get pgPERFW PERFW.GATED = 0 → clocks ≠ 0 →
      Yields (.bwWinWrite w bits clocks) s fun d => (∀ j : Fin 39,
          d.get pgPERFW (PERFW.BW_IN.at j.val) = (s.dev.bwBits (bits.map fun b => (b.1.toNat, b.2.toNat)) j.val).1 * 5625 / (4 * clocks.toNat) % 2 ^ 32 ∧
          d.get pgPERFW (PERFW.BWO_OUT.at j.val) = (s.dev.bwBits (bits.map fun b => (b.1.toNat, b.2.toNat)) j.val).2 * 5625 / (4 * clocks.toNat) % 2 ^ 32) ∧
        d.get pgPERFW PERFW.BW_CTL_WIN = PERFW.BW_CTL_WIN.ofWord w.toNat ∧
        d.get pgPERFW PERFW.SEQ_BW_SEQ = (s.dev.get pgPERFW PERFW.SEQ_BW_SEQ + 1) % 2 ^ 16 ∧ d.raised pgPERFW 0) ∧
  (∀ (i : Fin 32) (s : State), s.clocked → s.dev.get pgPERFW (PERFW.CNT.at i.val) = 2 ^ 48 - 1 → s.dev.perfBusy = false →
      Yields (.wrap i) s fun d => d.get pgPERFW (PERFW.CNT.at i.val) = 0 ∧ d.raised pgPERFW 3) ∧
  (∀ (i : Fin 31) (s : State), s.clocked → s.dev.get pgPERFW (PERFW.CNT.at i.val) = 2 ^ 48 - 1 → s.dev.get pgPERFW (PERFW.CNT.at (i.val + 1)) < 2 ^ 48 - 1 →
      s.dev.get pgPERFW (PERFW.SEL_CHAIN.at i.val) = 1 → (∀ j : Fin 32, s.dev.get pgPERFW (PERFW.SEL_KIND.at j.val) = 0) →
      Yields (.wrap (Fin.castSucc i)) s fun d => d.get pgPERFW (PERFW.CNT.at i.val) = 0 ∧
        d.get pgPERFW (PERFW.CNT.at (i.val + 1)) = s.dev.get pgPERFW (PERFW.CNT.at (i.val + 1)) + 1 ∧
        (s.dev.get pgPERFW (PERFW.SEL_CHAIN.at (i.val + 1)) = 0 → d.raised pgPERFW 3)) ∧
  (∀ (i : Fin 32) (s : State), s.clocked → s.dev.get pgPERFW (PERFW.CNT.at i.val) ≠ 2 ^ 48 - 1 → Yields (.wrap i) s fun d => Frame [] s.dev d) ∧
  (∀ (off : BitVec 20) (wide : Bool) (s : State), s.clocked → s.dev.flag pgSYS SYS.PERF_USER_EN_EN = false →
      Yields (.bar4Read off wide) s fun d => Output.readData (some 0) ∈ d.out ∧ d.raised pgPERFW 2 ∧ Frame [] s.dev d) ∧
  (∀ (off : BitVec 20) (v : Nat) (s : State), s.clocked → s.dev.flag pgSYS SYS.PERF_USER_EN_EN = true → off.toNat % 8 = 0 → s.dev.bar4Pair off.toNat = some v → v < 2 ^ 64 →
      Yields (.bar4Read off true) s fun d => Output.readData (some v) ∈ d.out ∧ Frame [] { s.dev with hiCap := d.hiCap } d) ∧
  (∀ (off : BitVec 20) (v : Nat) (s : State), s.clocked → s.dev.flag pgSYS SYS.PERF_USER_EN_EN = true → off.toNat % 8 = 0 → s.dev.bar4Pair off.toNat = some v → v < 2 ^ 64 →
      Yields (.bar4Read off false) s fun d => Output.readData (some (v % 2 ^ 32)) ∈ d.out ∧ AMap.find? d.hiCap (0x400000 + off.toNat + 4) = some (v / 2 ^ 32) ∧
        Frame [] { s.dev with hiCap := d.hiCap } d) ∧
  (∀ (off : BitVec 20) (v h : Nat) (s : State), s.clocked → s.dev.flag pgSYS SYS.PERF_USER_EN_EN = true → off.toNat % 8 = 4 →
      s.dev.bar4Pair (off.toNat - 4) = some v → AMap.find? s.dev.hiCap (0x400000 + off.toNat) = some h →
      Yields (.bar4Read off false) s fun d => Output.readData (some h) ∈ d.out ∧ AMap.find? d.hiCap (0x400000 + off.toNat) = none ∧
        Frame [] { s.dev with hiCap := d.hiCap } d) ∧
  (∀ (j : Fin 39) (s : State), s.clocked → s.dev.flag pgSYS SYS.PERF_USER_EN_EN = true →
      (Yields (.bar4Read (BitVec.ofNat 20 (0x200 + 8 * j.val)) false) s fun d => Output.readData (some (s.dev.get pgPERFW (PERFW.BW_IN.at j.val))) ∈ d.out ∧ Frame [] s.dev d) ∧
      (Yields (.bar4Read (BitVec.ofNat 20 (0x204 + 8 * j.val)) false) s fun d => Output.readData (some (s.dev.get pgPERFW (PERFW.BWO_OUT.at j.val))) ∈ d.out ∧ Frame [] s.dev d) ∧
      (Yields (.bar4Read 0x400 false) s fun d =>
        Output.readData (some (s.dev.get pgPERFW PERFW.SEQ_BW_SEQ + 2 ^ 16 * s.dev.get pgPERFW PERFW.SEQ_SNAP_SEQ)) ∈ d.out ∧ Frame [] s.dev d)) ∧
  (∀ (off : BitVec 20) (s : State), s.clocked → s.dev.flag pgSYS SYS.PERF_USER_EN_EN = true → 0x404 ≤ off.toNat →
      s.dev.bar4Pair (off.toNat / 8 * 8) = none →
      Yields (.bar4Read off false) s fun d => Output.readData (some 0) ∈ d.out ∧ Frame [] s.dev d) ∧
  (∀ (s : State), s.clocked →
      Yields (.perfwSoftRst) s fun d => (∀ i : Fin 32, d.get pgPERFW (PERFW.SEL_KIND.at i.val) = 0 ∧ d.get pgPERFW (PERFW.SEL_CHAIN.at i.val) = 0 ∧
          d.get pgPERFW (PERFW.CNT.at i.val) = s.dev.get pgPERFW (PERFW.CNT.at i.val)) ∧ d.get pgPERFW PERFW.BW_CTL_WIN = 100)

/-- The release of PWRON_N leaves every register at reset but the keystone page and the straps, every memory, queue and commit empty, and the one-time-programmable values; RST_N does the same to all but what retention and the keystone hold: straps, key slots, sessions and the owner stay, and the cause is shown; a hub rail's brown-out does so too and shows its rail; PERST_N disables the MSI-X function and the rings, with its event, releases an idle claim of the host, marks a busy one, and fails a host request of a DMA channel. The boot goes from state to state: the self-test, the patch, slot A and slot B, a push; a failed self-test stops it; an image that passes its checks is verified, and one that is verified runs, locks the recipe directory and starts the management cores at its entry point; a slot that fails leads to the next, and slot B, or a push, to the wait for a push; a boot that waits for a push or has ended stays. -/
def Obligations.Resets : Prop :=
  (∀ (straps : BitVec 3) (s : State),
      Yields (.pwronN straps) s fun d => d.get pgSYS SYS.STRAP_BOOT_SRC = b2n (straps.getLsbD 0) ∧ d.get pgSYS SYS.STRAP_KS_PROV = b2n (straps.getLsbD 1) ∧
        d.get pgSYS SYS.STRAP_GRADE = b2n (straps.getLsbD 2) ∧ d.get pgSYS SYS.RESET_CAUSE_PWRON = 1 ∧ d.lost = false ∧ d.mem = [] ∧ d.merge = [] ∧ d.pend = [] ∧
        d.commits = [] ∧ d.evt.sticky = [] ∧ d.ks.owner = s.dev.ks.owner ∧ d.ks.sessions = [] ∧ d.mgmt.cmds = [] ∧
        d.get pgKSMB KSMB.OTP_RT = s.dev.get pgKSMB KSMB.OTP_RT % 2 ^ KSMB.OTP_RT.width ∧ (∀ e ∈ d.regs, keyPage e.1 = pgSYS ∨ keyPage e.1 = pgKSMB)) ∧
  (∀ (s : State),
      Yields (.rstN) s fun d => d.get pgSYS SYS.RESET_CAUSE_RST = 1 ∧ d.get pgSYS SYS.STRAP_BOOT_SRC = s.dev.get pgSYS SYS.STRAP_BOOT_SRC ∧
        d.get pgSYS SYS.STRAP_GRADE = s.dev.get pgSYS SYS.STRAP_GRADE ∧ d.lost = false ∧ d.mem = [] ∧ d.merge = [] ∧ d.pend = [] ∧ d.commits = [] ∧
        d.enc.keys = s.dev.enc.keys ∧ d.ks.sessions = s.dev.ks.sessions ∧ d.ks.owner = s.dev.ks.owner ∧ d.ks.exch = [] ∧ d.get pgKSMB KSMB.BOOT_STATE = 0 ∧
        d.get pgKSMB KSMB.MB_STAT_OWNER = 0 ∧ d.txRun 0 = false ∧ d.txRun 1 = false ∧ d.online 0 = false ∧ d.online 1 = false) ∧
  (∀ (which : Fin 3) (s : State), s.clocked →
      Yields (.hubBrown which) s fun d => d.get pgSYS SYS.RESET_CAUSE_HUB_BROWN = 1 ∧ d.lost = false ∧ d.mem = [] ∧ d.pend = [] ∧ d.commits = [] ∧
        d.enc.keys = s.dev.enc.keys ∧ d.ks.sessions = s.dev.ks.sessions ∧ bitOf (d.get pgPWR PWR.RAIL_STAT_SEEN) (if which = 0 then 2 else 6 + which.val) = true ∧
        d.online 0 = false ∧ d.online 1 = false) ∧
  (∀ (s : State), s.clocked → s.dev.get pgKSMB KSMB.MB_STAT_OWNER ≠ 1 → (∀ c : Fin 8, s.dev.dmaOut c.val = false) →
      Yields (.perstN) s fun d => d.evt.msixEn = false ∧ d.evt.fmask = false ∧ d.get pgMBX MBX.CTL_EN = 0 ∧ d.get pgMBX MBX.STATUS_RUN = 0 ∧
        d.get pgMBX MBX.STAT_PERST_SEEN = 1 ∧ d.raised pgMBX 5 ∧ d.mem = s.dev.mem ∧ d.ks = s.dev.ks) ∧
  (∀ (s : State), s.clocked → s.dev.get pgKSMB KSMB.MB_STAT_OWNER = 1 → s.dev.get pgKSMB KSMB.MB_STAT_BUSY = 0 → (∀ c : Fin 8, s.dev.dmaOut c.val = false) →
      Yields (.perstN) s fun d => d.get pgKSMB KSMB.MB_STAT_OWNER = 0 ∧ d.evt.msixEn = false) ∧
  (∀ (s : State), s.clocked → s.dev.get pgKSMB KSMB.MB_STAT_OWNER = 1 → s.dev.get pgKSMB KSMB.MB_STAT_BUSY = 1 → (∀ c : Fin 8, s.dev.dmaOut c.val = false) →
      Yields (.perstN) s fun d => d.get pgKSMB KSMB.MB_STAT_OWNER = 1 ∧ d.ks = { s.dev.ks with perst := true } ∧ d.evt.msixEn = false) ∧
  (∀ (c : Fin 8) (s : State), s.clocked → s.dev.dmaGet c.val DMA.STAT_STATE = 1 → s.dev.flag pgDMA (DMA.waiting c.val) = false →
      s.dev.dmaGet c.val DMA.CFG_SRC_SP = 0 → s.dev.flag pgDMA DMA.RST_PEND = false →
      s.dev.dmaGet c.val DMA.STAT_RETRIES = s.dev.dmaGet c.val DMA.CFG_RETRY_MAX →
      Yields (.perstN) s fun d => d.dmaGet c.val DMA.STAT_STATE = 4 ∧ d.dmaGet c.val DMA.STAT_RESULT = 3 ∧ d.dmaGet c.val DMA.STAT_ERR = 1) ∧
  (∀ (f : Flash) (dir : List (BitVec 16 × BitVec 16 × BitVec 256)) (s : State), s.clocked → s.dev.get pgKSMB KSMB.BOOT_STATE = 0 →
      Yields (.bootDone true f dir) s fun d => d.ks.certs = certChain (f.certs.map bytesOf) ∧ d.get pgKSMB KSMB.STATUS_PATCH_SKIP = 0 ∧
        d.get pgKSMB KSMB.BOOT_STATE = (if patchThere (f.patch.map bytesOf) = true then 1
          else if s.dev.flag pgSYS SYS.STRAP_BOOT_SRC = true then 4 else 2) ∧
        d.mem = s.dev.mem) ∧
  (∀ (f : Flash) (dir : List (BitVec 16 × BitVec 16 × BitVec 256)) (s : State), s.clocked → s.dev.get pgKSMB KSMB.BOOT_STATE = 0 →
      Yields (.bootDone false f dir) s fun d => d.get pgKSMB KSMB.BOOT_STATE = 7 ∧ d.get pgKSMB KSMB.BOOT_REASON = 1 ∧ d.raised pgKSMB 1 ∧ d.mem = s.dev.mem) ∧
  (∀ (f : Flash) (st : Bool) (dir : List (BitVec 16 × BitVec 16 × BitVec 256)) (r : Option (List Nat)) (x : KsImage) (s : State), s.clocked → s.dev.get pgKSMB KSMB.BOOT_STATE = 1 →
      r = f.patch.map bytesOf → x = imageOf (r.getD []) →
      Yields (.bootDone st f dir) s fun d => d.get pgKSMB KSMB.BOOT_STATE = (if s.dev.flag pgSYS SYS.STRAP_BOOT_SRC = true then 4 else 2) ∧ d.mem = s.dev.mem ∧
        (loadFault 0x5A570002 32768 32 r = 0 ∧ x.load + x.body.length ≤ 32768 ∧ x.fault (s.dev.get pgKSMB KSMB.SVN_PATCH_SVN) = 0 →
          d.get pgKSMB KSMB.SVN_PATCH = x.svn % 2 ^ KSMB.SVN_PATCH.width ∧ (d.ks.patch.map fun y => y.1) = some x.digest ∧ d.ks.patchEntry = x.load + x.start) ∧
        (¬(loadFault 0x5A570002 32768 32 r = 0 ∧ x.load + x.body.length ≤ 32768 ∧ x.fault (s.dev.get pgKSMB KSMB.SVN_PATCH_SVN) = 0) →
          d.get pgKSMB KSMB.STATUS_PATCH_SKIP = 1 ∧ d.ks.patchMem = s.dev.ks.patchMem)) ∧
  (∀ (f : Flash) (st : Bool) (dir : List (BitVec 16 × BitVec 16 × BitVec 256)) (r : Option (List Nat)) (s : State), s.clocked →
      s.dev.get pgKSMB KSMB.BOOT_STATE = 2 ∨ s.dev.get pgKSMB KSMB.BOOT_STATE = 3 →
      r = (if s.dev.get pgKSMB KSMB.BOOT_STATE = 2 then f.slotA else f.slotB).map bytesOf →
      (s.dev.get pgKSMB KSMB.BOOT_SLOT = (if s.dev.get pgKSMB KSMB.BOOT_STATE = 2 then 0 else 1)) →
      Yields (.bootDone st f dir) s fun d =>
        (runtimeFault r = 0 → d.get pgKSMB KSMB.BOOT_STATE = 5 ∧ d.ks.image = some (imageOf (r.getD [])) ∧
          (s.dev.merge = [] → (imageOf (r.getD [])).load + (imageOf (r.getD [])).body.length ≤ 2 ^ 26 →
            memBytes d.mem (memBase 2 + (imageOf (r.getD [])).load) (imageOf (r.getD [])).body.length = (imageOf (r.getD [])).body.map (BitVec.ofNat 8))) ∧
        (runtimeFault r ≠ 0 → d.get pgKSMB KSMB.BOOT_REASON = runtimeFault r ∧ d.mem = s.dev.mem ∧ d.ks.image = none ∧
          (s.dev.get pgKSMB KSMB.BOOT_STATE = 2 → d.get pgKSMB KSMB.BOOT_STATE = 3 ∧ d.get pgKSMB KSMB.BOOT_SLOT = 1) ∧
          (s.dev.get pgKSMB KSMB.BOOT_STATE = 3 → d.get pgKSMB KSMB.BOOT_STATE = 4 ∧ d.raised pgKSMB 1))) ∧
  (∀ (f : Flash) (st : Bool) (dir : List (BitVec 16 × BitVec 16 × BitVec 256)) (x : KsImage) (s : State), s.clocked →
      s.dev.get pgKSMB KSMB.BOOT_STATE = 5 → s.dev.ks.image = some x → s.dev.get pgKSMB KSMB.BOOT_SLOT ≤ 1 →
      Yields (.bootDone st f dir) s fun d => d.mem = s.dev.mem ∧
        (x.fault (s.dev.get pgKSMB KSMB.SVN_RT_SVN) = 0 → d.get pgKSMB KSMB.BOOT_STATE = 6 ∧ d.get pgKSMB KSMB.BOOT_SRC = 0 ∧
          d.ks.runtime = x.digest ∧ d.ks.entry = x.load + x.start ∧ Output.coresStart (x.load + x.start) ∈ d.out ∧
          d.get pgKSMB KSMB.SVN_IMAGE = x.svn % 2 ^ KSMB.SVN_IMAGE.width ∧ d.raised pgKSMB 0 ∧
          d.get pgMGMT MGMT.DIR_LOCKED = 1 ∧ d.get pgMGMT MGMT.STATUS_CORE_RUN = 15 ∧ d.raised pgMGMT 7 ∧
          d.mgmt.recipes = (dir.take 256).map fun r => ⟨r.1.toNat, r.2.1.toNat, r.2.2.toNat⟩) ∧
        (x.fault (s.dev.get pgKSMB KSMB.SVN_RT_SVN) ≠ 0 → d.get pgKSMB KSMB.BOOT_REASON = x.fault (s.dev.get pgKSMB KSMB.SVN_RT_SVN) ∧
          d.get pgKSMB KSMB.BOOT_STATE = (if s.dev.get pgKSMB KSMB.BOOT_SLOT = 0 then 3 else 4) ∧ d.mgmt.recipes = s.dev.mgmt.recipes)) ∧
  (∀ (f : Flash) (st : Bool) (dir : List (BitVec 16 × BitVec 16 × BitVec 256)) (x : KsImage) (b : List Nat) (s : State), s.clocked →
      s.dev.get pgKSMB KSMB.BOOT_STATE = 5 → s.dev.ks.image = none → b = s.dev.pushed.2 → x = imageOf b →
      Yields (.bootDone st f dir) s fun d =>
        (runtimeFault (some b) = 0 ∧ b.length = 64 + x.len + 3309 ∧ x.fault (s.dev.get pgKSMB KSMB.SVN_RT_SVN) = 0 →
          d.get pgKSMB KSMB.BOOT_STATE = 6 ∧ d.get pgKSMB KSMB.BOOT_SRC = 1 ∧ d.ks.runtime = x.digest ∧ d.raised pgKSMB 0 ∧
          d.get pgMGMT MGMT.STATUS_CORE_RUN = 15 ∧ Output.coresStart (x.load + x.start) ∈ d.out) ∧
        (runtimeFault (some b) ≠ 0 → d.get pgKSMB KSMB.BOOT_STATE = 4 ∧ d.get pgKSMB KSMB.BOOT_REASON = runtimeFault (some b) ∧ d.raised pgKSMB 1 ∧
          d.mgmt.recipes = s.dev.mgmt.recipes)) ∧
  (∀ (f : Flash) (st : Bool) (dir : List (BitVec 16 × BitVec 16 × BitVec 256)) (s : State), s.clocked →
      s.dev.get pgKSMB KSMB.BOOT_STATE = 4 ∨ 6 ≤ s.dev.get pgKSMB KSMB.BOOT_STATE →
      Yields (.bootDone st f dir) s fun d => Frame [] s.dev d)

/-- A dip is logged with rail, duration and depth, counted and raised, and a long one is counted and raised besides; a brown-out of a line-die rail takes its die, and one of a shared rail both, out of READY, empties their commits, shows the cause and raises the event; the rails of gated dies are not watched; a SerDes brown-out drops every host lane; a rail's recovery clears its warning and frees a held die whose rails are all back into a wake; a voltage step moves the target by at most 5 mV within 600 to 700 mV and raises its event, and no step does nothing; PLL_UNLOCK of a reachable die shows itself and keeps READY, and of another does nothing. -/
def Obligations.SupplyMonitoring : Prop :=
  (∀ (rail : Fin 5) (dur : BitVec 32) (depth : BitVec 8) (s : State), s.clocked → s.dev.railIdle rail.val = false → dur.toNat ≤ 200 →
      Yields (.dip rail dur depth) s fun d => d.get pgPWR PWR.DIP_LAST_RAIL = rail.val ∧ d.get pgPWR PWR.DIP_LAST_DUR = dur.toNat ∧ d.get pgPWR PWR.DIP_LAST_DEPTH = depth.toNat ∧
        d.get pgPWR PWR.DIPS = (s.dev.get pgPWR PWR.DIPS + 1) % 2 ^ 48 ∧ d.raised pgPWR 0 ∧
        Frame [PWR.DIP_LAST_RAIL.key pgPWR, PWR.DIP_LAST_DUR.key pgPWR, PWR.DIP_LAST_DEPTH.key pgPWR, PWR.DIPS.key pgPWR] s.dev.tcvDip d) ∧
  (∀ (rail : Fin 5) (dur : BitVec 32) (depth : BitVec 8) (s : State), s.clocked → s.dev.railIdle rail.val = true →
      Yields (.dip rail dur depth) s fun d => Frame [] s.dev d) ∧
  (∀ (rail : Fin 5) (dur : BitVec 32) (depth : BitVec 8) (s : State), s.clocked → s.dev.railIdle rail.val = false → 200 < dur.toNat →
      Yields (.dip rail dur depth) s fun d => d.get pgPWR PWR.DIP_LAST_RAIL = rail.val ∧ d.get pgPWR PWR.DIP_LAST_DUR = min dur.toNat 0xFFFF ∧
        d.get pgPWR PWR.LONG_DIPS = (s.dev.get pgPWR PWR.LONG_DIPS + 1) % 2 ^ 48 ∧ d.raised pgPWR 0 ∧ d.raised pgPWR 1) ∧
  (∀ (p : Port) (s : State), s.clocked → s.dev.flag pgPWR PWR.STATUS_BASCULE = false →
      Yields (.ldBrown (Fin.ofNat 9 p.val)) s fun d => d.online p = false ∧ d.flag (pgLDSYS p) LDSYS.HELD = true ∧ bitOf (d.get pgSYS SYS.RESET_CAUSE_LD_BROWN) p.val = true ∧
        bitOf (d.get pgSYS SYS.STATUS_LD_READY) p.val = false ∧ d.get pgPWR PWR.STATUS_READY = 0 ∧ d.raised pgPWR (6 + p.val) ∧
        (∀ e ∈ d.commits, e.2.port ≠ p) ∧ d.get (pgTRS p) (TRS.MOD_STATE.at 0) = 0 ∧ d.txRun p = false ∧
        bitOf (d.get pgPWR PWR.RAIL_STAT_SEEN) p.val = true) ∧
  (∀ (rail : Fin 9) (p : Port) (s : State), s.clocked → s.dev.flag pgPWR PWR.STATUS_BASCULE = false → rail.val = 3 ∨ rail.val = 5 →
      Yields (.ldBrown rail) s fun d => d.online p = false ∧ d.flag (pgLDSYS p) LDSYS.HELD = true ∧ bitOf (d.get pgSYS SYS.RESET_CAUSE_LD_BROWN) p.val = true ∧
        bitOf (d.get pgSYS SYS.STATUS_LD_READY) p.val = false ∧ d.raised pgPWR (6 + p.val) ∧ d.txRun p = false ∧ bitOf (d.get pgPWR PWR.RAIL_STAT_SEEN) rail.val = true) ∧
  (∀ (rail : Fin 9) (s : State), s.clocked → s.dev.railIdle rail.val = true ∨ railDies rail.val = [] →
      Yields (.ldBrown rail) s fun d => Frame [] s.dev d) ∧
  (∀ (hv : Bool) (s : State), s.clocked →
      Yields (.sdsBrown hv) s fun d => d.flag pgSYS SYS.SDS_RST = true ∧ bitOf (d.get pgPWR PWR.RAIL_STAT_SEEN) (if hv then 6 else 4) = true ∧
        (∀ l : Fin 32, d.get (pgHLN l) HLN.STATUS_SIG_DET = 0)) ∧
  (∀ (p : Port) (s : State), s.clocked → s.dev.flag (pgLDSYS p) LDSYS.HELD = true → s.dev.get pgPWR PWR.DOWN = 2 ^ p.val →
      Yields (.railRecovery (Fin.ofNat 9 p.val)) s fun d => d.flag (pgLDSYS p) LDSYS.HELD = false ∧ d.get pgPWR PWR.STATUS_WAKING = 1 ∧ d.get pgPWR PWR.DOWN = 0 ∧
        bitOf (d.get pgPWR PWR.RAIL_STAT_WARN) p.val = false ∧ d.online p = s.dev.online p) ∧
  (∀ (rail : Fin 9) (s : State), s.clocked →
      Yields (.railRecovery rail) s fun d => bitOf (d.get pgPWR PWR.DOWN) rail.val = false ∧ (rail.val < 5 → bitOf (d.get pgPWR PWR.RAIL_STAT_WARN) rail.val = false) ∧
        (∀ p : Port, d.flag (pgLDSYS p) LDSYS.HELD = (s.dev.flag (pgLDSYS p) LDSYS.HELD &&
          (bitOf (d.get pgPWR PWR.DOWN) p.val || bitOf (d.get pgPWR PWR.DOWN) 3 || bitOf (d.get pgPWR PWR.DOWN) 5))) ∧
        (bitOf (d.get pgPWR PWR.DOWN) 4 = false → bitOf (d.get pgPWR PWR.DOWN) 6 = false → d.flag pgSYS SYS.SDS_RST = false)) ∧
  (∀ (p : Port) (target : BitVec 10) (now : Nat) (s : State), s.clocked → s.dev.flag (pgLDSYS p) LDSYS.GATED = false → s.dev.flag (pgLDSYS p) LDSYS.HELD = false →
      now = s.dev.get (pgLDSYS p) LDSYS.AVS_TARGET → 605 ≤ now → now ≤ 700 → target.toNat + 5 ≤ now →
      Yields (.avsChg p target) s fun d => d.get (pgLDSYS p) LDSYS.AVS_TARGET = now - 5 ∧ d.raised (pgLDSYS p) 0 ∧ Frame [LDSYS.AVS_TARGET.key (pgLDSYS p)] s.dev d) ∧
  (∀ (p : Port) (target : BitVec 10) (now : Nat) (s : State), s.clocked → s.dev.flag (pgLDSYS p) LDSYS.GATED = false → s.dev.flag (pgLDSYS p) LDSYS.HELD = false →
      now = s.dev.get (pgLDSYS p) LDSYS.AVS_TARGET → now ≠ target.toNat → now ≤ target.toNat + 5 → target.toNat ≤ now + 5 → 600 ≤ target.toNat → target.toNat ≤ 700 →
      Yields (.avsChg p target) s fun d => d.get (pgLDSYS p) LDSYS.AVS_TARGET = target.toNat ∧ d.raised (pgLDSYS p) 0 ∧ Frame [LDSYS.AVS_TARGET.key (pgLDSYS p)] s.dev d) ∧
  (∀ (p : Port) (target : BitVec 10) (s : State), s.clocked → s.dev.flag (pgLDSYS p) LDSYS.GATED = true ∨ s.dev.flag (pgLDSYS p) LDSYS.HELD = true ∨
      (s.dev.get (pgLDSYS p) LDSYS.AVS_TARGET = target.toNat ∧ 600 ≤ target.toNat ∧ target.toNat ≤ 700) →
      Yields (.avsChg p target) s fun d => Frame [] s.dev d) ∧
  (∀ (p : Port) (s : State), s.clocked → s.dev.online p = false → Yields (.pllUnlock p) s fun d => Frame [] s.dev d) ∧
  (∀ (p : Port) (target : BitVec 10) (now : Nat) (s : State), s.clocked → s.dev.flag (pgLDSYS p) LDSYS.GATED = false → s.dev.flag (pgLDSYS p) LDSYS.HELD = false →
      now = s.dev.get (pgLDSYS p) LDSYS.AVS_TARGET → 600 ≤ now → now ≤ 695 → now + 5 ≤ target.toNat →
      Yields (.avsChg p target) s fun d => d.get (pgLDSYS p) LDSYS.AVS_TARGET = now + 5 ∧ d.raised (pgLDSYS p) 0 ∧ Frame [LDSYS.AVS_TARGET.key (pgLDSYS p)] s.dev d) ∧
  (∀ (p : Port) (s : State), s.clocked → s.dev.online p = true →
      Yields (.pllUnlock p) s fun d => d.get (pgLDSYS p) LDSYS.STATUS_PLL_LOCK = 0 ∧ d.online p = true ∧ d.raised (pgLDSYS p) 1 ∧
        Frame [LDSYS.STATUS_PLL_LOCK.key (pgLDSYS p)] s.dev d)

/-- The temperatures read are shown with the hottest sensor; a sensor above WARN raises the warning once; the hottest sensor 3 degrees below WARN ends it with its event; a sensor that rises above CRIT starts the entry with its event and cause where CRIT_BASCULE allows it. ENTER cancels both ports' commits and orders the entry, waits during a wake, and does nothing in Bascule; the entry's gating takes both dies down, counts and raises its event, and goes on to a wake that waited; WAKE powers both dies and shows WAKING, waits during the entry, and does nothing while a sensor is above WARN; the end of the wake shows READY with its event, and goes on to an entry that waited; none of them acts where nothing is under way. When OSC_IN is lost the keystone keeps its state and the device is known to be lost. -/
def Obligations.BasculeAndHeat : Prop :=
  (∀ (temps : List (BitVec 16)) (h : Nat × Int) (s : State), s.clocked → h = hottest (temps.map (·.toNat)) → s.dev.flag pgPWR PWR.STATUS_THERM_WARN = false →
      (16 * s.dev.warnAt : Int) < h.2 → h.2 ≤ (16 * s.dev.critAt : Int) →
      Yields (.thermWarn temps) s fun d => d.get pgPWR PWR.STATUS_THERM_WARN = 1 ∧ d.raised pgPWR 2 ∧ d.get pgPWR PWR.TEMP_MAX_TEMP = sTo 16 h.2 ∧
        d.get pgPWR PWR.TEMP_MAX_SENSOR = h.1 ∧ d.get pgPWR PWR.THERM_WARNS = (s.dev.get pgPWR PWR.THERM_WARNS + 1) % 2 ^ 48 ∧
        Frame [PWR.STATUS_THERM_WARN.key pgPWR, PWR.TEMP_MAX_TEMP.key pgPWR, PWR.TEMP_MAX_SENSOR.key pgPWR, PWR.THERM_WARNS.key pgPWR, PWR.CRIT_NOW.key pgPWR] s.dev d) ∧
  (∀ (temps : List (BitVec 16)) (h : Nat × Int) (s : State), s.clocked → h = hottest (temps.map (·.toNat)) → s.dev.flag pgPWR PWR.STATUS_THERM_WARN = true →
      h.2 ≤ 16 * s.dev.warnAt - 48 →
      Yields (.thermClear temps) s fun d => d.get pgPWR PWR.STATUS_THERM_WARN = 0 ∧ d.raised pgPWR 8 ∧ d.get pgPWR PWR.TEMP_MAX_TEMP = sTo 16 h.2 ∧
        Frame [PWR.STATUS_THERM_WARN.key pgPWR, PWR.TEMP_MAX_TEMP.key pgPWR, PWR.TEMP_MAX_SENSOR.key pgPWR, PWR.CRIT_NOW.key pgPWR] s.dev d) ∧
  (∀ (temps : List (BitVec 16)) (h : Nat × Int) (s : State), s.clocked → h = hottest (temps.map (·.toNat)) → (16 * s.dev.critAt : Int) < h.2 →
      s.dev.flag pgPWR PWR.CRIT_NOW = false → s.dev.flag pgPWR PWR.CTL_CRIT_BASCULE = true → s.dev.flag pgPWR PWR.STATUS_BASCULE = false →
      s.dev.flag pgPWR PWR.ENTERING = false →
      Yields (.thermCrit temps) s fun d => d.flag pgPWR PWR.ENTERING = true ∧ d.get pgPWR PWR.STATUS_THERM_CRIT = 1 ∧ d.get pgSYS SYS.RESET_CAUSE_THERMAL = 1 ∧
        d.raised pgPWR 3 ∧ d.commits = s.dev.commits.filter fun e => e.2.port ≠ 0 ∧ e.2.port ≠ 1) ∧
  (∀ (temps : List (BitVec 16)) (h : Nat × Int) (s : State), s.clocked → h = hottest (temps.map (·.toNat)) →
      (Yields (.thermWarn temps) s fun d => d.get pgPWR PWR.TEMP_MAX_TEMP = sTo 16 h.2 ∧ d.get pgPWR PWR.TEMP_MAX_SENSOR = h.1) ∧
      (Yields (.thermClear temps) s fun d => d.get pgPWR PWR.TEMP_MAX_TEMP = sTo 16 h.2 ∧ d.get pgPWR PWR.TEMP_MAX_SENSOR = h.1) ∧
      (Yields (.thermCrit temps) s fun d => d.get pgPWR PWR.TEMP_MAX_TEMP = sTo 16 h.2 ∧ d.get pgPWR PWR.TEMP_MAX_SENSOR = h.1)) ∧
  (∀ (w : Word) (s : State), s.clocked → w.getLsbD 1 = false →
      (s.dev.flag pgPWR PWR.STATUS_BASCULE = true ∨ s.dev.flag pgPWR PWR.ENTERING = true → Yields (.enter w) s fun d => Frame [] s.dev d) ∧
      (s.dev.flag pgPWR PWR.STATUS_BASCULE = false → s.dev.flag pgPWR PWR.ENTERING = false → s.dev.flag pgPWR PWR.STATUS_WAKING = true →
        Yields (.enter w) s fun d => d.flag pgPWR PWR.ENTER_PEND = true ∧ Frame [PWR.ENTER_PEND.key pgPWR] s.dev d)) ∧
  (∀ (w : Word) (s : State), s.clocked → w.getLsbD 0 = false →
      (s.dev.hot = true ∨ (s.dev.flag pgPWR PWR.STATUS_BASCULE = false ∧ s.dev.flag pgPWR PWR.ENTERING = false) → Yields (.wake w) s fun d => Frame [] s.dev d) ∧
      (s.dev.hot = false → s.dev.flag pgPWR PWR.STATUS_BASCULE = false → s.dev.flag pgPWR PWR.ENTERING = true →
        Yields (.wake w) s fun d => d.flag pgPWR PWR.WAKE_PEND = true ∧ Frame [PWR.WAKE_PEND.key pgPWR] s.dev d)) ∧
  (∀ (s : State), s.clocked → s.dev.flag pgPWR PWR.ENTERING = true → s.dev.flag pgPWR PWR.WAKE_PEND = true →
      Yields (.basculeIn) s fun d => d.online 0 = false ∧ d.online 1 = false ∧ d.flag (pgLDSYS 0) LDSYS.GATED = false ∧ d.flag (pgLDSYS 1) LDSYS.GATED = false ∧
        d.flag pgPWR PWR.ENTERING = false ∧ d.flag pgPWR PWR.WAKE_PEND = false ∧ d.get pgPWR PWR.STATUS_WAKING = 1 ∧ d.raised pgPWR 4) ∧
  (∀ (temps : List (BitVec 16)) (s : State), s.clocked → s.dev.flag pgPWR PWR.STATUS_WAKING = false ∨ s.dev.online 0 = false ∨ s.dev.online 1 = false →
      Yields (.wakeDone temps) s fun d => Frame [] s.dev d) ∧
  (∀ (temps : List (BitVec 16)) (s : State), s.clocked → s.dev.flag pgPWR PWR.STATUS_WAKING = true → s.dev.online 0 = true → s.dev.online 1 = true →
      s.dev.flag pgPWR PWR.ENTER_PEND = true →
      Yields (.wakeDone temps) s fun d => d.get pgPWR PWR.STATUS_WAKING = 0 ∧ d.raised pgPWR 5 ∧ d.flag pgPWR PWR.ENTERING = true ∧ d.flag pgPWR PWR.ENTER_PEND = false) ∧
  (∀ (w : Word) (s : State), s.clocked → w.getLsbD 1 = false → s.dev.flag pgPWR PWR.STATUS_BASCULE = false → s.dev.flag pgPWR PWR.ENTERING = false →
      s.dev.flag pgPWR PWR.STATUS_WAKING = false →
      Yields (.enter w) s fun d => d.flag pgPWR PWR.ENTERING = true ∧ d.get pgPWR PWR.STATUS_THERM_CRIT = 0 ∧ (∀ e ∈ d.commits, e.2.port ≠ 0 ∧ e.2.port ≠ 1) ∧
        d.online 0 = s.dev.online 0 ∧ d.online 1 = s.dev.online 1) ∧
  (∀ (s : State), s.clocked → s.dev.flag pgPWR PWR.ENTERING = true → s.dev.flag pgPWR PWR.WAKE_PEND = false →
      Yields (.basculeIn) s fun d => d.online 0 = false ∧ d.online 1 = false ∧ d.flag (pgLDSYS 0) LDSYS.GATED = true ∧ d.flag (pgLDSYS 1) LDSYS.GATED = true ∧
        d.flag pgPWR PWR.ENTERING = false ∧ d.get pgPWR PWR.STATUS_BASCULE = 1 ∧ d.get pgSYS SYS.STATUS_BASCULE = 1 ∧ d.get pgPWR PWR.STATUS_READY = 0 ∧
        d.get pgPWR PWR.BASCULE_ENTRIES = (s.dev.get pgPWR PWR.BASCULE_ENTRIES + 1) % 2 ^ 48 ∧ d.raised pgPWR 4) ∧
  (∀ (s : State), s.clocked → s.dev.flag pgPWR PWR.ENTERING = false →
      Yields (.basculeIn) s fun d => Frame [] s.dev d) ∧
  (∀ (w : Word) (s : State), s.clocked → w.getLsbD 0 = false → s.dev.flag pgPWR PWR.STATUS_BASCULE = true → s.dev.hot = false →
      Yields (.wake w) s fun d => d.get pgPWR PWR.STATUS_BASCULE = 0 ∧ d.get pgPWR PWR.STATUS_WAKING = 1 ∧ d.flag (pgLDSYS 0) LDSYS.GATED = false ∧
        d.flag (pgLDSYS 1) LDSYS.GATED = false ∧
        Frame [PWR.STATUS_BASCULE.key pgPWR, PWR.STATUS_WAKING.key pgPWR, SYS.STATUS_BASCULE.key pgSYS, PWR.WAKE_PEND.key pgPWR, LDSYS.GATED.key (pgLDSYS 0), LDSYS.GATED.key (pgLDSYS 1)] s.dev d) ∧
  (∀ (temps : List (BitVec 16)) (s : State), s.clocked → s.dev.flag pgPWR PWR.STATUS_WAKING = true → s.dev.online 0 = true → s.dev.online 1 = true →
      s.dev.flag pgPWR PWR.ENTER_PEND = false →
      Yields (.wakeDone temps) s fun d => d.get pgPWR PWR.STATUS_WAKING = 0 ∧ d.get pgPWR PWR.STATUS_READY = 1 ∧ d.raised pgPWR 5 ∧ d.online 0 = true ∧ d.online 1 = true) ∧
  (∀ (s : State), FMap.wf s.dev.regs = true →
      Yields (.oscInLoss) s fun d => d.lost = true ∧ d.ks = s.dev.ks ∧ d.enc.keys = s.dev.enc.keys ∧ d.occ = [] ∧
        (∀ k, ksKey k = true → FMap.get d.regs k = FMap.get s.dev.regs k))
end

