-- ==== Sys2Proof/Laws/Store.lean ====
section
/-! SUPPORT.  Laws of the sparse maps and of the memory: read after write, and the canonical form, which every operation
keeps. -/

namespace Sys2Proof.Machine

/-! ### Read after write -/

theorem AMap.find?_insert {α : Type} (m : AMap α) (q k : Nat) (b : α) :
    AMap.find? (AMap.insert m q b) k = if k = q then some b else AMap.find? m k := by
  induction m with
  | nil => simp only [AMap.insert, AMap.find?, eq_comm]
  | cons e t ih =>
    obtain ⟨k', a⟩ := e
    simp only [AMap.insert]
    split_ifs <;> simp only [AMap.find?, ih] <;> split_ifs <;> first | rfl | omega

theorem AMap.find?_erase {α : Type} (m : AMap α) (q k : Nat) :
    AMap.find? (AMap.erase m q) k = if k = q then none else AMap.find? m k := by
  induction m with
  | nil => simp [AMap.erase, AMap.find?]
  | cons e t ih =>
    obtain ⟨k', a⟩ := e
    simp only [AMap.erase]
    split_ifs <;> simp only [AMap.find?, ih] <;> split_ifs <;> first | rfl | omega

/-- What a number map reads after a write. -/
theorem FMap.get_set (m : FMap) (q v k : Nat) : FMap.get (FMap.set m q v) k = if k = q then v else FMap.get m k := by
  unfold FMap.get FMap.set
  split
  · rw [AMap.find?_erase]; split <;> simp_all
  · rw [AMap.find?_insert]; split <;> simp

@[simp] theorem FMap.get_set_same (m : FMap) (k v : Nat) : FMap.get (FMap.set m k v) k = v := by simp [FMap.get_set]

theorem FMap.get_set_other (m : FMap) {q k : Nat} (v : Nat) (h : k ≠ q) : FMap.get (FMap.set m q v) k = FMap.get m k := by
  simp [FMap.get_set, h]

@[simp] theorem FMap.get_nil (k : Nat) : FMap.get [] k = 0 := rfl

theorem memRead_write (m : List Host.Cell) (q k : Nat) (b : BitVec 8) :
    memRead (memWrite m q b) k = if k = q then b else memRead m k := by
  unfold memRead memWrite
  split
  · rw [AMap.find?_erase]; split <;> simp_all
  · rw [AMap.find?_insert]; split <;> simp

@[simp] theorem memRead_write_same (m : List Host.Cell) (a : Nat) (b : BitVec 8) : memRead (memWrite m a b) a = b := by
  simp [memRead_write]

theorem memRead_write_other (m : List Host.Cell) {a k : Nat} (b : BitVec 8) (h : k ≠ a) :
    memRead (memWrite m a b) k = memRead m k := by simp [memRead_write, h]

/-- A wide write leaves every byte outside it. -/
theorem memRead_writeN_other (n : Nat) : ∀ (m : List Host.Cell) (a v k : Nat), k < a ∨ a + n ≤ k →
    memRead (memWriteN m n a v) k = memRead m k := by
  induction n with
  | zero => intros; rfl
  | succ n ih =>
    intro m a v k h
    rw [memWriteN, ih _ _ _ _ (by omega), memRead_write_other _ _ (by omega)]

/-- The bytes a wide write stores, the least significant first. -/
theorem memRead_writeN (n : Nat) : ∀ (m : List Host.Cell) (a v i : Nat), i < n →
    memRead (memWriteN m n a v) (a + i) = BitVec.ofNat 8 (v / 256 ^ i) := by
  induction n with
  | zero => intro _ _ _ _ h; omega
  | succ n ih =>
    intro m a v i h
    rw [memWriteN]
    rcases Nat.eq_zero_or_pos i with rfl | hp
    · rw [memRead_writeN_other _ _ _ _ _ (by omega)]; simp
    · obtain ⟨j, rfl⟩ : ∃ j, i = j + 1 := ⟨i - 1, by omega⟩
      rw [show a + (j + 1) = (a + 1) + j by omega, ih _ _ _ _ (by omega), Nat.div_div_eq_div_mul, Nat.pow_succ, Nat.mul_comm 256]

/-! ### The canonical form -/

/-- Every key of a map lies above a bound. -/
theorem AMap.sorted_cons {α : Type} (k : Nat) (a : α) (t : AMap α) :
    AMap.sorted ((k, a) :: t) = true ↔ (∀ e ∈ t, k < e.1) ∧ AMap.sorted t = true := by
  induction t generalizing k a with
  | nil => simp [AMap.sorted]
  | cons e t ih =>
    obtain ⟨k', a'⟩ := e
    simp only [AMap.sorted, Bool.and_eq_true, decide_eq_true_eq, List.mem_cons, forall_eq_or_imp]
    constructor
    · rintro ⟨h, h'⟩
      refine ⟨⟨h, fun e he => ?_⟩, h'⟩
      have := ((ih k' a').1 h').1 e he
      omega
    · rintro ⟨⟨h, -⟩, h'⟩; exact ⟨h, h'⟩

theorem AMap.mem_insert {α : Type} (m : AMap α) (q : Nat) (b : α) : ∀ e ∈ AMap.insert m q b, e = (q, b) ∨ e ∈ m := by
  induction m with
  | nil => simp [AMap.insert]
  | cons x t ih =>
    obtain ⟨k, a⟩ := x
    intro e he
    simp only [AMap.insert] at he
    split at he
    · simpa using he
    · split at he
      · simp at he ⊢; tauto
      · simp only [List.mem_cons] at he ⊢
        rcases he with rfl | he
        · exact .inr (.inl rfl)
        · rcases ih e he with h | h <;> simp [h]

theorem AMap.mem_erase {α : Type} (m : AMap α) (q : Nat) : ∀ e ∈ AMap.erase m q, e ∈ m := by
  induction m with
  | nil => simp [AMap.erase]
  | cons x t ih =>
    obtain ⟨k, a⟩ := x
    intro e he
    simp only [AMap.erase] at he
    split at he
    · exact List.mem_cons_of_mem _ (ih e he)
    · simp only [List.mem_cons] at he ⊢
      rcases he with rfl | he
      · exact .inl rfl
      · exact .inr (ih e he)

theorem AMap.sorted_insert {α : Type} (m : AMap α) (q : Nat) (b : α) (h : AMap.sorted m = true) :
    AMap.sorted (AMap.insert m q b) = true := by
  induction m with
  | nil => rfl
  | cons x t ih =>
    obtain ⟨k, a⟩ := x
    have hs := (AMap.sorted_cons k a t).1 h
    simp only [AMap.insert]
    split
    · refine (AMap.sorted_cons _ _ _).2 ⟨?_, h⟩
      intro e he
      rcases List.mem_cons.1 he with rfl | he
      · assumption
      · have := hs.1 e he; omega
    · split
      · subst_vars; exact (AMap.sorted_cons _ _ _).2 hs
      · refine (AMap.sorted_cons _ _ _).2 ⟨fun e he => ?_, ih hs.2⟩
        rcases AMap.mem_insert t q b e he with rfl | he
        · simp; omega
        · exact hs.1 e he

theorem AMap.sorted_erase {α : Type} (m : AMap α) (q : Nat) (h : AMap.sorted m = true) : AMap.sorted (AMap.erase m q) = true := by
  induction m with
  | nil => rfl
  | cons x t ih =>
    obtain ⟨k, a⟩ := x
    have hs := (AMap.sorted_cons k a t).1 h
    simp only [AMap.erase]
    split
    · exact ih hs.2
    · exact (AMap.sorted_cons _ _ _).2 ⟨fun e he => hs.1 e (AMap.mem_erase t q e he), ih hs.2⟩

theorem AMap.sorted_filter {α : Type} (m : AMap α) (p : Nat × α → Bool) (h : AMap.sorted m = true) :
    AMap.sorted (m.filter p) = true := by
  induction m with
  | nil => rfl
  | cons x t ih =>
    obtain ⟨k, a⟩ := x
    have hs := (AMap.sorted_cons k a t).1 h
    simp only [List.filter_cons]
    split
    · exact (AMap.sorted_cons _ _ _).2 ⟨fun e he => hs.1 e (List.mem_of_mem_filter he), ih hs.2⟩
    · exact ih hs.2

/-- Writing keeps the canonical form of a number map. -/
theorem FMap.wf_set (m : FMap) (k v : Nat) (h : FMap.wf m = true) : FMap.wf (FMap.set m k v) = true := by
  simp only [FMap.wf, Bool.and_eq_true, List.all_eq_true] at h ⊢
  unfold FMap.set
  split
  · exact ⟨AMap.sorted_erase _ _ h.1, fun e he => h.2 e (AMap.mem_erase _ _ e he)⟩
  · refine ⟨AMap.sorted_insert _ _ _ h.1, fun e he => ?_⟩
    rcases AMap.mem_insert _ _ _ e he with rfl | he
    · simpa
    · exact h.2 e he

theorem FMap.wf_filter (m : FMap) (p : Nat × Nat → Bool) (h : FMap.wf m = true) : FMap.wf (m.filter p) = true := by
  simp only [FMap.wf, Bool.and_eq_true, List.all_eq_true] at h ⊢
  exact ⟨AMap.sorted_filter _ _ h.1, fun e he => h.2 e (List.mem_of_mem_filter he)⟩

theorem FMap.wf_foldl_set (l : List (Nat × Nat)) : ∀ m : FMap, FMap.wf m = true →
    FMap.wf (l.foldl (fun m e => FMap.set m e.1 e.2) m) = true := by
  induction l with
  | nil => exact fun _ h => h
  | cons e t ih => exact fun m h => ih _ (FMap.wf_set _ _ _ h)

theorem FMap.wf_norm (m : FMap) : FMap.wf (FMap.norm m) = true := FMap.wf_foldl_set _ _ rfl

/-- A byte write keeps the canonical form of a memory. -/
theorem Memory.wf_write (m : List Host.Cell) (a : Nat) (b : BitVec 8) (h : Memory.wf m = true) :
    Memory.wf (memWrite m a b) = true := by
  simp only [Memory.wf, Bool.and_eq_true, List.all_eq_true] at h ⊢
  unfold memWrite
  split
  · exact ⟨AMap.sorted_erase _ _ h.1, fun e he => h.2 e (AMap.mem_erase _ _ e he)⟩
  · refine ⟨AMap.sorted_insert _ _ _ h.1, fun e he => ?_⟩
    rcases AMap.mem_insert _ _ _ e he with rfl | he
    · simpa
    · exact h.2 e he

theorem Memory.wf_writeN (n : Nat) : ∀ (m : List Host.Cell) (a v : Nat), Memory.wf m = true →
    Memory.wf (memWriteN m n a v) = true := by
  induction n with
  | zero => exact fun _ _ _ h => h
  | succ n ih => exact fun m a v h => ih _ _ _ (Memory.wf_write _ _ _ h)

theorem Memory.wf_writeBytes (l : List (BitVec 8)) : ∀ (m : List Host.Cell) (a : Nat), Memory.wf m = true →
    Memory.wf (memWriteBytes m a l) = true := by
  induction l with
  | nil => exact fun _ _ h => h
  | cons b t ih => exact fun m a h => ih _ _ (Memory.wf_write _ _ _ h)

theorem Memory.wf_filter (m : List Host.Cell) (p : Host.Cell → Bool) (h : Memory.wf m = true) :
    Memory.wf (m.filter p) = true := by
  simp only [Memory.wf, Bool.and_eq_true, List.all_eq_true] at h ⊢
  exact ⟨AMap.sorted_filter _ _ h.1, fun e he => h.2 e (List.mem_of_mem_filter he)⟩

end Sys2Proof.Machine
end

