-- ==== Sys2Proof/Laws/State.lean ====
section
/-! SUPPORT.  Laws of the state: what each field of the device reads after each named update, and reading a register field
after a write. -/

namespace Sys2Proof.Machine

/-! ### After put -/

@[simp] theorem Dev.put_pend (d : Dev) (pg : Nat) (f : Fld) (v : Nat) : (d.put pg f v).pend = d.pend := rfl
@[simp] theorem Dev.put_evt (d : Dev) (pg : Nat) (f : Fld) (v : Nat) : (d.put pg f v).evt = d.evt := rfl
@[simp] theorem Dev.put_hiCap (d : Dev) (pg : Nat) (f : Fld) (v : Nat) : (d.put pg f v).hiCap = d.hiCap := rfl
@[simp] theorem Dev.put_commits (d : Dev) (pg : Nat) (f : Fld) (v : Nat) : (d.put pg f v).commits = d.commits := rfl
@[simp] theorem Dev.put_conv (d : Dev) (pg : Nat) (f : Fld) (v : Nat) : (d.put pg f v).conv = d.conv := rfl
@[simp] theorem Dev.put_eq (d : Dev) (pg : Nat) (f : Fld) (v : Nat) : (d.put pg f v).eq = d.eq := rfl
@[simp] theorem Dev.put_mem (d : Dev) (pg : Nat) (f : Fld) (v : Nat) : (d.put pg f v).mem = d.mem := rfl
@[simp] theorem Dev.put_map (d : Dev) (pg : Nat) (f : Fld) (v : Nat) : (d.put pg f v).map = d.map := rfl
@[simp] theorem Dev.put_fec (d : Dev) (pg : Nat) (f : Fld) (v : Nat) : (d.put pg f v).fec = d.fec := rfl
@[simp] theorem Dev.put_scc (d : Dev) (pg : Nat) (f : Fld) (v : Nat) : (d.put pg f v).scc = d.scc := rfl
@[simp] theorem Dev.put_enc (d : Dev) (pg : Nat) (f : Fld) (v : Nat) : (d.put pg f v).enc = d.enc := rfl
@[simp] theorem Dev.put_ticks (d : Dev) (pg : Nat) (f : Fld) (v : Nat) : (d.put pg f v).ticks = d.ticks := rfl
@[simp] theorem Dev.put_ks (d : Dev) (pg : Nat) (f : Fld) (v : Nat) : (d.put pg f v).ks = d.ks := rfl
@[simp] theorem Dev.put_clkHist (d : Dev) (pg : Nat) (f : Fld) (v : Nat) : (d.put pg f v).clkHist = d.clkHist := rfl
@[simp] theorem Dev.put_tb (d : Dev) (pg : Nat) (f : Fld) (v : Nat) : (d.put pg f v).tb = d.tb := rfl
@[simp] theorem Dev.put_link (d : Dev) (pg : Nat) (f : Fld) (v : Nat) : (d.put pg f v).link = d.link := rfl
@[simp] theorem Dev.put_tlq (d : Dev) (pg : Nat) (f : Fld) (v : Nat) : (d.put pg f v).tlq = d.tlq := rfl
@[simp] theorem Dev.put_tlqEnq (d : Dev) (pg : Nat) (f : Fld) (v : Nat) : (d.put pg f v).tlqEnq = d.tlqEnq := rfl
@[simp] theorem Dev.put_hg (d : Dev) (pg : Nat) (f : Fld) (v : Nat) : (d.put pg f v).hg = d.hg := rfl
@[simp] theorem Dev.put_tcv (d : Dev) (pg : Nat) (f : Fld) (v : Nat) : (d.put pg f v).tcv = d.tcv := rfl
@[simp] theorem Dev.put_hgCal (d : Dev) (pg : Nat) (f : Fld) (v : Nat) : (d.put pg f v).hgCal = d.hgCal := rfl
@[simp] theorem Dev.put_td (d : Dev) (pg : Nat) (f : Fld) (v : Nat) : (d.put pg f v).td = d.td := rfl
@[simp] theorem Dev.put_tdSnap (d : Dev) (pg : Nat) (f : Fld) (v : Nat) : (d.put pg f v).tdSnap = d.tdSnap := rfl
@[simp] theorem Dev.put_mgmt (d : Dev) (pg : Nat) (f : Fld) (v : Nat) : (d.put pg f v).mgmt = d.mgmt := rfl
@[simp] theorem Dev.put_syn (d : Dev) (pg : Nat) (f : Fld) (v : Nat) : (d.put pg f v).syn = d.syn := rfl
@[simp] theorem Dev.put_merge (d : Dev) (pg : Nat) (f : Fld) (v : Nat) : (d.put pg f v).merge = d.merge := rfl
@[simp] theorem Dev.put_dmaBuf (d : Dev) (pg : Nat) (f : Fld) (v : Nat) : (d.put pg f v).dmaBuf = d.dmaBuf := rfl
@[simp] theorem Dev.put_lost (d : Dev) (pg : Nat) (f : Fld) (v : Nat) : (d.put pg f v).lost = d.lost := rfl
@[simp] theorem Dev.put_occ (d : Dev) (pg : Nat) (f : Fld) (v : Nat) : (d.put pg f v).occ = d.occ := rfl
@[simp] theorem Dev.put_out (d : Dev) (pg : Nat) (f : Fld) (v : Nat) : (d.put pg f v).out = d.out := rfl
@[simp] theorem Dev.put_freeCtr (d : Dev) (pg : Nat) (f : Fld) (v : Nat) : (d.put pg f v).freeCtr = d.freeCtr := rfl

/-! ### After pput -/

@[simp] theorem Dev.pput_regs (d : Dev) (pg : Nat) (f : Fld) (v : Nat) : (d.pput pg f v).regs = d.regs := rfl
@[simp] theorem Dev.pput_evt (d : Dev) (pg : Nat) (f : Fld) (v : Nat) : (d.pput pg f v).evt = d.evt := rfl
@[simp] theorem Dev.pput_hiCap (d : Dev) (pg : Nat) (f : Fld) (v : Nat) : (d.pput pg f v).hiCap = d.hiCap := rfl
@[simp] theorem Dev.pput_commits (d : Dev) (pg : Nat) (f : Fld) (v : Nat) : (d.pput pg f v).commits = d.commits := rfl
@[simp] theorem Dev.pput_conv (d : Dev) (pg : Nat) (f : Fld) (v : Nat) : (d.pput pg f v).conv = d.conv := rfl
@[simp] theorem Dev.pput_eq (d : Dev) (pg : Nat) (f : Fld) (v : Nat) : (d.pput pg f v).eq = d.eq := rfl
@[simp] theorem Dev.pput_mem (d : Dev) (pg : Nat) (f : Fld) (v : Nat) : (d.pput pg f v).mem = d.mem := rfl
@[simp] theorem Dev.pput_map (d : Dev) (pg : Nat) (f : Fld) (v : Nat) : (d.pput pg f v).map = d.map := rfl
@[simp] theorem Dev.pput_fec (d : Dev) (pg : Nat) (f : Fld) (v : Nat) : (d.pput pg f v).fec = d.fec := rfl
@[simp] theorem Dev.pput_scc (d : Dev) (pg : Nat) (f : Fld) (v : Nat) : (d.pput pg f v).scc = d.scc := rfl
@[simp] theorem Dev.pput_enc (d : Dev) (pg : Nat) (f : Fld) (v : Nat) : (d.pput pg f v).enc = d.enc := rfl
@[simp] theorem Dev.pput_ticks (d : Dev) (pg : Nat) (f : Fld) (v : Nat) : (d.pput pg f v).ticks = d.ticks := rfl
@[simp] theorem Dev.pput_ks (d : Dev) (pg : Nat) (f : Fld) (v : Nat) : (d.pput pg f v).ks = d.ks := rfl
@[simp] theorem Dev.pput_clkHist (d : Dev) (pg : Nat) (f : Fld) (v : Nat) : (d.pput pg f v).clkHist = d.clkHist := rfl
@[simp] theorem Dev.pput_tb (d : Dev) (pg : Nat) (f : Fld) (v : Nat) : (d.pput pg f v).tb = d.tb := rfl
@[simp] theorem Dev.pput_link (d : Dev) (pg : Nat) (f : Fld) (v : Nat) : (d.pput pg f v).link = d.link := rfl
@[simp] theorem Dev.pput_tlq (d : Dev) (pg : Nat) (f : Fld) (v : Nat) : (d.pput pg f v).tlq = d.tlq := rfl
@[simp] theorem Dev.pput_tlqEnq (d : Dev) (pg : Nat) (f : Fld) (v : Nat) : (d.pput pg f v).tlqEnq = d.tlqEnq := rfl
@[simp] theorem Dev.pput_hg (d : Dev) (pg : Nat) (f : Fld) (v : Nat) : (d.pput pg f v).hg = d.hg := rfl
@[simp] theorem Dev.pput_tcv (d : Dev) (pg : Nat) (f : Fld) (v : Nat) : (d.pput pg f v).tcv = d.tcv := rfl
@[simp] theorem Dev.pput_hgCal (d : Dev) (pg : Nat) (f : Fld) (v : Nat) : (d.pput pg f v).hgCal = d.hgCal := rfl
@[simp] theorem Dev.pput_td (d : Dev) (pg : Nat) (f : Fld) (v : Nat) : (d.pput pg f v).td = d.td := rfl
@[simp] theorem Dev.pput_tdSnap (d : Dev) (pg : Nat) (f : Fld) (v : Nat) : (d.pput pg f v).tdSnap = d.tdSnap := rfl
@[simp] theorem Dev.pput_mgmt (d : Dev) (pg : Nat) (f : Fld) (v : Nat) : (d.pput pg f v).mgmt = d.mgmt := rfl
@[simp] theorem Dev.pput_syn (d : Dev) (pg : Nat) (f : Fld) (v : Nat) : (d.pput pg f v).syn = d.syn := rfl
@[simp] theorem Dev.pput_merge (d : Dev) (pg : Nat) (f : Fld) (v : Nat) : (d.pput pg f v).merge = d.merge := rfl
@[simp] theorem Dev.pput_dmaBuf (d : Dev) (pg : Nat) (f : Fld) (v : Nat) : (d.pput pg f v).dmaBuf = d.dmaBuf := rfl
@[simp] theorem Dev.pput_lost (d : Dev) (pg : Nat) (f : Fld) (v : Nat) : (d.pput pg f v).lost = d.lost := rfl
@[simp] theorem Dev.pput_occ (d : Dev) (pg : Nat) (f : Fld) (v : Nat) : (d.pput pg f v).occ = d.occ := rfl
@[simp] theorem Dev.pput_out (d : Dev) (pg : Nat) (f : Fld) (v : Nat) : (d.pput pg f v).out = d.out := rfl
@[simp] theorem Dev.pput_freeCtr (d : Dev) (pg : Nat) (f : Fld) (v : Nat) : (d.pput pg f v).freeCtr = d.freeCtr := rfl

/-! ### After ev -/

@[simp] theorem Dev.ev_regs (d : Dev) (pg k : Nat) : (d.ev pg k).regs = d.regs := rfl
@[simp] theorem Dev.ev_pend (d : Dev) (pg k : Nat) : (d.ev pg k).pend = d.pend := rfl
@[simp] theorem Dev.ev_evt (d : Dev) (pg k : Nat) : (d.ev pg k).evt = d.evt := rfl
@[simp] theorem Dev.ev_hiCap (d : Dev) (pg k : Nat) : (d.ev pg k).hiCap = d.hiCap := rfl
@[simp] theorem Dev.ev_commits (d : Dev) (pg k : Nat) : (d.ev pg k).commits = d.commits := rfl
@[simp] theorem Dev.ev_conv (d : Dev) (pg k : Nat) : (d.ev pg k).conv = d.conv := rfl
@[simp] theorem Dev.ev_eq (d : Dev) (pg k : Nat) : (d.ev pg k).eq = d.eq := rfl
@[simp] theorem Dev.ev_mem (d : Dev) (pg k : Nat) : (d.ev pg k).mem = d.mem := rfl
@[simp] theorem Dev.ev_map (d : Dev) (pg k : Nat) : (d.ev pg k).map = d.map := rfl
@[simp] theorem Dev.ev_fec (d : Dev) (pg k : Nat) : (d.ev pg k).fec = d.fec := rfl
@[simp] theorem Dev.ev_scc (d : Dev) (pg k : Nat) : (d.ev pg k).scc = d.scc := rfl
@[simp] theorem Dev.ev_enc (d : Dev) (pg k : Nat) : (d.ev pg k).enc = d.enc := rfl
@[simp] theorem Dev.ev_ticks (d : Dev) (pg k : Nat) : (d.ev pg k).ticks = d.ticks := rfl
@[simp] theorem Dev.ev_ks (d : Dev) (pg k : Nat) : (d.ev pg k).ks = d.ks := rfl
@[simp] theorem Dev.ev_clkHist (d : Dev) (pg k : Nat) : (d.ev pg k).clkHist = d.clkHist := rfl
@[simp] theorem Dev.ev_tb (d : Dev) (pg k : Nat) : (d.ev pg k).tb = d.tb := rfl
@[simp] theorem Dev.ev_link (d : Dev) (pg k : Nat) : (d.ev pg k).link = d.link := rfl
@[simp] theorem Dev.ev_tlq (d : Dev) (pg k : Nat) : (d.ev pg k).tlq = d.tlq := rfl
@[simp] theorem Dev.ev_tlqEnq (d : Dev) (pg k : Nat) : (d.ev pg k).tlqEnq = d.tlqEnq := rfl
@[simp] theorem Dev.ev_hg (d : Dev) (pg k : Nat) : (d.ev pg k).hg = d.hg := rfl
@[simp] theorem Dev.ev_tcv (d : Dev) (pg k : Nat) : (d.ev pg k).tcv = d.tcv := rfl
@[simp] theorem Dev.ev_hgCal (d : Dev) (pg k : Nat) : (d.ev pg k).hgCal = d.hgCal := rfl
@[simp] theorem Dev.ev_td (d : Dev) (pg k : Nat) : (d.ev pg k).td = d.td := rfl
@[simp] theorem Dev.ev_tdSnap (d : Dev) (pg k : Nat) : (d.ev pg k).tdSnap = d.tdSnap := rfl
@[simp] theorem Dev.ev_mgmt (d : Dev) (pg k : Nat) : (d.ev pg k).mgmt = d.mgmt := rfl
@[simp] theorem Dev.ev_syn (d : Dev) (pg k : Nat) : (d.ev pg k).syn = d.syn := rfl
@[simp] theorem Dev.ev_merge (d : Dev) (pg k : Nat) : (d.ev pg k).merge = d.merge := rfl
@[simp] theorem Dev.ev_dmaBuf (d : Dev) (pg k : Nat) : (d.ev pg k).dmaBuf = d.dmaBuf := rfl
@[simp] theorem Dev.ev_lost (d : Dev) (pg k : Nat) : (d.ev pg k).lost = d.lost := rfl
@[simp] theorem Dev.ev_out (d : Dev) (pg k : Nat) : (d.ev pg k).out = d.out := rfl
@[simp] theorem Dev.ev_freeCtr (d : Dev) (pg k : Nat) : (d.ev pg k).freeCtr = d.freeCtr := rfl

/-! ### After emit -/

@[simp] theorem Dev.emit_regs (d : Dev) (o : Output) : (d.emit o).regs = d.regs := rfl
@[simp] theorem Dev.emit_pend (d : Dev) (o : Output) : (d.emit o).pend = d.pend := rfl
@[simp] theorem Dev.emit_evt (d : Dev) (o : Output) : (d.emit o).evt = d.evt := rfl
@[simp] theorem Dev.emit_hiCap (d : Dev) (o : Output) : (d.emit o).hiCap = d.hiCap := rfl
@[simp] theorem Dev.emit_commits (d : Dev) (o : Output) : (d.emit o).commits = d.commits := rfl
@[simp] theorem Dev.emit_conv (d : Dev) (o : Output) : (d.emit o).conv = d.conv := rfl
@[simp] theorem Dev.emit_eq (d : Dev) (o : Output) : (d.emit o).eq = d.eq := rfl
@[simp] theorem Dev.emit_mem (d : Dev) (o : Output) : (d.emit o).mem = d.mem := rfl
@[simp] theorem Dev.emit_map (d : Dev) (o : Output) : (d.emit o).map = d.map := rfl
@[simp] theorem Dev.emit_fec (d : Dev) (o : Output) : (d.emit o).fec = d.fec := rfl
@[simp] theorem Dev.emit_scc (d : Dev) (o : Output) : (d.emit o).scc = d.scc := rfl
@[simp] theorem Dev.emit_enc (d : Dev) (o : Output) : (d.emit o).enc = d.enc := rfl
@[simp] theorem Dev.emit_ticks (d : Dev) (o : Output) : (d.emit o).ticks = d.ticks := rfl
@[simp] theorem Dev.emit_ks (d : Dev) (o : Output) : (d.emit o).ks = d.ks := rfl
@[simp] theorem Dev.emit_clkHist (d : Dev) (o : Output) : (d.emit o).clkHist = d.clkHist := rfl
@[simp] theorem Dev.emit_tb (d : Dev) (o : Output) : (d.emit o).tb = d.tb := rfl
@[simp] theorem Dev.emit_link (d : Dev) (o : Output) : (d.emit o).link = d.link := rfl
@[simp] theorem Dev.emit_tlq (d : Dev) (o : Output) : (d.emit o).tlq = d.tlq := rfl
@[simp] theorem Dev.emit_tlqEnq (d : Dev) (o : Output) : (d.emit o).tlqEnq = d.tlqEnq := rfl
@[simp] theorem Dev.emit_hg (d : Dev) (o : Output) : (d.emit o).hg = d.hg := rfl
@[simp] theorem Dev.emit_tcv (d : Dev) (o : Output) : (d.emit o).tcv = d.tcv := rfl
@[simp] theorem Dev.emit_hgCal (d : Dev) (o : Output) : (d.emit o).hgCal = d.hgCal := rfl
@[simp] theorem Dev.emit_td (d : Dev) (o : Output) : (d.emit o).td = d.td := rfl
@[simp] theorem Dev.emit_tdSnap (d : Dev) (o : Output) : (d.emit o).tdSnap = d.tdSnap := rfl
@[simp] theorem Dev.emit_mgmt (d : Dev) (o : Output) : (d.emit o).mgmt = d.mgmt := rfl
@[simp] theorem Dev.emit_syn (d : Dev) (o : Output) : (d.emit o).syn = d.syn := rfl
@[simp] theorem Dev.emit_merge (d : Dev) (o : Output) : (d.emit o).merge = d.merge := rfl
@[simp] theorem Dev.emit_dmaBuf (d : Dev) (o : Output) : (d.emit o).dmaBuf = d.dmaBuf := rfl
@[simp] theorem Dev.emit_lost (d : Dev) (o : Output) : (d.emit o).lost = d.lost := rfl
@[simp] theorem Dev.emit_occ (d : Dev) (o : Output) : (d.emit o).occ = d.occ := rfl
@[simp] theorem Dev.emit_freeCtr (d : Dev) (o : Output) : (d.emit o).freeCtr = d.freeCtr := rfl

/-! ### After used -/

@[simp] theorem Dev.used_regs (d : Dev) : d.used.regs = d.regs := rfl
@[simp] theorem Dev.used_pend (d : Dev) : d.used.pend = d.pend := rfl
@[simp] theorem Dev.used_evt (d : Dev) : d.used.evt = d.evt := rfl
@[simp] theorem Dev.used_hiCap (d : Dev) : d.used.hiCap = d.hiCap := rfl
@[simp] theorem Dev.used_commits (d : Dev) : d.used.commits = d.commits := rfl
@[simp] theorem Dev.used_conv (d : Dev) : d.used.conv = d.conv := rfl
@[simp] theorem Dev.used_eq (d : Dev) : d.used.eq = d.eq := rfl
@[simp] theorem Dev.used_mem (d : Dev) : d.used.mem = d.mem := rfl
@[simp] theorem Dev.used_map (d : Dev) : d.used.map = d.map := rfl
@[simp] theorem Dev.used_fec (d : Dev) : d.used.fec = d.fec := rfl
@[simp] theorem Dev.used_scc (d : Dev) : d.used.scc = d.scc := rfl
@[simp] theorem Dev.used_enc (d : Dev) : d.used.enc = d.enc := rfl
@[simp] theorem Dev.used_ticks (d : Dev) : d.used.ticks = d.ticks := rfl
@[simp] theorem Dev.used_ks (d : Dev) : d.used.ks = d.ks := rfl
@[simp] theorem Dev.used_clkHist (d : Dev) : d.used.clkHist = d.clkHist := rfl
@[simp] theorem Dev.used_tb (d : Dev) : d.used.tb = d.tb := rfl
@[simp] theorem Dev.used_link (d : Dev) : d.used.link = d.link := rfl
@[simp] theorem Dev.used_tlq (d : Dev) : d.used.tlq = d.tlq := rfl
@[simp] theorem Dev.used_tlqEnq (d : Dev) : d.used.tlqEnq = d.tlqEnq := rfl
@[simp] theorem Dev.used_hg (d : Dev) : d.used.hg = d.hg := rfl
@[simp] theorem Dev.used_tcv (d : Dev) : d.used.tcv = d.tcv := rfl
@[simp] theorem Dev.used_hgCal (d : Dev) : d.used.hgCal = d.hgCal := rfl
@[simp] theorem Dev.used_td (d : Dev) : d.used.td = d.td := rfl
@[simp] theorem Dev.used_tdSnap (d : Dev) : d.used.tdSnap = d.tdSnap := rfl
@[simp] theorem Dev.used_mgmt (d : Dev) : d.used.mgmt = d.mgmt := rfl
@[simp] theorem Dev.used_syn (d : Dev) : d.used.syn = d.syn := rfl
@[simp] theorem Dev.used_merge (d : Dev) : d.used.merge = d.merge := rfl
@[simp] theorem Dev.used_dmaBuf (d : Dev) : d.used.dmaBuf = d.dmaBuf := rfl
@[simp] theorem Dev.used_lost (d : Dev) : d.used.lost = d.lost := rfl
@[simp] theorem Dev.used_occ (d : Dev) : d.used.occ = d.occ := rfl
@[simp] theorem Dev.used_out (d : Dev) : d.used.out = d.out := rfl

@[simp] theorem Dev.ev_occ (d : Dev) (pg k : Nat) : (d.ev pg k).occ = (pg * 64 + k) :: d.occ := rfl
@[simp] theorem Dev.emit_out (d : Dev) (o : Output) : (d.emit o).out = d.out ++ [o] := rfl
@[simp] theorem Dev.used_freeCtr (d : Dev) : d.used.freeCtr = d.freeCtr + 1 := rfl

/-! ### After fresh -/

@[simp] theorem Dev.fresh_regs (d : Dev) : d.fresh.regs = d.regs := rfl
@[simp] theorem Dev.fresh_pend (d : Dev) : d.fresh.pend = d.pend := rfl
@[simp] theorem Dev.fresh_evt (d : Dev) : d.fresh.evt = d.evt := rfl
@[simp] theorem Dev.fresh_hiCap (d : Dev) : d.fresh.hiCap = d.hiCap := rfl
@[simp] theorem Dev.fresh_commits (d : Dev) : d.fresh.commits = d.commits := rfl
@[simp] theorem Dev.fresh_conv (d : Dev) : d.fresh.conv = d.conv := rfl
@[simp] theorem Dev.fresh_eq (d : Dev) : d.fresh.eq = d.eq := rfl
@[simp] theorem Dev.fresh_mem (d : Dev) : d.fresh.mem = d.mem := rfl
@[simp] theorem Dev.fresh_map (d : Dev) : d.fresh.map = d.map := rfl
@[simp] theorem Dev.fresh_fec (d : Dev) : d.fresh.fec = d.fec := rfl
@[simp] theorem Dev.fresh_scc (d : Dev) : d.fresh.scc = d.scc := rfl
@[simp] theorem Dev.fresh_enc (d : Dev) : d.fresh.enc = d.enc := rfl
@[simp] theorem Dev.fresh_ticks (d : Dev) : d.fresh.ticks = d.ticks := rfl
@[simp] theorem Dev.fresh_ks (d : Dev) : d.fresh.ks = d.ks := rfl
@[simp] theorem Dev.fresh_clkHist (d : Dev) : d.fresh.clkHist = d.clkHist := rfl
@[simp] theorem Dev.fresh_tb (d : Dev) : d.fresh.tb = d.tb := rfl
@[simp] theorem Dev.fresh_link (d : Dev) : d.fresh.link = d.link := rfl
@[simp] theorem Dev.fresh_tlq (d : Dev) : d.fresh.tlq = d.tlq := rfl
@[simp] theorem Dev.fresh_tlqEnq (d : Dev) : d.fresh.tlqEnq = d.tlqEnq := rfl
@[simp] theorem Dev.fresh_hg (d : Dev) : d.fresh.hg = d.hg := rfl
@[simp] theorem Dev.fresh_tcv (d : Dev) : d.fresh.tcv = d.tcv := rfl
@[simp] theorem Dev.fresh_hgCal (d : Dev) : d.fresh.hgCal = d.hgCal := rfl
@[simp] theorem Dev.fresh_td (d : Dev) : d.fresh.td = d.td := rfl
@[simp] theorem Dev.fresh_tdSnap (d : Dev) : d.fresh.tdSnap = d.tdSnap := rfl
@[simp] theorem Dev.fresh_mgmt (d : Dev) : d.fresh.mgmt = d.mgmt := rfl
@[simp] theorem Dev.fresh_syn (d : Dev) : d.fresh.syn = d.syn := rfl
@[simp] theorem Dev.fresh_merge (d : Dev) : d.fresh.merge = d.merge := rfl
@[simp] theorem Dev.fresh_dmaBuf (d : Dev) : d.fresh.dmaBuf = d.dmaBuf := rfl
@[simp] theorem Dev.fresh_lost (d : Dev) : d.fresh.lost = d.lost := rfl
@[simp] theorem Dev.fresh_occ (d : Dev) : d.fresh.occ = d.occ := rfl
@[simp] theorem Dev.fresh_freeCtr (d : Dev) : d.fresh.freeCtr = d.freeCtr := rfl
@[simp] theorem Dev.fresh_out (d : Dev) : d.fresh.out = [] := rfl
@[simp] theorem Dev.get_fresh (d : Dev) (pg : Nat) (f : Fld) : d.fresh.get pg f = d.get pg f := rfl
@[simp] theorem Dev.pget_fresh (d : Dev) (pg : Nat) (f : Fld) : d.fresh.pget pg f = d.pget pg f := rfl
@[simp] theorem Dev.flag_fresh (d : Dev) (pg : Nat) (f : Fld) : d.fresh.flag pg f = d.flag pg f := rfl
@[simp] theorem Dev.getLH_fresh (d : Dev) (pg : Nat) (f g : Fld) : d.fresh.getLH pg f g = d.getLH pg f g := rfl
@[simp] theorem Dev.online_fresh (d : Dev) (p : Port) : d.fresh.online p = d.online p := rfl

/-! ### Pairs by port -/

@[simp] theorem Two.get_set_same {α : Type} (t : Two α) (p : Fin 2) (x : α) : (t.set p x).get p = x := by
  unfold Two.set Two.get; split <;> rfl

theorem Two.get_set_other {α : Type} (t : Two α) {p q : Fin 2} (x : α) (h : q ≠ p) : (t.set p x).get q = t.get q := by
  unfold Two.set Two.get; split_ifs <;> first | rfl | omega

@[simp] theorem Two.get_upd_same {α : Type} (t : Two α) (p : Fin 2) (f : α → α) : (t.upd p f).get p = f (t.get p) := by
  simp [Two.upd]

theorem Two.get_upd_other {α : Type} (t : Two α) {p q : Fin 2} (f : α → α) (h : q ≠ p) : (t.upd p f).get q = t.get q := by
  simp [Two.upd, Two.get_set_other _ _ h]

/-! ### Writes in terms of `put` -/

theorem Dev.putb_eq (d : Dev) (pg : Nat) (f : Fld) (b : Bool) : d.putb pg f b = d.put pg f (b2n b) := rfl
theorem Dev.bump_eq (d : Dev) (pg : Nat) (f : Fld) (n : Nat) : d.bump pg f n = d.put pg f (d.get pg f + n) := rfl
theorem Dev.bumpSat_eq (d : Dev) (pg : Nat) (f : Fld) (n : Nat) :
    d.bumpSat pg f n = d.put pg f (satN f.width (d.get pg f + n)) := rfl
theorem Dev.putW_eq (d : Dev) (pg : Nat) (f : Fld) (w : Word) : d.putW pg f w = d.put pg f (f.ofWord w.toNat) := rfl
theorem Dev.putLH_eq (d : Dev) (pg : Nat) (lo hi : Fld) (v : Nat) :
    d.putLH pg lo hi v = (d.put pg lo v).put pg hi (v / 2 ^ 32) := rfl

/-! ### Choice -/

@[simp] theorem Dev.when_true (d : Dev) (f : Dev → Dev) : d.when true f = f d := rfl
@[simp] theorem Dev.when_false (d : Dev) (f : Dev → Dev) : d.when false f = d := rfl

/-- A property that both sides of a choice have. -/
theorem Dev.when_keeps {α : Type} (g : Dev → α) (d : Dev) (c : Bool) (f : Dev → Dev) (h : g (f d) = g d) :
    g (d.when c f) = g d := by cases c <;> simp [h]

/-- A property that every step of a fold keeps. -/
theorem foldl_keeps {α β : Type} (g : Dev → α) (f : Dev → β → Dev) (h : ∀ d x, g (f d x) = g d) (l : List β) :
    ∀ d, g (l.foldl f d) = g d := by
  induction l with
  | nil => exact fun _ => rfl
  | cons x t ih => exact fun d => (ih _).trans (h d x)

/-! ### Reading a field after a write -/

theorem Dev.get_congr {a b : Dev} (h : a.regs = b.regs) (pg : Nat) (f : Fld) : a.get pg f = b.get pg f := by
  simp [Dev.get, h]

@[simp] theorem Dev.get_put_same (d : Dev) (pg : Nat) (f : Fld) (v : Nat) : (d.put pg f v).get pg f = v % 2 ^ f.width := by
  simp [Dev.get, Dev.put]

theorem Dev.get_put_other (d : Dev) (pg pg' : Nat) (f g : Fld) (v : Nat) (h : fkey pg' g.off g.lo ≠ fkey pg f.off f.lo) :
    (d.put pg f v).get pg' g = d.get pg' g := by
  simp [Dev.get, Dev.put, FMap.get_set_other _ _ h]

@[simp] theorem Dev.get_pput (d : Dev) (pg pg' : Nat) (f g : Fld) (v : Nat) : (d.pput pg f v).get pg' g = d.get pg' g := rfl
@[simp] theorem Dev.get_ev (d : Dev) (a b pg : Nat) (f : Fld) : (d.ev a b).get pg f = d.get pg f := rfl
@[simp] theorem Dev.get_emit (d : Dev) (o : Output) (pg : Nat) (f : Fld) : (d.emit o).get pg f = d.get pg f := rfl
@[simp] theorem Dev.get_used (d : Dev) (pg : Nat) (f : Fld) : d.used.get pg f = d.get pg f := rfl

@[simp] theorem Dev.pget_pput_same (d : Dev) (pg : Nat) (f : Fld) (v : Nat) :
    (d.pput pg f v).pget pg f = v % 2 ^ f.width := by simp [Dev.pget, Dev.pput]

theorem Dev.pget_pput_other (d : Dev) (pg pg' : Nat) (f g : Fld) (v : Nat) (h : fkey pg' g.off g.lo ≠ fkey pg f.off f.lo) :
    (d.pput pg f v).pget pg' g = d.pget pg' g := by simp [Dev.pget, Dev.pput, FMap.get_set_other _ _ h]

@[simp] theorem Dev.pget_put (d : Dev) (pg pg' : Nat) (f g : Fld) (v : Nat) : (d.put pg f v).pget pg' g = d.pget pg' g := rfl
@[simp] theorem Dev.pget_ev (d : Dev) (a b pg : Nat) (f : Fld) : (d.ev a b).pget pg f = d.pget pg f := rfl

@[simp] theorem bitsOf_lt (v lo w : Nat) : bitsOf v lo w < 2 ^ w := Nat.mod_lt _ (by positivity)

/-- A field of a word fits the field. -/
@[simp] theorem Fld.ofWord_mod (f : Fld) (w : Nat) : f.ofWord w % 2 ^ f.width = f.ofWord w :=
  Nat.mod_eq_of_lt (bitsOf_lt _ _ _)

@[simp] theorem b2n_mod (b : Bool) {w : Nat} (h : 0 < w) : b2n b % 2 ^ w = b2n b := by
  apply Nat.mod_eq_of_lt
  have : 2 ^ 1 ≤ 2 ^ w := Nat.pow_le_pow_right (by omega) h
  cases b
  · simp [b2n]
  · simp only [b2n, if_true]; omega

/-- A bit of a word as a number. -/
theorem bitOf_toNat {n : Nat} (v : BitVec n) (i : Nat) : bitOf v.toNat i = v.getLsbD i := by
  simp only [bitOf, BitVec.getLsbD, Nat.testBit_eq_decide_div_mod_eq]
  rfl

@[simp] theorem b2n_true : b2n true = 1 := rfl
@[simp] theorem b2n_false : b2n false = 0 := rfl

end Sys2Proof.Machine
end

