-- ==== Sys2Proof/Laws/Updates.lean ====
section
/-! SUPPORT.  Laws of the named updates of the typed parts of the device: each changes its own part and no other. -/

namespace Sys2Proof.Machine

/-! ### After sccUpd -/

@[simp] theorem Dev.sccUpd_regs (d : Dev) (p : Port) (f : SccState → SccState) : (d.sccUpd p f).regs = d.regs := rfl
@[simp] theorem Dev.sccUpd_pend (d : Dev) (p : Port) (f : SccState → SccState) : (d.sccUpd p f).pend = d.pend := rfl
@[simp] theorem Dev.sccUpd_evt (d : Dev) (p : Port) (f : SccState → SccState) : (d.sccUpd p f).evt = d.evt := rfl
@[simp] theorem Dev.sccUpd_hiCap (d : Dev) (p : Port) (f : SccState → SccState) : (d.sccUpd p f).hiCap = d.hiCap := rfl
@[simp] theorem Dev.sccUpd_commits (d : Dev) (p : Port) (f : SccState → SccState) : (d.sccUpd p f).commits = d.commits := rfl
@[simp] theorem Dev.sccUpd_conv (d : Dev) (p : Port) (f : SccState → SccState) : (d.sccUpd p f).conv = d.conv := rfl
@[simp] theorem Dev.sccUpd_eq (d : Dev) (p : Port) (f : SccState → SccState) : (d.sccUpd p f).eq = d.eq := rfl
@[simp] theorem Dev.sccUpd_mem (d : Dev) (p : Port) (f : SccState → SccState) : (d.sccUpd p f).mem = d.mem := rfl
@[simp] theorem Dev.sccUpd_map (d : Dev) (p : Port) (f : SccState → SccState) : (d.sccUpd p f).map = d.map := rfl
@[simp] theorem Dev.sccUpd_fec (d : Dev) (p : Port) (f : SccState → SccState) : (d.sccUpd p f).fec = d.fec := rfl
@[simp] theorem Dev.sccUpd_scc (d : Dev) (p : Port) (f : SccState → SccState) : (d.sccUpd p f).scc = d.scc.upd p f := rfl
@[simp] theorem Dev.sccUpd_enc (d : Dev) (p : Port) (f : SccState → SccState) : (d.sccUpd p f).enc = d.enc := rfl
@[simp] theorem Dev.sccUpd_ticks (d : Dev) (p : Port) (f : SccState → SccState) : (d.sccUpd p f).ticks = d.ticks := rfl
@[simp] theorem Dev.sccUpd_ks (d : Dev) (p : Port) (f : SccState → SccState) : (d.sccUpd p f).ks = d.ks := rfl
@[simp] theorem Dev.sccUpd_clkHist (d : Dev) (p : Port) (f : SccState → SccState) : (d.sccUpd p f).clkHist = d.clkHist := rfl
@[simp] theorem Dev.sccUpd_tb (d : Dev) (p : Port) (f : SccState → SccState) : (d.sccUpd p f).tb = d.tb := rfl
@[simp] theorem Dev.sccUpd_link (d : Dev) (p : Port) (f : SccState → SccState) : (d.sccUpd p f).link = d.link := rfl
@[simp] theorem Dev.sccUpd_tlq (d : Dev) (p : Port) (f : SccState → SccState) : (d.sccUpd p f).tlq = d.tlq := rfl
@[simp] theorem Dev.sccUpd_tlqEnq (d : Dev) (p : Port) (f : SccState → SccState) : (d.sccUpd p f).tlqEnq = d.tlqEnq := rfl
@[simp] theorem Dev.sccUpd_hg (d : Dev) (p : Port) (f : SccState → SccState) : (d.sccUpd p f).hg = d.hg := rfl
@[simp] theorem Dev.sccUpd_tcv (d : Dev) (p : Port) (f : SccState → SccState) : (d.sccUpd p f).tcv = d.tcv := rfl
@[simp] theorem Dev.sccUpd_hgCal (d : Dev) (p : Port) (f : SccState → SccState) : (d.sccUpd p f).hgCal = d.hgCal := rfl
@[simp] theorem Dev.sccUpd_td (d : Dev) (p : Port) (f : SccState → SccState) : (d.sccUpd p f).td = d.td := rfl
@[simp] theorem Dev.sccUpd_tdSnap (d : Dev) (p : Port) (f : SccState → SccState) : (d.sccUpd p f).tdSnap = d.tdSnap := rfl
@[simp] theorem Dev.sccUpd_mgmt (d : Dev) (p : Port) (f : SccState → SccState) : (d.sccUpd p f).mgmt = d.mgmt := rfl
@[simp] theorem Dev.sccUpd_syn (d : Dev) (p : Port) (f : SccState → SccState) : (d.sccUpd p f).syn = d.syn := rfl
@[simp] theorem Dev.sccUpd_merge (d : Dev) (p : Port) (f : SccState → SccState) : (d.sccUpd p f).merge = d.merge := rfl
@[simp] theorem Dev.sccUpd_dmaBuf (d : Dev) (p : Port) (f : SccState → SccState) : (d.sccUpd p f).dmaBuf = d.dmaBuf := rfl
@[simp] theorem Dev.sccUpd_lost (d : Dev) (p : Port) (f : SccState → SccState) : (d.sccUpd p f).lost = d.lost := rfl
@[simp] theorem Dev.sccUpd_occ (d : Dev) (p : Port) (f : SccState → SccState) : (d.sccUpd p f).occ = d.occ := rfl
@[simp] theorem Dev.sccUpd_out (d : Dev) (p : Port) (f : SccState → SccState) : (d.sccUpd p f).out = d.out := rfl
@[simp] theorem Dev.sccUpd_freeCtr (d : Dev) (p : Port) (f : SccState → SccState) : (d.sccUpd p f).freeCtr = d.freeCtr := rfl
@[simp] theorem Dev.get_sccUpd (d : Dev) (p : Port) (f : SccState → SccState) (pg : Nat) (g : Fld) : (d.sccUpd p f).get pg g = d.get pg g := rfl
@[simp] theorem Dev.pget_sccUpd (d : Dev) (p : Port) (f : SccState → SccState) (pg : Nat) (g : Fld) : (d.sccUpd p f).pget pg g = d.pget pg g := rfl

/-! ### After convUpd -/

@[simp] theorem Dev.convUpd_regs (d : Dev) (p : Port) (f : ConvState → ConvState) : (d.convUpd p f).regs = d.regs := rfl
@[simp] theorem Dev.convUpd_pend (d : Dev) (p : Port) (f : ConvState → ConvState) : (d.convUpd p f).pend = d.pend := rfl
@[simp] theorem Dev.convUpd_evt (d : Dev) (p : Port) (f : ConvState → ConvState) : (d.convUpd p f).evt = d.evt := rfl
@[simp] theorem Dev.convUpd_hiCap (d : Dev) (p : Port) (f : ConvState → ConvState) : (d.convUpd p f).hiCap = d.hiCap := rfl
@[simp] theorem Dev.convUpd_commits (d : Dev) (p : Port) (f : ConvState → ConvState) : (d.convUpd p f).commits = d.commits := rfl
@[simp] theorem Dev.convUpd_conv (d : Dev) (p : Port) (f : ConvState → ConvState) : (d.convUpd p f).conv = d.conv.upd p f := rfl
@[simp] theorem Dev.convUpd_eq (d : Dev) (p : Port) (f : ConvState → ConvState) : (d.convUpd p f).eq = d.eq := rfl
@[simp] theorem Dev.convUpd_mem (d : Dev) (p : Port) (f : ConvState → ConvState) : (d.convUpd p f).mem = d.mem := rfl
@[simp] theorem Dev.convUpd_map (d : Dev) (p : Port) (f : ConvState → ConvState) : (d.convUpd p f).map = d.map := rfl
@[simp] theorem Dev.convUpd_fec (d : Dev) (p : Port) (f : ConvState → ConvState) : (d.convUpd p f).fec = d.fec := rfl
@[simp] theorem Dev.convUpd_scc (d : Dev) (p : Port) (f : ConvState → ConvState) : (d.convUpd p f).scc = d.scc := rfl
@[simp] theorem Dev.convUpd_enc (d : Dev) (p : Port) (f : ConvState → ConvState) : (d.convUpd p f).enc = d.enc := rfl
@[simp] theorem Dev.convUpd_ticks (d : Dev) (p : Port) (f : ConvState → ConvState) : (d.convUpd p f).ticks = d.ticks := rfl
@[simp] theorem Dev.convUpd_ks (d : Dev) (p : Port) (f : ConvState → ConvState) : (d.convUpd p f).ks = d.ks := rfl
@[simp] theorem Dev.convUpd_clkHist (d : Dev) (p : Port) (f : ConvState → ConvState) : (d.convUpd p f).clkHist = d.clkHist := rfl
@[simp] theorem Dev.convUpd_tb (d : Dev) (p : Port) (f : ConvState → ConvState) : (d.convUpd p f).tb = d.tb := rfl
@[simp] theorem Dev.convUpd_link (d : Dev) (p : Port) (f : ConvState → ConvState) : (d.convUpd p f).link = d.link := rfl
@[simp] theorem Dev.convUpd_tlq (d : Dev) (p : Port) (f : ConvState → ConvState) : (d.convUpd p f).tlq = d.tlq := rfl
@[simp] theorem Dev.convUpd_tlqEnq (d : Dev) (p : Port) (f : ConvState → ConvState) : (d.convUpd p f).tlqEnq = d.tlqEnq := rfl
@[simp] theorem Dev.convUpd_hg (d : Dev) (p : Port) (f : ConvState → ConvState) : (d.convUpd p f).hg = d.hg := rfl
@[simp] theorem Dev.convUpd_tcv (d : Dev) (p : Port) (f : ConvState → ConvState) : (d.convUpd p f).tcv = d.tcv := rfl
@[simp] theorem Dev.convUpd_hgCal (d : Dev) (p : Port) (f : ConvState → ConvState) : (d.convUpd p f).hgCal = d.hgCal := rfl
@[simp] theorem Dev.convUpd_td (d : Dev) (p : Port) (f : ConvState → ConvState) : (d.convUpd p f).td = d.td := rfl
@[simp] theorem Dev.convUpd_tdSnap (d : Dev) (p : Port) (f : ConvState → ConvState) : (d.convUpd p f).tdSnap = d.tdSnap := rfl
@[simp] theorem Dev.convUpd_mgmt (d : Dev) (p : Port) (f : ConvState → ConvState) : (d.convUpd p f).mgmt = d.mgmt := rfl
@[simp] theorem Dev.convUpd_syn (d : Dev) (p : Port) (f : ConvState → ConvState) : (d.convUpd p f).syn = d.syn := rfl
@[simp] theorem Dev.convUpd_merge (d : Dev) (p : Port) (f : ConvState → ConvState) : (d.convUpd p f).merge = d.merge := rfl
@[simp] theorem Dev.convUpd_dmaBuf (d : Dev) (p : Port) (f : ConvState → ConvState) : (d.convUpd p f).dmaBuf = d.dmaBuf := rfl
@[simp] theorem Dev.convUpd_lost (d : Dev) (p : Port) (f : ConvState → ConvState) : (d.convUpd p f).lost = d.lost := rfl
@[simp] theorem Dev.convUpd_occ (d : Dev) (p : Port) (f : ConvState → ConvState) : (d.convUpd p f).occ = d.occ := rfl
@[simp] theorem Dev.convUpd_out (d : Dev) (p : Port) (f : ConvState → ConvState) : (d.convUpd p f).out = d.out := rfl
@[simp] theorem Dev.convUpd_freeCtr (d : Dev) (p : Port) (f : ConvState → ConvState) : (d.convUpd p f).freeCtr = d.freeCtr := rfl
@[simp] theorem Dev.get_convUpd (d : Dev) (p : Port) (f : ConvState → ConvState) (pg : Nat) (g : Fld) : (d.convUpd p f).get pg g = d.get pg g := rfl
@[simp] theorem Dev.pget_convUpd (d : Dev) (p : Port) (f : ConvState → ConvState) (pg : Nat) (g : Fld) : (d.convUpd p f).pget pg g = d.pget pg g := rfl

/-! ### After fecUpd -/

@[simp] theorem Dev.fecUpd_regs (d : Dev) (p : Port) (f : FecState → FecState) : (d.fecUpd p f).regs = d.regs := rfl
@[simp] theorem Dev.fecUpd_pend (d : Dev) (p : Port) (f : FecState → FecState) : (d.fecUpd p f).pend = d.pend := rfl
@[simp] theorem Dev.fecUpd_evt (d : Dev) (p : Port) (f : FecState → FecState) : (d.fecUpd p f).evt = d.evt := rfl
@[simp] theorem Dev.fecUpd_hiCap (d : Dev) (p : Port) (f : FecState → FecState) : (d.fecUpd p f).hiCap = d.hiCap := rfl
@[simp] theorem Dev.fecUpd_commits (d : Dev) (p : Port) (f : FecState → FecState) : (d.fecUpd p f).commits = d.commits := rfl
@[simp] theorem Dev.fecUpd_conv (d : Dev) (p : Port) (f : FecState → FecState) : (d.fecUpd p f).conv = d.conv := rfl
@[simp] theorem Dev.fecUpd_eq (d : Dev) (p : Port) (f : FecState → FecState) : (d.fecUpd p f).eq = d.eq := rfl
@[simp] theorem Dev.fecUpd_mem (d : Dev) (p : Port) (f : FecState → FecState) : (d.fecUpd p f).mem = d.mem := rfl
@[simp] theorem Dev.fecUpd_map (d : Dev) (p : Port) (f : FecState → FecState) : (d.fecUpd p f).map = d.map := rfl
@[simp] theorem Dev.fecUpd_fec (d : Dev) (p : Port) (f : FecState → FecState) : (d.fecUpd p f).fec = d.fec.upd p f := rfl
@[simp] theorem Dev.fecUpd_scc (d : Dev) (p : Port) (f : FecState → FecState) : (d.fecUpd p f).scc = d.scc := rfl
@[simp] theorem Dev.fecUpd_enc (d : Dev) (p : Port) (f : FecState → FecState) : (d.fecUpd p f).enc = d.enc := rfl
@[simp] theorem Dev.fecUpd_ticks (d : Dev) (p : Port) (f : FecState → FecState) : (d.fecUpd p f).ticks = d.ticks := rfl
@[simp] theorem Dev.fecUpd_ks (d : Dev) (p : Port) (f : FecState → FecState) : (d.fecUpd p f).ks = d.ks := rfl
@[simp] theorem Dev.fecUpd_clkHist (d : Dev) (p : Port) (f : FecState → FecState) : (d.fecUpd p f).clkHist = d.clkHist := rfl
@[simp] theorem Dev.fecUpd_tb (d : Dev) (p : Port) (f : FecState → FecState) : (d.fecUpd p f).tb = d.tb := rfl
@[simp] theorem Dev.fecUpd_link (d : Dev) (p : Port) (f : FecState → FecState) : (d.fecUpd p f).link = d.link := rfl
@[simp] theorem Dev.fecUpd_tlq (d : Dev) (p : Port) (f : FecState → FecState) : (d.fecUpd p f).tlq = d.tlq := rfl
@[simp] theorem Dev.fecUpd_tlqEnq (d : Dev) (p : Port) (f : FecState → FecState) : (d.fecUpd p f).tlqEnq = d.tlqEnq := rfl
@[simp] theorem Dev.fecUpd_hg (d : Dev) (p : Port) (f : FecState → FecState) : (d.fecUpd p f).hg = d.hg := rfl
@[simp] theorem Dev.fecUpd_tcv (d : Dev) (p : Port) (f : FecState → FecState) : (d.fecUpd p f).tcv = d.tcv := rfl
@[simp] theorem Dev.fecUpd_hgCal (d : Dev) (p : Port) (f : FecState → FecState) : (d.fecUpd p f).hgCal = d.hgCal := rfl
@[simp] theorem Dev.fecUpd_td (d : Dev) (p : Port) (f : FecState → FecState) : (d.fecUpd p f).td = d.td := rfl
@[simp] theorem Dev.fecUpd_tdSnap (d : Dev) (p : Port) (f : FecState → FecState) : (d.fecUpd p f).tdSnap = d.tdSnap := rfl
@[simp] theorem Dev.fecUpd_mgmt (d : Dev) (p : Port) (f : FecState → FecState) : (d.fecUpd p f).mgmt = d.mgmt := rfl
@[simp] theorem Dev.fecUpd_syn (d : Dev) (p : Port) (f : FecState → FecState) : (d.fecUpd p f).syn = d.syn := rfl
@[simp] theorem Dev.fecUpd_merge (d : Dev) (p : Port) (f : FecState → FecState) : (d.fecUpd p f).merge = d.merge := rfl
@[simp] theorem Dev.fecUpd_dmaBuf (d : Dev) (p : Port) (f : FecState → FecState) : (d.fecUpd p f).dmaBuf = d.dmaBuf := rfl
@[simp] theorem Dev.fecUpd_lost (d : Dev) (p : Port) (f : FecState → FecState) : (d.fecUpd p f).lost = d.lost := rfl
@[simp] theorem Dev.fecUpd_occ (d : Dev) (p : Port) (f : FecState → FecState) : (d.fecUpd p f).occ = d.occ := rfl
@[simp] theorem Dev.fecUpd_out (d : Dev) (p : Port) (f : FecState → FecState) : (d.fecUpd p f).out = d.out := rfl
@[simp] theorem Dev.fecUpd_freeCtr (d : Dev) (p : Port) (f : FecState → FecState) : (d.fecUpd p f).freeCtr = d.freeCtr := rfl
@[simp] theorem Dev.get_fecUpd (d : Dev) (p : Port) (f : FecState → FecState) (pg : Nat) (g : Fld) : (d.fecUpd p f).get pg g = d.get pg g := rfl
@[simp] theorem Dev.pget_fecUpd (d : Dev) (p : Port) (f : FecState → FecState) (pg : Nat) (g : Fld) : (d.fecUpd p f).pget pg g = d.pget pg g := rfl

/-! ### After eqUpd -/

@[simp] theorem Dev.eqUpd_regs (d : Dev) (p : Port) (f : EqState → EqState) : (d.eqUpd p f).regs = d.regs := rfl
@[simp] theorem Dev.eqUpd_pend (d : Dev) (p : Port) (f : EqState → EqState) : (d.eqUpd p f).pend = d.pend := rfl
@[simp] theorem Dev.eqUpd_evt (d : Dev) (p : Port) (f : EqState → EqState) : (d.eqUpd p f).evt = d.evt := rfl
@[simp] theorem Dev.eqUpd_hiCap (d : Dev) (p : Port) (f : EqState → EqState) : (d.eqUpd p f).hiCap = d.hiCap := rfl
@[simp] theorem Dev.eqUpd_commits (d : Dev) (p : Port) (f : EqState → EqState) : (d.eqUpd p f).commits = d.commits := rfl
@[simp] theorem Dev.eqUpd_conv (d : Dev) (p : Port) (f : EqState → EqState) : (d.eqUpd p f).conv = d.conv := rfl
@[simp] theorem Dev.eqUpd_eq (d : Dev) (p : Port) (f : EqState → EqState) : (d.eqUpd p f).eq = d.eq.upd p f := rfl
@[simp] theorem Dev.eqUpd_mem (d : Dev) (p : Port) (f : EqState → EqState) : (d.eqUpd p f).mem = d.mem := rfl
@[simp] theorem Dev.eqUpd_map (d : Dev) (p : Port) (f : EqState → EqState) : (d.eqUpd p f).map = d.map := rfl
@[simp] theorem Dev.eqUpd_fec (d : Dev) (p : Port) (f : EqState → EqState) : (d.eqUpd p f).fec = d.fec := rfl
@[simp] theorem Dev.eqUpd_scc (d : Dev) (p : Port) (f : EqState → EqState) : (d.eqUpd p f).scc = d.scc := rfl
@[simp] theorem Dev.eqUpd_enc (d : Dev) (p : Port) (f : EqState → EqState) : (d.eqUpd p f).enc = d.enc := rfl
@[simp] theorem Dev.eqUpd_ticks (d : Dev) (p : Port) (f : EqState → EqState) : (d.eqUpd p f).ticks = d.ticks := rfl
@[simp] theorem Dev.eqUpd_ks (d : Dev) (p : Port) (f : EqState → EqState) : (d.eqUpd p f).ks = d.ks := rfl
@[simp] theorem Dev.eqUpd_clkHist (d : Dev) (p : Port) (f : EqState → EqState) : (d.eqUpd p f).clkHist = d.clkHist := rfl
@[simp] theorem Dev.eqUpd_tb (d : Dev) (p : Port) (f : EqState → EqState) : (d.eqUpd p f).tb = d.tb := rfl
@[simp] theorem Dev.eqUpd_link (d : Dev) (p : Port) (f : EqState → EqState) : (d.eqUpd p f).link = d.link := rfl
@[simp] theorem Dev.eqUpd_tlq (d : Dev) (p : Port) (f : EqState → EqState) : (d.eqUpd p f).tlq = d.tlq := rfl
@[simp] theorem Dev.eqUpd_tlqEnq (d : Dev) (p : Port) (f : EqState → EqState) : (d.eqUpd p f).tlqEnq = d.tlqEnq := rfl
@[simp] theorem Dev.eqUpd_hg (d : Dev) (p : Port) (f : EqState → EqState) : (d.eqUpd p f).hg = d.hg := rfl
@[simp] theorem Dev.eqUpd_tcv (d : Dev) (p : Port) (f : EqState → EqState) : (d.eqUpd p f).tcv = d.tcv := rfl
@[simp] theorem Dev.eqUpd_hgCal (d : Dev) (p : Port) (f : EqState → EqState) : (d.eqUpd p f).hgCal = d.hgCal := rfl
@[simp] theorem Dev.eqUpd_td (d : Dev) (p : Port) (f : EqState → EqState) : (d.eqUpd p f).td = d.td := rfl
@[simp] theorem Dev.eqUpd_tdSnap (d : Dev) (p : Port) (f : EqState → EqState) : (d.eqUpd p f).tdSnap = d.tdSnap := rfl
@[simp] theorem Dev.eqUpd_mgmt (d : Dev) (p : Port) (f : EqState → EqState) : (d.eqUpd p f).mgmt = d.mgmt := rfl
@[simp] theorem Dev.eqUpd_syn (d : Dev) (p : Port) (f : EqState → EqState) : (d.eqUpd p f).syn = d.syn := rfl
@[simp] theorem Dev.eqUpd_merge (d : Dev) (p : Port) (f : EqState → EqState) : (d.eqUpd p f).merge = d.merge := rfl
@[simp] theorem Dev.eqUpd_dmaBuf (d : Dev) (p : Port) (f : EqState → EqState) : (d.eqUpd p f).dmaBuf = d.dmaBuf := rfl
@[simp] theorem Dev.eqUpd_lost (d : Dev) (p : Port) (f : EqState → EqState) : (d.eqUpd p f).lost = d.lost := rfl
@[simp] theorem Dev.eqUpd_occ (d : Dev) (p : Port) (f : EqState → EqState) : (d.eqUpd p f).occ = d.occ := rfl
@[simp] theorem Dev.eqUpd_out (d : Dev) (p : Port) (f : EqState → EqState) : (d.eqUpd p f).out = d.out := rfl
@[simp] theorem Dev.eqUpd_freeCtr (d : Dev) (p : Port) (f : EqState → EqState) : (d.eqUpd p f).freeCtr = d.freeCtr := rfl
@[simp] theorem Dev.get_eqUpd (d : Dev) (p : Port) (f : EqState → EqState) (pg : Nat) (g : Fld) : (d.eqUpd p f).get pg g = d.get pg g := rfl
@[simp] theorem Dev.pget_eqUpd (d : Dev) (p : Port) (f : EqState → EqState) (pg : Nat) (g : Fld) : (d.eqUpd p f).pget pg g = d.pget pg g := rfl

/-! ### After mapUpd -/

@[simp] theorem Dev.mapUpd_regs (d : Dev) (p : Port) (f : MapState → MapState) : (d.mapUpd p f).regs = d.regs := rfl
@[simp] theorem Dev.mapUpd_pend (d : Dev) (p : Port) (f : MapState → MapState) : (d.mapUpd p f).pend = d.pend := rfl
@[simp] theorem Dev.mapUpd_evt (d : Dev) (p : Port) (f : MapState → MapState) : (d.mapUpd p f).evt = d.evt := rfl
@[simp] theorem Dev.mapUpd_hiCap (d : Dev) (p : Port) (f : MapState → MapState) : (d.mapUpd p f).hiCap = d.hiCap := rfl
@[simp] theorem Dev.mapUpd_commits (d : Dev) (p : Port) (f : MapState → MapState) : (d.mapUpd p f).commits = d.commits := rfl
@[simp] theorem Dev.mapUpd_conv (d : Dev) (p : Port) (f : MapState → MapState) : (d.mapUpd p f).conv = d.conv := rfl
@[simp] theorem Dev.mapUpd_eq (d : Dev) (p : Port) (f : MapState → MapState) : (d.mapUpd p f).eq = d.eq := rfl
@[simp] theorem Dev.mapUpd_mem (d : Dev) (p : Port) (f : MapState → MapState) : (d.mapUpd p f).mem = d.mem := rfl
@[simp] theorem Dev.mapUpd_map (d : Dev) (p : Port) (f : MapState → MapState) : (d.mapUpd p f).map = d.map.upd p f := rfl
@[simp] theorem Dev.mapUpd_fec (d : Dev) (p : Port) (f : MapState → MapState) : (d.mapUpd p f).fec = d.fec := rfl
@[simp] theorem Dev.mapUpd_scc (d : Dev) (p : Port) (f : MapState → MapState) : (d.mapUpd p f).scc = d.scc := rfl
@[simp] theorem Dev.mapUpd_enc (d : Dev) (p : Port) (f : MapState → MapState) : (d.mapUpd p f).enc = d.enc := rfl
@[simp] theorem Dev.mapUpd_ticks (d : Dev) (p : Port) (f : MapState → MapState) : (d.mapUpd p f).ticks = d.ticks := rfl
@[simp] theorem Dev.mapUpd_ks (d : Dev) (p : Port) (f : MapState → MapState) : (d.mapUpd p f).ks = d.ks := rfl
@[simp] theorem Dev.mapUpd_clkHist (d : Dev) (p : Port) (f : MapState → MapState) : (d.mapUpd p f).clkHist = d.clkHist := rfl
@[simp] theorem Dev.mapUpd_tb (d : Dev) (p : Port) (f : MapState → MapState) : (d.mapUpd p f).tb = d.tb := rfl
@[simp] theorem Dev.mapUpd_link (d : Dev) (p : Port) (f : MapState → MapState) : (d.mapUpd p f).link = d.link := rfl
@[simp] theorem Dev.mapUpd_tlq (d : Dev) (p : Port) (f : MapState → MapState) : (d.mapUpd p f).tlq = d.tlq := rfl
@[simp] theorem Dev.mapUpd_tlqEnq (d : Dev) (p : Port) (f : MapState → MapState) : (d.mapUpd p f).tlqEnq = d.tlqEnq := rfl
@[simp] theorem Dev.mapUpd_hg (d : Dev) (p : Port) (f : MapState → MapState) : (d.mapUpd p f).hg = d.hg := rfl
@[simp] theorem Dev.mapUpd_tcv (d : Dev) (p : Port) (f : MapState → MapState) : (d.mapUpd p f).tcv = d.tcv := rfl
@[simp] theorem Dev.mapUpd_hgCal (d : Dev) (p : Port) (f : MapState → MapState) : (d.mapUpd p f).hgCal = d.hgCal := rfl
@[simp] theorem Dev.mapUpd_td (d : Dev) (p : Port) (f : MapState → MapState) : (d.mapUpd p f).td = d.td := rfl
@[simp] theorem Dev.mapUpd_tdSnap (d : Dev) (p : Port) (f : MapState → MapState) : (d.mapUpd p f).tdSnap = d.tdSnap := rfl
@[simp] theorem Dev.mapUpd_mgmt (d : Dev) (p : Port) (f : MapState → MapState) : (d.mapUpd p f).mgmt = d.mgmt := rfl
@[simp] theorem Dev.mapUpd_syn (d : Dev) (p : Port) (f : MapState → MapState) : (d.mapUpd p f).syn = d.syn := rfl
@[simp] theorem Dev.mapUpd_merge (d : Dev) (p : Port) (f : MapState → MapState) : (d.mapUpd p f).merge = d.merge := rfl
@[simp] theorem Dev.mapUpd_dmaBuf (d : Dev) (p : Port) (f : MapState → MapState) : (d.mapUpd p f).dmaBuf = d.dmaBuf := rfl
@[simp] theorem Dev.mapUpd_lost (d : Dev) (p : Port) (f : MapState → MapState) : (d.mapUpd p f).lost = d.lost := rfl
@[simp] theorem Dev.mapUpd_occ (d : Dev) (p : Port) (f : MapState → MapState) : (d.mapUpd p f).occ = d.occ := rfl
@[simp] theorem Dev.mapUpd_out (d : Dev) (p : Port) (f : MapState → MapState) : (d.mapUpd p f).out = d.out := rfl
@[simp] theorem Dev.mapUpd_freeCtr (d : Dev) (p : Port) (f : MapState → MapState) : (d.mapUpd p f).freeCtr = d.freeCtr := rfl
@[simp] theorem Dev.get_mapUpd (d : Dev) (p : Port) (f : MapState → MapState) (pg : Nat) (g : Fld) : (d.mapUpd p f).get pg g = d.get pg g := rfl
@[simp] theorem Dev.pget_mapUpd (d : Dev) (p : Port) (f : MapState → MapState) (pg : Nat) (g : Fld) : (d.mapUpd p f).pget pg g = d.pget pg g := rfl

/-! ### After tlUpd -/

@[simp] theorem Dev.tlUpd_regs (d : Dev) (p : Port) (f : TimeLink → TimeLink) : (d.tlUpd p f).regs = d.regs := rfl
@[simp] theorem Dev.tlUpd_pend (d : Dev) (p : Port) (f : TimeLink → TimeLink) : (d.tlUpd p f).pend = d.pend := rfl
@[simp] theorem Dev.tlUpd_evt (d : Dev) (p : Port) (f : TimeLink → TimeLink) : (d.tlUpd p f).evt = d.evt := rfl
@[simp] theorem Dev.tlUpd_hiCap (d : Dev) (p : Port) (f : TimeLink → TimeLink) : (d.tlUpd p f).hiCap = d.hiCap := rfl
@[simp] theorem Dev.tlUpd_commits (d : Dev) (p : Port) (f : TimeLink → TimeLink) : (d.tlUpd p f).commits = d.commits := rfl
@[simp] theorem Dev.tlUpd_conv (d : Dev) (p : Port) (f : TimeLink → TimeLink) : (d.tlUpd p f).conv = d.conv := rfl
@[simp] theorem Dev.tlUpd_eq (d : Dev) (p : Port) (f : TimeLink → TimeLink) : (d.tlUpd p f).eq = d.eq := rfl
@[simp] theorem Dev.tlUpd_mem (d : Dev) (p : Port) (f : TimeLink → TimeLink) : (d.tlUpd p f).mem = d.mem := rfl
@[simp] theorem Dev.tlUpd_map (d : Dev) (p : Port) (f : TimeLink → TimeLink) : (d.tlUpd p f).map = d.map := rfl
@[simp] theorem Dev.tlUpd_fec (d : Dev) (p : Port) (f : TimeLink → TimeLink) : (d.tlUpd p f).fec = d.fec := rfl
@[simp] theorem Dev.tlUpd_scc (d : Dev) (p : Port) (f : TimeLink → TimeLink) : (d.tlUpd p f).scc = d.scc := rfl
@[simp] theorem Dev.tlUpd_enc (d : Dev) (p : Port) (f : TimeLink → TimeLink) : (d.tlUpd p f).enc = d.enc := rfl
@[simp] theorem Dev.tlUpd_ticks (d : Dev) (p : Port) (f : TimeLink → TimeLink) : (d.tlUpd p f).ticks = d.ticks := rfl
@[simp] theorem Dev.tlUpd_ks (d : Dev) (p : Port) (f : TimeLink → TimeLink) : (d.tlUpd p f).ks = d.ks := rfl
@[simp] theorem Dev.tlUpd_clkHist (d : Dev) (p : Port) (f : TimeLink → TimeLink) : (d.tlUpd p f).clkHist = d.clkHist := rfl
@[simp] theorem Dev.tlUpd_tb (d : Dev) (p : Port) (f : TimeLink → TimeLink) : (d.tlUpd p f).tb = d.tb := rfl
@[simp] theorem Dev.tlUpd_link (d : Dev) (p : Port) (f : TimeLink → TimeLink) : (d.tlUpd p f).link = d.link.upd p f := rfl
@[simp] theorem Dev.tlUpd_tlq (d : Dev) (p : Port) (f : TimeLink → TimeLink) : (d.tlUpd p f).tlq = d.tlq := rfl
@[simp] theorem Dev.tlUpd_tlqEnq (d : Dev) (p : Port) (f : TimeLink → TimeLink) : (d.tlUpd p f).tlqEnq = d.tlqEnq := rfl
@[simp] theorem Dev.tlUpd_hg (d : Dev) (p : Port) (f : TimeLink → TimeLink) : (d.tlUpd p f).hg = d.hg := rfl
@[simp] theorem Dev.tlUpd_tcv (d : Dev) (p : Port) (f : TimeLink → TimeLink) : (d.tlUpd p f).tcv = d.tcv := rfl
@[simp] theorem Dev.tlUpd_hgCal (d : Dev) (p : Port) (f : TimeLink → TimeLink) : (d.tlUpd p f).hgCal = d.hgCal := rfl
@[simp] theorem Dev.tlUpd_td (d : Dev) (p : Port) (f : TimeLink → TimeLink) : (d.tlUpd p f).td = d.td := rfl
@[simp] theorem Dev.tlUpd_tdSnap (d : Dev) (p : Port) (f : TimeLink → TimeLink) : (d.tlUpd p f).tdSnap = d.tdSnap := rfl
@[simp] theorem Dev.tlUpd_mgmt (d : Dev) (p : Port) (f : TimeLink → TimeLink) : (d.tlUpd p f).mgmt = d.mgmt := rfl
@[simp] theorem Dev.tlUpd_syn (d : Dev) (p : Port) (f : TimeLink → TimeLink) : (d.tlUpd p f).syn = d.syn := rfl
@[simp] theorem Dev.tlUpd_merge (d : Dev) (p : Port) (f : TimeLink → TimeLink) : (d.tlUpd p f).merge = d.merge := rfl
@[simp] theorem Dev.tlUpd_dmaBuf (d : Dev) (p : Port) (f : TimeLink → TimeLink) : (d.tlUpd p f).dmaBuf = d.dmaBuf := rfl
@[simp] theorem Dev.tlUpd_lost (d : Dev) (p : Port) (f : TimeLink → TimeLink) : (d.tlUpd p f).lost = d.lost := rfl
@[simp] theorem Dev.tlUpd_occ (d : Dev) (p : Port) (f : TimeLink → TimeLink) : (d.tlUpd p f).occ = d.occ := rfl
@[simp] theorem Dev.tlUpd_out (d : Dev) (p : Port) (f : TimeLink → TimeLink) : (d.tlUpd p f).out = d.out := rfl
@[simp] theorem Dev.tlUpd_freeCtr (d : Dev) (p : Port) (f : TimeLink → TimeLink) : (d.tlUpd p f).freeCtr = d.freeCtr := rfl
@[simp] theorem Dev.get_tlUpd (d : Dev) (p : Port) (f : TimeLink → TimeLink) (pg : Nat) (g : Fld) : (d.tlUpd p f).get pg g = d.get pg g := rfl
@[simp] theorem Dev.pget_tlUpd (d : Dev) (p : Port) (f : TimeLink → TimeLink) (pg : Nat) (g : Fld) : (d.tlUpd p f).pget pg g = d.pget pg g := rfl

/-! ### After encUpdS -/

@[simp] theorem Dev.encUpdS_regs (d : Dev) (f : EncState → EncState) : (d.encUpdS f).regs = d.regs := rfl
@[simp] theorem Dev.encUpdS_pend (d : Dev) (f : EncState → EncState) : (d.encUpdS f).pend = d.pend := rfl
@[simp] theorem Dev.encUpdS_evt (d : Dev) (f : EncState → EncState) : (d.encUpdS f).evt = d.evt := rfl
@[simp] theorem Dev.encUpdS_hiCap (d : Dev) (f : EncState → EncState) : (d.encUpdS f).hiCap = d.hiCap := rfl
@[simp] theorem Dev.encUpdS_commits (d : Dev) (f : EncState → EncState) : (d.encUpdS f).commits = d.commits := rfl
@[simp] theorem Dev.encUpdS_conv (d : Dev) (f : EncState → EncState) : (d.encUpdS f).conv = d.conv := rfl
@[simp] theorem Dev.encUpdS_eq (d : Dev) (f : EncState → EncState) : (d.encUpdS f).eq = d.eq := rfl
@[simp] theorem Dev.encUpdS_mem (d : Dev) (f : EncState → EncState) : (d.encUpdS f).mem = d.mem := rfl
@[simp] theorem Dev.encUpdS_map (d : Dev) (f : EncState → EncState) : (d.encUpdS f).map = d.map := rfl
@[simp] theorem Dev.encUpdS_fec (d : Dev) (f : EncState → EncState) : (d.encUpdS f).fec = d.fec := rfl
@[simp] theorem Dev.encUpdS_scc (d : Dev) (f : EncState → EncState) : (d.encUpdS f).scc = d.scc := rfl
@[simp] theorem Dev.encUpdS_enc (d : Dev) (f : EncState → EncState) : (d.encUpdS f).enc = f d.enc := rfl
@[simp] theorem Dev.encUpdS_ticks (d : Dev) (f : EncState → EncState) : (d.encUpdS f).ticks = d.ticks := rfl
@[simp] theorem Dev.encUpdS_ks (d : Dev) (f : EncState → EncState) : (d.encUpdS f).ks = d.ks := rfl
@[simp] theorem Dev.encUpdS_clkHist (d : Dev) (f : EncState → EncState) : (d.encUpdS f).clkHist = d.clkHist := rfl
@[simp] theorem Dev.encUpdS_tb (d : Dev) (f : EncState → EncState) : (d.encUpdS f).tb = d.tb := rfl
@[simp] theorem Dev.encUpdS_link (d : Dev) (f : EncState → EncState) : (d.encUpdS f).link = d.link := rfl
@[simp] theorem Dev.encUpdS_tlq (d : Dev) (f : EncState → EncState) : (d.encUpdS f).tlq = d.tlq := rfl
@[simp] theorem Dev.encUpdS_tlqEnq (d : Dev) (f : EncState → EncState) : (d.encUpdS f).tlqEnq = d.tlqEnq := rfl
@[simp] theorem Dev.encUpdS_hg (d : Dev) (f : EncState → EncState) : (d.encUpdS f).hg = d.hg := rfl
@[simp] theorem Dev.encUpdS_tcv (d : Dev) (f : EncState → EncState) : (d.encUpdS f).tcv = d.tcv := rfl
@[simp] theorem Dev.encUpdS_hgCal (d : Dev) (f : EncState → EncState) : (d.encUpdS f).hgCal = d.hgCal := rfl
@[simp] theorem Dev.encUpdS_td (d : Dev) (f : EncState → EncState) : (d.encUpdS f).td = d.td := rfl
@[simp] theorem Dev.encUpdS_tdSnap (d : Dev) (f : EncState → EncState) : (d.encUpdS f).tdSnap = d.tdSnap := rfl
@[simp] theorem Dev.encUpdS_mgmt (d : Dev) (f : EncState → EncState) : (d.encUpdS f).mgmt = d.mgmt := rfl
@[simp] theorem Dev.encUpdS_syn (d : Dev) (f : EncState → EncState) : (d.encUpdS f).syn = d.syn := rfl
@[simp] theorem Dev.encUpdS_merge (d : Dev) (f : EncState → EncState) : (d.encUpdS f).merge = d.merge := rfl
@[simp] theorem Dev.encUpdS_dmaBuf (d : Dev) (f : EncState → EncState) : (d.encUpdS f).dmaBuf = d.dmaBuf := rfl
@[simp] theorem Dev.encUpdS_lost (d : Dev) (f : EncState → EncState) : (d.encUpdS f).lost = d.lost := rfl
@[simp] theorem Dev.encUpdS_occ (d : Dev) (f : EncState → EncState) : (d.encUpdS f).occ = d.occ := rfl
@[simp] theorem Dev.encUpdS_out (d : Dev) (f : EncState → EncState) : (d.encUpdS f).out = d.out := rfl
@[simp] theorem Dev.encUpdS_freeCtr (d : Dev) (f : EncState → EncState) : (d.encUpdS f).freeCtr = d.freeCtr := rfl
@[simp] theorem Dev.get_encUpdS (d : Dev) (f : EncState → EncState) (pg : Nat) (g : Fld) : (d.encUpdS f).get pg g = d.get pg g := rfl
@[simp] theorem Dev.pget_encUpdS (d : Dev) (f : EncState → EncState) (pg : Nat) (g : Fld) : (d.encUpdS f).pget pg g = d.pget pg g := rfl

/-! ### After ksUpd -/

@[simp] theorem Dev.ksUpd_regs (d : Dev) (f : Keystone → Keystone) : (d.ksUpd f).regs = d.regs := rfl
@[simp] theorem Dev.ksUpd_pend (d : Dev) (f : Keystone → Keystone) : (d.ksUpd f).pend = d.pend := rfl
@[simp] theorem Dev.ksUpd_evt (d : Dev) (f : Keystone → Keystone) : (d.ksUpd f).evt = d.evt := rfl
@[simp] theorem Dev.ksUpd_hiCap (d : Dev) (f : Keystone → Keystone) : (d.ksUpd f).hiCap = d.hiCap := rfl
@[simp] theorem Dev.ksUpd_commits (d : Dev) (f : Keystone → Keystone) : (d.ksUpd f).commits = d.commits := rfl
@[simp] theorem Dev.ksUpd_conv (d : Dev) (f : Keystone → Keystone) : (d.ksUpd f).conv = d.conv := rfl
@[simp] theorem Dev.ksUpd_eq (d : Dev) (f : Keystone → Keystone) : (d.ksUpd f).eq = d.eq := rfl
@[simp] theorem Dev.ksUpd_mem (d : Dev) (f : Keystone → Keystone) : (d.ksUpd f).mem = d.mem := rfl
@[simp] theorem Dev.ksUpd_map (d : Dev) (f : Keystone → Keystone) : (d.ksUpd f).map = d.map := rfl
@[simp] theorem Dev.ksUpd_fec (d : Dev) (f : Keystone → Keystone) : (d.ksUpd f).fec = d.fec := rfl
@[simp] theorem Dev.ksUpd_scc (d : Dev) (f : Keystone → Keystone) : (d.ksUpd f).scc = d.scc := rfl
@[simp] theorem Dev.ksUpd_enc (d : Dev) (f : Keystone → Keystone) : (d.ksUpd f).enc = d.enc := rfl
@[simp] theorem Dev.ksUpd_ticks (d : Dev) (f : Keystone → Keystone) : (d.ksUpd f).ticks = d.ticks := rfl
@[simp] theorem Dev.ksUpd_ks (d : Dev) (f : Keystone → Keystone) : (d.ksUpd f).ks = f d.ks := rfl
@[simp] theorem Dev.ksUpd_clkHist (d : Dev) (f : Keystone → Keystone) : (d.ksUpd f).clkHist = d.clkHist := rfl
@[simp] theorem Dev.ksUpd_tb (d : Dev) (f : Keystone → Keystone) : (d.ksUpd f).tb = d.tb := rfl
@[simp] theorem Dev.ksUpd_link (d : Dev) (f : Keystone → Keystone) : (d.ksUpd f).link = d.link := rfl
@[simp] theorem Dev.ksUpd_tlq (d : Dev) (f : Keystone → Keystone) : (d.ksUpd f).tlq = d.tlq := rfl
@[simp] theorem Dev.ksUpd_tlqEnq (d : Dev) (f : Keystone → Keystone) : (d.ksUpd f).tlqEnq = d.tlqEnq := rfl
@[simp] theorem Dev.ksUpd_hg (d : Dev) (f : Keystone → Keystone) : (d.ksUpd f).hg = d.hg := rfl
@[simp] theorem Dev.ksUpd_tcv (d : Dev) (f : Keystone → Keystone) : (d.ksUpd f).tcv = d.tcv := rfl
@[simp] theorem Dev.ksUpd_hgCal (d : Dev) (f : Keystone → Keystone) : (d.ksUpd f).hgCal = d.hgCal := rfl
@[simp] theorem Dev.ksUpd_td (d : Dev) (f : Keystone → Keystone) : (d.ksUpd f).td = d.td := rfl
@[simp] theorem Dev.ksUpd_tdSnap (d : Dev) (f : Keystone → Keystone) : (d.ksUpd f).tdSnap = d.tdSnap := rfl
@[simp] theorem Dev.ksUpd_mgmt (d : Dev) (f : Keystone → Keystone) : (d.ksUpd f).mgmt = d.mgmt := rfl
@[simp] theorem Dev.ksUpd_syn (d : Dev) (f : Keystone → Keystone) : (d.ksUpd f).syn = d.syn := rfl
@[simp] theorem Dev.ksUpd_merge (d : Dev) (f : Keystone → Keystone) : (d.ksUpd f).merge = d.merge := rfl
@[simp] theorem Dev.ksUpd_dmaBuf (d : Dev) (f : Keystone → Keystone) : (d.ksUpd f).dmaBuf = d.dmaBuf := rfl
@[simp] theorem Dev.ksUpd_lost (d : Dev) (f : Keystone → Keystone) : (d.ksUpd f).lost = d.lost := rfl
@[simp] theorem Dev.ksUpd_occ (d : Dev) (f : Keystone → Keystone) : (d.ksUpd f).occ = d.occ := rfl
@[simp] theorem Dev.ksUpd_out (d : Dev) (f : Keystone → Keystone) : (d.ksUpd f).out = d.out := rfl
@[simp] theorem Dev.ksUpd_freeCtr (d : Dev) (f : Keystone → Keystone) : (d.ksUpd f).freeCtr = d.freeCtr := rfl
@[simp] theorem Dev.get_ksUpd (d : Dev) (f : Keystone → Keystone) (pg : Nat) (g : Fld) : (d.ksUpd f).get pg g = d.get pg g := rfl
@[simp] theorem Dev.pget_ksUpd (d : Dev) (f : Keystone → Keystone) (pg : Nat) (g : Fld) : (d.ksUpd f).pget pg g = d.pget pg g := rfl

/-! ### After mgmtUpd -/

@[simp] theorem Dev.mgmtUpd_regs (d : Dev) (f : MgmtState → MgmtState) : (d.mgmtUpd f).regs = d.regs := rfl
@[simp] theorem Dev.mgmtUpd_pend (d : Dev) (f : MgmtState → MgmtState) : (d.mgmtUpd f).pend = d.pend := rfl
@[simp] theorem Dev.mgmtUpd_evt (d : Dev) (f : MgmtState → MgmtState) : (d.mgmtUpd f).evt = d.evt := rfl
@[simp] theorem Dev.mgmtUpd_hiCap (d : Dev) (f : MgmtState → MgmtState) : (d.mgmtUpd f).hiCap = d.hiCap := rfl
@[simp] theorem Dev.mgmtUpd_commits (d : Dev) (f : MgmtState → MgmtState) : (d.mgmtUpd f).commits = d.commits := rfl
@[simp] theorem Dev.mgmtUpd_conv (d : Dev) (f : MgmtState → MgmtState) : (d.mgmtUpd f).conv = d.conv := rfl
@[simp] theorem Dev.mgmtUpd_eq (d : Dev) (f : MgmtState → MgmtState) : (d.mgmtUpd f).eq = d.eq := rfl
@[simp] theorem Dev.mgmtUpd_mem (d : Dev) (f : MgmtState → MgmtState) : (d.mgmtUpd f).mem = d.mem := rfl
@[simp] theorem Dev.mgmtUpd_map (d : Dev) (f : MgmtState → MgmtState) : (d.mgmtUpd f).map = d.map := rfl
@[simp] theorem Dev.mgmtUpd_fec (d : Dev) (f : MgmtState → MgmtState) : (d.mgmtUpd f).fec = d.fec := rfl
@[simp] theorem Dev.mgmtUpd_scc (d : Dev) (f : MgmtState → MgmtState) : (d.mgmtUpd f).scc = d.scc := rfl
@[simp] theorem Dev.mgmtUpd_enc (d : Dev) (f : MgmtState → MgmtState) : (d.mgmtUpd f).enc = d.enc := rfl
@[simp] theorem Dev.mgmtUpd_ticks (d : Dev) (f : MgmtState → MgmtState) : (d.mgmtUpd f).ticks = d.ticks := rfl
@[simp] theorem Dev.mgmtUpd_ks (d : Dev) (f : MgmtState → MgmtState) : (d.mgmtUpd f).ks = d.ks := rfl
@[simp] theorem Dev.mgmtUpd_clkHist (d : Dev) (f : MgmtState → MgmtState) : (d.mgmtUpd f).clkHist = d.clkHist := rfl
@[simp] theorem Dev.mgmtUpd_tb (d : Dev) (f : MgmtState → MgmtState) : (d.mgmtUpd f).tb = d.tb := rfl
@[simp] theorem Dev.mgmtUpd_link (d : Dev) (f : MgmtState → MgmtState) : (d.mgmtUpd f).link = d.link := rfl
@[simp] theorem Dev.mgmtUpd_tlq (d : Dev) (f : MgmtState → MgmtState) : (d.mgmtUpd f).tlq = d.tlq := rfl
@[simp] theorem Dev.mgmtUpd_tlqEnq (d : Dev) (f : MgmtState → MgmtState) : (d.mgmtUpd f).tlqEnq = d.tlqEnq := rfl
@[simp] theorem Dev.mgmtUpd_hg (d : Dev) (f : MgmtState → MgmtState) : (d.mgmtUpd f).hg = d.hg := rfl
@[simp] theorem Dev.mgmtUpd_tcv (d : Dev) (f : MgmtState → MgmtState) : (d.mgmtUpd f).tcv = d.tcv := rfl
@[simp] theorem Dev.mgmtUpd_hgCal (d : Dev) (f : MgmtState → MgmtState) : (d.mgmtUpd f).hgCal = d.hgCal := rfl
@[simp] theorem Dev.mgmtUpd_td (d : Dev) (f : MgmtState → MgmtState) : (d.mgmtUpd f).td = d.td := rfl
@[simp] theorem Dev.mgmtUpd_tdSnap (d : Dev) (f : MgmtState → MgmtState) : (d.mgmtUpd f).tdSnap = d.tdSnap := rfl
@[simp] theorem Dev.mgmtUpd_mgmt (d : Dev) (f : MgmtState → MgmtState) : (d.mgmtUpd f).mgmt = f d.mgmt := rfl
@[simp] theorem Dev.mgmtUpd_syn (d : Dev) (f : MgmtState → MgmtState) : (d.mgmtUpd f).syn = d.syn := rfl
@[simp] theorem Dev.mgmtUpd_merge (d : Dev) (f : MgmtState → MgmtState) : (d.mgmtUpd f).merge = d.merge := rfl
@[simp] theorem Dev.mgmtUpd_dmaBuf (d : Dev) (f : MgmtState → MgmtState) : (d.mgmtUpd f).dmaBuf = d.dmaBuf := rfl
@[simp] theorem Dev.mgmtUpd_lost (d : Dev) (f : MgmtState → MgmtState) : (d.mgmtUpd f).lost = d.lost := rfl
@[simp] theorem Dev.mgmtUpd_occ (d : Dev) (f : MgmtState → MgmtState) : (d.mgmtUpd f).occ = d.occ := rfl
@[simp] theorem Dev.mgmtUpd_out (d : Dev) (f : MgmtState → MgmtState) : (d.mgmtUpd f).out = d.out := rfl
@[simp] theorem Dev.mgmtUpd_freeCtr (d : Dev) (f : MgmtState → MgmtState) : (d.mgmtUpd f).freeCtr = d.freeCtr := rfl
@[simp] theorem Dev.get_mgmtUpd (d : Dev) (f : MgmtState → MgmtState) (pg : Nat) (g : Fld) : (d.mgmtUpd f).get pg g = d.get pg g := rfl
@[simp] theorem Dev.pget_mgmtUpd (d : Dev) (f : MgmtState → MgmtState) (pg : Nat) (g : Fld) : (d.mgmtUpd f).pget pg g = d.pget pg g := rfl

/-! ### After tcvUpd -/

@[simp] theorem Dev.tcvUpd_regs (d : Dev) (f : TcvState → TcvState) : (d.tcvUpd f).regs = d.regs := rfl
@[simp] theorem Dev.tcvUpd_pend (d : Dev) (f : TcvState → TcvState) : (d.tcvUpd f).pend = d.pend := rfl
@[simp] theorem Dev.tcvUpd_evt (d : Dev) (f : TcvState → TcvState) : (d.tcvUpd f).evt = d.evt := rfl
@[simp] theorem Dev.tcvUpd_hiCap (d : Dev) (f : TcvState → TcvState) : (d.tcvUpd f).hiCap = d.hiCap := rfl
@[simp] theorem Dev.tcvUpd_commits (d : Dev) (f : TcvState → TcvState) : (d.tcvUpd f).commits = d.commits := rfl
@[simp] theorem Dev.tcvUpd_conv (d : Dev) (f : TcvState → TcvState) : (d.tcvUpd f).conv = d.conv := rfl
@[simp] theorem Dev.tcvUpd_eq (d : Dev) (f : TcvState → TcvState) : (d.tcvUpd f).eq = d.eq := rfl
@[simp] theorem Dev.tcvUpd_mem (d : Dev) (f : TcvState → TcvState) : (d.tcvUpd f).mem = d.mem := rfl
@[simp] theorem Dev.tcvUpd_map (d : Dev) (f : TcvState → TcvState) : (d.tcvUpd f).map = d.map := rfl
@[simp] theorem Dev.tcvUpd_fec (d : Dev) (f : TcvState → TcvState) : (d.tcvUpd f).fec = d.fec := rfl
@[simp] theorem Dev.tcvUpd_scc (d : Dev) (f : TcvState → TcvState) : (d.tcvUpd f).scc = d.scc := rfl
@[simp] theorem Dev.tcvUpd_enc (d : Dev) (f : TcvState → TcvState) : (d.tcvUpd f).enc = d.enc := rfl
@[simp] theorem Dev.tcvUpd_ticks (d : Dev) (f : TcvState → TcvState) : (d.tcvUpd f).ticks = d.ticks := rfl
@[simp] theorem Dev.tcvUpd_ks (d : Dev) (f : TcvState → TcvState) : (d.tcvUpd f).ks = d.ks := rfl
@[simp] theorem Dev.tcvUpd_clkHist (d : Dev) (f : TcvState → TcvState) : (d.tcvUpd f).clkHist = d.clkHist := rfl
@[simp] theorem Dev.tcvUpd_tb (d : Dev) (f : TcvState → TcvState) : (d.tcvUpd f).tb = d.tb := rfl
@[simp] theorem Dev.tcvUpd_link (d : Dev) (f : TcvState → TcvState) : (d.tcvUpd f).link = d.link := rfl
@[simp] theorem Dev.tcvUpd_tlq (d : Dev) (f : TcvState → TcvState) : (d.tcvUpd f).tlq = d.tlq := rfl
@[simp] theorem Dev.tcvUpd_tlqEnq (d : Dev) (f : TcvState → TcvState) : (d.tcvUpd f).tlqEnq = d.tlqEnq := rfl
@[simp] theorem Dev.tcvUpd_hg (d : Dev) (f : TcvState → TcvState) : (d.tcvUpd f).hg = d.hg := rfl
@[simp] theorem Dev.tcvUpd_tcv (d : Dev) (f : TcvState → TcvState) : (d.tcvUpd f).tcv = f d.tcv := rfl
@[simp] theorem Dev.tcvUpd_hgCal (d : Dev) (f : TcvState → TcvState) : (d.tcvUpd f).hgCal = d.hgCal := rfl
@[simp] theorem Dev.tcvUpd_td (d : Dev) (f : TcvState → TcvState) : (d.tcvUpd f).td = d.td := rfl
@[simp] theorem Dev.tcvUpd_tdSnap (d : Dev) (f : TcvState → TcvState) : (d.tcvUpd f).tdSnap = d.tdSnap := rfl
@[simp] theorem Dev.tcvUpd_mgmt (d : Dev) (f : TcvState → TcvState) : (d.tcvUpd f).mgmt = d.mgmt := rfl
@[simp] theorem Dev.tcvUpd_syn (d : Dev) (f : TcvState → TcvState) : (d.tcvUpd f).syn = d.syn := rfl
@[simp] theorem Dev.tcvUpd_merge (d : Dev) (f : TcvState → TcvState) : (d.tcvUpd f).merge = d.merge := rfl
@[simp] theorem Dev.tcvUpd_dmaBuf (d : Dev) (f : TcvState → TcvState) : (d.tcvUpd f).dmaBuf = d.dmaBuf := rfl
@[simp] theorem Dev.tcvUpd_lost (d : Dev) (f : TcvState → TcvState) : (d.tcvUpd f).lost = d.lost := rfl
@[simp] theorem Dev.tcvUpd_occ (d : Dev) (f : TcvState → TcvState) : (d.tcvUpd f).occ = d.occ := rfl
@[simp] theorem Dev.tcvUpd_out (d : Dev) (f : TcvState → TcvState) : (d.tcvUpd f).out = d.out := rfl
@[simp] theorem Dev.tcvUpd_freeCtr (d : Dev) (f : TcvState → TcvState) : (d.tcvUpd f).freeCtr = d.freeCtr := rfl
@[simp] theorem Dev.get_tcvUpd (d : Dev) (f : TcvState → TcvState) (pg : Nat) (g : Fld) : (d.tcvUpd f).get pg g = d.get pg g := rfl
@[simp] theorem Dev.pget_tcvUpd (d : Dev) (f : TcvState → TcvState) (pg : Nat) (g : Fld) : (d.tcvUpd f).pget pg g = d.pget pg g := rfl

/-! ### After hgUpd -/

@[simp] theorem Dev.hgUpd_regs (d : Dev) (n : Nat) (f : HgState → HgState) : (d.hgUpd n f).regs = d.regs := rfl
@[simp] theorem Dev.hgUpd_pend (d : Dev) (n : Nat) (f : HgState → HgState) : (d.hgUpd n f).pend = d.pend := rfl
@[simp] theorem Dev.hgUpd_evt (d : Dev) (n : Nat) (f : HgState → HgState) : (d.hgUpd n f).evt = d.evt := rfl
@[simp] theorem Dev.hgUpd_hiCap (d : Dev) (n : Nat) (f : HgState → HgState) : (d.hgUpd n f).hiCap = d.hiCap := rfl
@[simp] theorem Dev.hgUpd_commits (d : Dev) (n : Nat) (f : HgState → HgState) : (d.hgUpd n f).commits = d.commits := rfl
@[simp] theorem Dev.hgUpd_conv (d : Dev) (n : Nat) (f : HgState → HgState) : (d.hgUpd n f).conv = d.conv := rfl
@[simp] theorem Dev.hgUpd_eq (d : Dev) (n : Nat) (f : HgState → HgState) : (d.hgUpd n f).eq = d.eq := rfl
@[simp] theorem Dev.hgUpd_mem (d : Dev) (n : Nat) (f : HgState → HgState) : (d.hgUpd n f).mem = d.mem := rfl
@[simp] theorem Dev.hgUpd_map (d : Dev) (n : Nat) (f : HgState → HgState) : (d.hgUpd n f).map = d.map := rfl
@[simp] theorem Dev.hgUpd_fec (d : Dev) (n : Nat) (f : HgState → HgState) : (d.hgUpd n f).fec = d.fec := rfl
@[simp] theorem Dev.hgUpd_scc (d : Dev) (n : Nat) (f : HgState → HgState) : (d.hgUpd n f).scc = d.scc := rfl
@[simp] theorem Dev.hgUpd_enc (d : Dev) (n : Nat) (f : HgState → HgState) : (d.hgUpd n f).enc = d.enc := rfl
@[simp] theorem Dev.hgUpd_ticks (d : Dev) (n : Nat) (f : HgState → HgState) : (d.hgUpd n f).ticks = d.ticks := rfl
@[simp] theorem Dev.hgUpd_ks (d : Dev) (n : Nat) (f : HgState → HgState) : (d.hgUpd n f).ks = d.ks := rfl
@[simp] theorem Dev.hgUpd_clkHist (d : Dev) (n : Nat) (f : HgState → HgState) : (d.hgUpd n f).clkHist = d.clkHist := rfl
@[simp] theorem Dev.hgUpd_tb (d : Dev) (n : Nat) (f : HgState → HgState) : (d.hgUpd n f).tb = d.tb := rfl
@[simp] theorem Dev.hgUpd_link (d : Dev) (n : Nat) (f : HgState → HgState) : (d.hgUpd n f).link = d.link := rfl
@[simp] theorem Dev.hgUpd_tlq (d : Dev) (n : Nat) (f : HgState → HgState) : (d.hgUpd n f).tlq = d.tlq := rfl
@[simp] theorem Dev.hgUpd_tlqEnq (d : Dev) (n : Nat) (f : HgState → HgState) : (d.hgUpd n f).tlqEnq = d.tlqEnq := rfl
@[simp] theorem Dev.hgUpd_hg (d : Dev) (n : Nat) (f : HgState → HgState) : (d.hgUpd n f).hg = AMap.insert d.hg n (f (d.hgs n)) := rfl
@[simp] theorem Dev.hgUpd_tcv (d : Dev) (n : Nat) (f : HgState → HgState) : (d.hgUpd n f).tcv = d.tcv := rfl
@[simp] theorem Dev.hgUpd_hgCal (d : Dev) (n : Nat) (f : HgState → HgState) : (d.hgUpd n f).hgCal = d.hgCal := rfl
@[simp] theorem Dev.hgUpd_td (d : Dev) (n : Nat) (f : HgState → HgState) : (d.hgUpd n f).td = d.td := rfl
@[simp] theorem Dev.hgUpd_tdSnap (d : Dev) (n : Nat) (f : HgState → HgState) : (d.hgUpd n f).tdSnap = d.tdSnap := rfl
@[simp] theorem Dev.hgUpd_mgmt (d : Dev) (n : Nat) (f : HgState → HgState) : (d.hgUpd n f).mgmt = d.mgmt := rfl
@[simp] theorem Dev.hgUpd_syn (d : Dev) (n : Nat) (f : HgState → HgState) : (d.hgUpd n f).syn = d.syn := rfl
@[simp] theorem Dev.hgUpd_merge (d : Dev) (n : Nat) (f : HgState → HgState) : (d.hgUpd n f).merge = d.merge := rfl
@[simp] theorem Dev.hgUpd_dmaBuf (d : Dev) (n : Nat) (f : HgState → HgState) : (d.hgUpd n f).dmaBuf = d.dmaBuf := rfl
@[simp] theorem Dev.hgUpd_lost (d : Dev) (n : Nat) (f : HgState → HgState) : (d.hgUpd n f).lost = d.lost := rfl
@[simp] theorem Dev.hgUpd_occ (d : Dev) (n : Nat) (f : HgState → HgState) : (d.hgUpd n f).occ = d.occ := rfl
@[simp] theorem Dev.hgUpd_out (d : Dev) (n : Nat) (f : HgState → HgState) : (d.hgUpd n f).out = d.out := rfl
@[simp] theorem Dev.hgUpd_freeCtr (d : Dev) (n : Nat) (f : HgState → HgState) : (d.hgUpd n f).freeCtr = d.freeCtr := rfl
@[simp] theorem Dev.get_hgUpd (d : Dev) (n : Nat) (f : HgState → HgState) (pg : Nat) (g : Fld) : (d.hgUpd n f).get pg g = d.get pg g := rfl
@[simp] theorem Dev.pget_hgUpd (d : Dev) (n : Nat) (f : HgState → HgState) (pg : Nat) (g : Fld) : (d.hgUpd n f).pget pg g = d.pget pg g := rfl

/-! ### After hgCalSet -/

@[simp] theorem Dev.hgCalSet_regs (d : Dev) (n : Nat) (x : HgCal) : (d.hgCalSet n x).regs = d.regs := rfl
@[simp] theorem Dev.hgCalSet_pend (d : Dev) (n : Nat) (x : HgCal) : (d.hgCalSet n x).pend = d.pend := rfl
@[simp] theorem Dev.hgCalSet_evt (d : Dev) (n : Nat) (x : HgCal) : (d.hgCalSet n x).evt = d.evt := rfl
@[simp] theorem Dev.hgCalSet_hiCap (d : Dev) (n : Nat) (x : HgCal) : (d.hgCalSet n x).hiCap = d.hiCap := rfl
@[simp] theorem Dev.hgCalSet_commits (d : Dev) (n : Nat) (x : HgCal) : (d.hgCalSet n x).commits = d.commits := rfl
@[simp] theorem Dev.hgCalSet_conv (d : Dev) (n : Nat) (x : HgCal) : (d.hgCalSet n x).conv = d.conv := rfl
@[simp] theorem Dev.hgCalSet_eq (d : Dev) (n : Nat) (x : HgCal) : (d.hgCalSet n x).eq = d.eq := rfl
@[simp] theorem Dev.hgCalSet_mem (d : Dev) (n : Nat) (x : HgCal) : (d.hgCalSet n x).mem = d.mem := rfl
@[simp] theorem Dev.hgCalSet_map (d : Dev) (n : Nat) (x : HgCal) : (d.hgCalSet n x).map = d.map := rfl
@[simp] theorem Dev.hgCalSet_fec (d : Dev) (n : Nat) (x : HgCal) : (d.hgCalSet n x).fec = d.fec := rfl
@[simp] theorem Dev.hgCalSet_scc (d : Dev) (n : Nat) (x : HgCal) : (d.hgCalSet n x).scc = d.scc := rfl
@[simp] theorem Dev.hgCalSet_enc (d : Dev) (n : Nat) (x : HgCal) : (d.hgCalSet n x).enc = d.enc := rfl
@[simp] theorem Dev.hgCalSet_ticks (d : Dev) (n : Nat) (x : HgCal) : (d.hgCalSet n x).ticks = d.ticks := rfl
@[simp] theorem Dev.hgCalSet_ks (d : Dev) (n : Nat) (x : HgCal) : (d.hgCalSet n x).ks = d.ks := rfl
@[simp] theorem Dev.hgCalSet_clkHist (d : Dev) (n : Nat) (x : HgCal) : (d.hgCalSet n x).clkHist = d.clkHist := rfl
@[simp] theorem Dev.hgCalSet_tb (d : Dev) (n : Nat) (x : HgCal) : (d.hgCalSet n x).tb = d.tb := rfl
@[simp] theorem Dev.hgCalSet_link (d : Dev) (n : Nat) (x : HgCal) : (d.hgCalSet n x).link = d.link := rfl
@[simp] theorem Dev.hgCalSet_tlq (d : Dev) (n : Nat) (x : HgCal) : (d.hgCalSet n x).tlq = d.tlq := rfl
@[simp] theorem Dev.hgCalSet_tlqEnq (d : Dev) (n : Nat) (x : HgCal) : (d.hgCalSet n x).tlqEnq = d.tlqEnq := rfl
@[simp] theorem Dev.hgCalSet_hg (d : Dev) (n : Nat) (x : HgCal) : (d.hgCalSet n x).hg = d.hg := rfl
@[simp] theorem Dev.hgCalSet_tcv (d : Dev) (n : Nat) (x : HgCal) : (d.hgCalSet n x).tcv = d.tcv := rfl
@[simp] theorem Dev.hgCalSet_hgCal (d : Dev) (n : Nat) (x : HgCal) : (d.hgCalSet n x).hgCal = AMap.insert d.hgCal n x := rfl
@[simp] theorem Dev.hgCalSet_td (d : Dev) (n : Nat) (x : HgCal) : (d.hgCalSet n x).td = d.td := rfl
@[simp] theorem Dev.hgCalSet_tdSnap (d : Dev) (n : Nat) (x : HgCal) : (d.hgCalSet n x).tdSnap = d.tdSnap := rfl
@[simp] theorem Dev.hgCalSet_mgmt (d : Dev) (n : Nat) (x : HgCal) : (d.hgCalSet n x).mgmt = d.mgmt := rfl
@[simp] theorem Dev.hgCalSet_syn (d : Dev) (n : Nat) (x : HgCal) : (d.hgCalSet n x).syn = d.syn := rfl
@[simp] theorem Dev.hgCalSet_merge (d : Dev) (n : Nat) (x : HgCal) : (d.hgCalSet n x).merge = d.merge := rfl
@[simp] theorem Dev.hgCalSet_dmaBuf (d : Dev) (n : Nat) (x : HgCal) : (d.hgCalSet n x).dmaBuf = d.dmaBuf := rfl
@[simp] theorem Dev.hgCalSet_lost (d : Dev) (n : Nat) (x : HgCal) : (d.hgCalSet n x).lost = d.lost := rfl
@[simp] theorem Dev.hgCalSet_occ (d : Dev) (n : Nat) (x : HgCal) : (d.hgCalSet n x).occ = d.occ := rfl
@[simp] theorem Dev.hgCalSet_out (d : Dev) (n : Nat) (x : HgCal) : (d.hgCalSet n x).out = d.out := rfl
@[simp] theorem Dev.hgCalSet_freeCtr (d : Dev) (n : Nat) (x : HgCal) : (d.hgCalSet n x).freeCtr = d.freeCtr := rfl
@[simp] theorem Dev.get_hgCalSet (d : Dev) (n : Nat) (x : HgCal) (pg : Nat) (g : Fld) : (d.hgCalSet n x).get pg g = d.get pg g := rfl
@[simp] theorem Dev.pget_hgCalSet (d : Dev) (n : Nat) (x : HgCal) (pg : Nat) (g : Fld) : (d.hgCalSet n x).pget pg g = d.pget pg g := rfl

end Sys2Proof.Machine
end

