-- ==== Sys2Proof/Laws/Settle.lean ====
section
/-! SUPPORT.  What the end of a command does: the performance counters and the event machinery touch nothing else of the
device (`Quiet`), every occurrence sets its sticky bit, and nothing occurs any more. -/

namespace Sys2Proof.Machine

theorem Quiet.refl (a : Dev) : Quiet a a := ⟨fun _ _ => rfl, rfl, rfl, ⟨rfl, rfl, rfl, rfl⟩, fun _ h => h⟩

theorem Quiet.trans {a b c : Dev} (h : Quiet a b) (h' : Quiet b c) : Quiet a c where
  regs k hk := (h'.regs k hk).trans (h.regs k hk)
  rest := by rw [h'.rest, h.rest]
  mgmt := by rw [h'.mgmt, h.mgmt]
  masks := ⟨h'.masks.1.trans h.masks.1, h'.masks.2.1.trans h.masks.2.1, h'.masks.2.2.1.trans h.masks.2.2.1,
    h'.masks.2.2.2.trans h.masks.2.2.2⟩
  sticky k hk := h'.sticky k (h.sticky k hk)

/-- A field that no end of a command writes reads as before. -/
theorem Quiet.get {a b : Dev} (h : Quiet a b) {pg : Nat} {f : Fld} (hk : settleKey (fkey pg f.off f.lo) = false) :
    b.get pg f = a.get pg f := by simp [Dev.get, h.regs _ hk]

theorem Quiet.pget {a b : Dev} (h : Quiet a b) (pg : Nat) (f : Fld) : b.pget pg f = a.pget pg f := by
  rw [h.rest]; rfl

theorem Quiet.raised {a b : Dev} (h : Quiet a b) {pg src : Nat} (hr : a.raised pg src) : b.raised pg src := h.sticky _ hr

/-! ### Its parts -/

theorem Quiet.put {d : Dev} {pg : Nat} {f : Fld} (v : Nat) (h : settleKey (fkey pg f.off f.lo) = true) : Quiet d (d.put pg f v) where
  regs k hk := by
    show FMap.get (FMap.set _ _ _) k = _
    apply FMap.get_set_other
    rintro rfl
    rw [h] at hk
    exact absurd hk (by simp)
  rest := rfl
  mgmt := rfl
  masks := ⟨rfl, rfl, rfl, rfl⟩
  sticky _ h := h

theorem Quiet.ev (d : Dev) (pg k : Nat) : Quiet d (d.ev pg k) := ⟨fun _ _ => rfl, rfl, rfl, ⟨rfl, rfl, rfl, rfl⟩, fun _ h => h⟩

theorem Quiet.emit (d : Dev) (o : Output) : Quiet d (d.emit o) := ⟨fun _ _ => rfl, rfl, rfl, ⟨rfl, rfl, rfl, rfl⟩, fun _ h => h⟩

theorem Quiet.when {d : Dev} {f : Dev → Dev} (c : Bool) (h : Quiet d (f d)) : Quiet d (d.when c f) := by
  cases c
  · exact Quiet.refl d
  · exact h

theorem Quiet.foldl {β : Type} {f : Dev → β → Dev} (l : List β) (h : ∀ d, ∀ x ∈ l, Quiet d (f d x)) (d : Dev) :
    Quiet d (l.foldl f d) := by
  induction l generalizing d with
  | nil => exact Quiet.refl d
  | cons x t ih =>
    exact (h d x (by simp)).trans (ih (fun d y hy => h d y (List.mem_cons_of_mem _ hy)) _)

theorem settleKey_cnt {i : Nat} (h : i < 32) :
    settleKey (fkey pgPERFW (PERFW.CNT.at i).off (PERFW.CNT.at i).lo) = true := by
  have : keyPage (fkey pgPERFW (PERFW.CNT.at i).off (PERFW.CNT.at i).lo) = pgPERFW ∧
      0xC00 ≤ keyOff (fkey pgPERFW (PERFW.CNT.at i).off (PERFW.CNT.at i).lo) ∧
      keyOff (fkey pgPERFW (PERFW.CNT.at i).off (PERFW.CNT.at i).lo) < 0xD00 := by
    simp only [keyPage, keyOff, fkey, Fld.at, PERFW.CNT, pgPERFW]
    omega
  simp [settleKey, this]

theorem Quiet.perfCarry (k : Nat) : ∀ (i n : Nat) (d : Dev), i < 32 → Quiet d (Dev.perfCarry k i n d) := by
  induction k with
  | zero => exact fun _ _ d _ => Quiet.refl d
  | succ k ih =>
    intro i n d hi
    simp only [Dev.perfCarry]
    have h1 : Quiet d (d.put pgPERFW (PERFW.CNT.at i) (d.get pgPERFW (PERFW.CNT.at i) + n)) := Quiet.put _ (settleKey_cnt hi)
    split
    · exact h1
    · have h2 := fun c => h1.trans (Quiet.when (f := (·.ev pgPERFW 3)) c (Quiet.ev _ pgPERFW 3))
      split
      · rename_i h
        simp only [Bool.and_eq_true, decide_eq_true_eq] at h
        exact (h2 _).trans (ih _ _ _ (by omega))
      · exact h2 _

theorem Quiet.perfAdd (d : Dev) {i : Nat} (n : Nat) (h : i < 32) : Quiet d (d.perfAdd i n) := by
  unfold Dev.perfAdd
  split
  · exact Quiet.refl d
  · exact Quiet.perfCarry _ _ _ _ h

theorem Quiet.perfDiff (old d : Dev) : Quiet d (old.perfDiff d) := by
  unfold Dev.perfDiff
  split
  · exact Quiet.refl d
  · refine Quiet.foldl _ (fun d i hi => ?_) d
    have hi : i < 32 := List.mem_range.1 hi
    split
    · exact Quiet.refl d
    · dsimp only
      split
      · split
        · exact Quiet.perfAdd _ _ hi
        · exact Quiet.refl d
      · exact Quiet.refl d

theorem Quiet.perfOccur (d : Dev) (all : FMap) : Quiet d (d.perfOccur all) := by
  unfold Dev.perfOccur
  split
  · exact Quiet.refl d
  · refine Quiet.foldl _ (fun d i hi => ?_) d
    have hi : i < 32 := List.mem_range.1 hi
    split
    · exact Quiet.refl d
    · dsimp only
      split
      · exact Quiet.perfAdd _ _ hi
      · exact Quiet.refl d

theorem Quiet.msix (d : Dev) (v : Nat) : Quiet d (d.msix v) := by
  unfold Dev.msix
  split
  · exact Quiet.emit _ _
  · exact ⟨fun _ _ => rfl, rfl, rfl, ⟨rfl, rfl, rfl, rfl⟩, fun _ h => h⟩

theorem Quiet.evqPost (d : Dev) (e s : Nat) : Quiet d (d.evqPost e s) := by
  unfold Dev.evqPost
  dsimp only
  split
  · exact Quiet.refl d
  · split
    · exact ⟨fun _ _ => rfl, rfl, rfl, ⟨rfl, rfl, rfl, rfl⟩, fun _ h => h⟩
    · exact ⟨fun _ _ => rfl, rfl, rfl, ⟨rfl, rfl, rfl, rfl⟩, fun _ h => h⟩

theorem Quiet.backlogShow (d : Dev) : Quiet d d.backlogShow := by
  unfold Dev.backlogShow
  exact ((Quiet.put _ (by decide)).trans (Quiet.put _ (by decide))).trans (Quiet.when _ (Quiet.ev _ _ _))

theorem Quiet.notify (d : Dev) (t r : Nat) : Quiet d (d.notify t r) := by
  unfold Dev.notify
  split
  · refine Quiet.trans (b := d.mgmtUpd fun m => { m with lost := m.lost + 1 })
      ⟨fun _ _ => rfl, rfl, rfl, ⟨rfl, rfl, rfl, rfl⟩, fun _ h => h⟩ ?_
    exact (Quiet.put _ (by decide)).trans (Quiet.ev _ _ _)
  · refine Quiet.trans (b := d.mgmtUpd fun m => { m with ntf := m.ntf ++ [⟨t, r, 0, []⟩] })
      ⟨fun _ _ => rfl, rfl, rfl, ⟨rfl, rfl, rfl, rfl⟩, fun _ h => h⟩ ?_
    exact Quiet.backlogShow _

theorem Quiet.deliver (d : Dev) (k : Nat) : Quiet d (d.deliver k) := by
  unfold Dev.deliver
  exact ((Quiet.when _ (Quiet.msix _ _)).trans (Quiet.when _ (Quiet.evqPost _ _ _))).trans (Quiet.when _ (Quiet.notify _ _ _))

/-! ### Occurrences -/

theorem Evt.occur_masks (old : Evt) (all : FMap) (e : Evt) (k : Nat) :
    (Evt.occur old all e k).unmasked = e.unmasked ∧ (Evt.occur old all e k).route = e.route ∧
      (Evt.occur old all e k).msixEn = e.msixEn ∧ (Evt.occur old all e k).fmask = e.fmask := ⟨rfl, rfl, rfl, rfl⟩

theorem Evt.occur_sticky (old : Evt) (all : FMap) (e : Evt) (k j : Nat) :
    FMap.get (Evt.occur old all e k).sticky j = if j = k then 1 else FMap.get e.sticky j := by
  show FMap.get (FMap.set e.sticky k 1) j = _
  rw [FMap.get_set]

/-- The occurrences of a cycle, folded in: masks stay, sticky bits stay, and each source that occurred is sticky. -/
theorem Evt.occurs (old : Evt) (all : FMap) (l : List (Nat × Nat)) : ∀ e : Evt,
    let e' := l.foldl (fun e x => Evt.occur old all e x.1) e
    (e'.unmasked = e.unmasked ∧ e'.route = e.route ∧ e'.msixEn = e.msixEn ∧ e'.fmask = e.fmask) ∧
    (∀ j, FMap.get e.sticky j ≠ 0 ∨ j ∈ l.map (·.1) → FMap.get e'.sticky j ≠ 0) := by
  induction l with
  | nil => exact fun e => ⟨⟨rfl, rfl, rfl, rfl⟩, fun j h => by simpa using h⟩
  | cons x t ih =>
    intro e
    obtain ⟨⟨h1, h2, h3, h4⟩, h⟩ := ih (Evt.occur old all e x.1)
    refine ⟨⟨h1, h2, h3, h4⟩, fun j hj => h j ?_⟩
    rw [Evt.occur_sticky]
    by_cases hx : j = x.1
    · simp [hx]
    · simp only [hx, if_false]
      simpa [hx] using hj

theorem Quiet.settle1 (d : Dev) : Quiet d d.settle1 := by
  unfold Dev.settle1
  dsimp only
  refine Quiet.trans ?_ (Quiet.perfOccur _ _)
  refine Quiet.trans ?_ (Quiet.perfDiff _ _)
  refine Quiet.trans (b := { d with
      occ := []
      evt := { (((occSet d.occ).filter (fun x => srcExists x.1)).foldl
          (fun e x => Evt.occur d.evt ((occSet d.occ).filter (fun x => srcExists x.1)) e x.1) d.evt) with
        asserted := Evt.assertedNow _ } }) ?_ (Quiet.foldl _ (fun d x _ => Quiet.deliver d x.1) _)
  obtain ⟨h1, h2⟩ := Evt.occurs d.evt ((occSet d.occ).filter (fun x => srcExists x.1))
    ((occSet d.occ).filter (fun x => srcExists x.1)) d.evt
  exact ⟨fun _ _ => rfl, rfl, rfl, h1, fun k hk => h2 k (.inl hk)⟩

theorem Quiet.settleN (n : Nat) : ∀ d : Dev, Quiet d (Dev.settleN n d) := by
  induction n with
  | zero => exact fun d => ⟨fun _ _ => rfl, rfl, rfl, ⟨rfl, rfl, rfl, rfl⟩, fun _ h => h⟩
  | succ n ih =>
    intro d
    simp only [Dev.settleN]
    split
    · exact Quiet.settle1 d
    · exact (Quiet.settle1 d).trans (ih _)

/-- The end of a cycle touches the event machinery and the counters only. -/
theorem Quiet.settle (d : Dev) : Quiet d d.settle := Quiet.settleN _ d

/-- Nothing occurs any more after the end of a cycle (R52). -/
theorem settleN_occ (n : Nat) : ∀ d : Dev, (Dev.settleN n d).occ = [] := by
  induction n with
  | zero => exact fun _ => rfl
  | succ n ih =>
    intro d
    simp only [Dev.settleN]
    split
    · rename_i h; exact List.isEmpty_iff.1 h
    · exact ih _

@[simp] theorem settle_occ (d : Dev) : d.settle.occ = [] := settleN_occ _ d

theorem occSet_mem (l : List Nat) (k : Nat) : k ∈ (occSet l).map (·.1) ↔ k ∈ l := by
  have key : ∀ (l : List Nat) (m : FMap), k ∈ (l.foldl (fun m k => FMap.set m k 1) m).map (·.1) ↔ k ∈ m.map (·.1) ∨ k ∈ l := by
    intro l
    induction l with
    | nil => simp
    | cons a t ih =>
      intro m
      rw [List.foldl_cons, ih]
      have : k ∈ (FMap.set m a 1).map (·.1) ↔ k = a ∨ k ∈ m.map (·.1) := by
        simp only [FMap.set, one_ne_zero, if_false]
        clear ih
        induction m with
        | nil => simp [AMap.insert]
        | cons x r ihm =>
          obtain ⟨q, v⟩ := x
          simp only [AMap.insert]
          split
          · simp
          · split
            · subst_vars; simp
            · simp only [List.map_cons, List.mem_cons, ihm]; tauto
      rw [this]
      simp only [List.mem_cons]
      tauto
  have := key l []
  simp only [List.map_nil, List.not_mem_nil, false_or] at this
  exact this

/-- An occurrence of a source that exists sets its sticky bit (R45). -/
theorem settle_raised {d : Dev} {pg src : Nat} (h : pg * 64 + src ∈ d.occ) (he : srcExists (pg * 64 + src) = true) :
    d.settle.raised pg src := by
  have h1 : d.settle1.raised pg src := by
    unfold Dev.settle1
    dsimp only
    apply (Quiet.perfOccur _ _).raised
    apply (Quiet.perfDiff _ _).raised
    apply (Quiet.foldl _ (fun d x _ => Quiet.deliver d x.1) _).raised
    refine (Evt.occurs d.evt _ _ d.evt).2 _ (.inr ?_)
    have := (occSet_mem d.occ (pg * 64 + src)).2 h
    simp only [List.mem_map, List.mem_filter] at this ⊢
    obtain ⟨x, hx, hx'⟩ := this
    exact ⟨x, ⟨hx, by rw [hx']; exact he⟩, hx'⟩
  show (Dev.settleN 64 d).raised pg src
  rw [Dev.settleN]
  split
  · exact h1
  · exact (Quiet.settleN _ _).raised h1

/-- The assertion of R46 as the end of a cycle leaves it: a source is asserted when it is sticky and not masked. -/
def Evt.settled (e : Evt) : Prop := e.asserted = e.assertedNow

end Sys2Proof.Machine
end

