-- ==== Sys2Proof/Laws/Run.lean ====
section
/-! SUPPORT.  What a command answers: every meaning is one run of a change of the device, so that a statement about a command
is a statement about that change; the queue stays, and the step takes the command in front. -/

namespace Sys2Proof.Machine

/-- What a command leaves behind is what its change made, but for the end of the cycle. -/
theorem command_quiet (d : Dev) (f : Dev → Dev) : Quiet (f d.fresh) (d.command f) :=
  (Quiet.perfDiff _ _).trans (Quiet.settle _)

/-- An occurrence of the change is raised. -/
theorem command_raised {d : Dev} {f : Dev → Dev} {pg src : Nat} (h : pg * 64 + src ∈ (f d.fresh).occ)
    (he : srcExists (pg * 64 + src) = true) : (d.command f).raised pg src := by
  apply settle_raised _ he
  have key : ∀ old x : Dev, ∀ k ∈ x.occ, k ∈ (old.perfDiff x).occ := by
    intro old x k hk
    unfold Dev.perfDiff
    split
    · exact hk
    · have carry : ∀ n i v (x : Dev), k ∈ x.occ → k ∈ (Dev.perfCarry n i v x).occ := by
        intro n
        induction n with
        | zero => exact fun _ _ _ h => h
        | succ n ih =>
          intro i v x hx
          simp only [Dev.perfCarry]
          have hw : ∀ c : Bool, k ∈ ((x.put pgPERFW (PERFW.CNT.at i) (x.get pgPERFW (PERFW.CNT.at i) + v)).when c
              (·.ev pgPERFW 3)).occ := by
            intro c; cases c
            · exact hx
            · exact List.mem_cons_of_mem _ hx
          split
          · exact hx
          · split
            · exact ih _ _ _ (hw _)
            · exact hw _
      have fold : ∀ (l : List Nat) (g : Dev → Nat → Dev), (∀ d i, k ∈ d.occ → k ∈ (g d i).occ) → ∀ d : Dev, k ∈ d.occ →
          k ∈ (l.foldl g d).occ := by
        intro l g hg
        induction l with
        | nil => exact fun _ h => h
        | cons a t ih => exact fun d h => ih _ (hg d a h)
      refine fold _ _ (fun d i hd => ?_) x hk
      split
      · exact hd
      · dsimp only
        split
        · split
          · unfold Dev.perfAdd
            split
            · exact hd
            · exact carry _ _ _ _ hd
          · exact hd
        · exact hd
  exact key _ _ _ h

/-- The rule for a statement about a command: it holds of what the command answers as soon as it holds of every device that
the end of a cycle can make of the command's change, with what occurred in it raised. -/
theorem yields {c : Instr} {s : State} {f : Dev → Dev} {Q : Dev → Prop} (h : exec c s = s.run f) (hs : s.clocked)
    (hq : ∀ d, Quiet (f s.dev.fresh) d →
      (∀ pg src, pg * 64 + src ∈ (f s.dev.fresh).occ → srcExists (pg * 64 + src) = true → d.raised pg src) → Q d) :
    Yields c s Q := by
  refine ⟨_, h, rfl, ?_⟩
  have hd : (if s.dev.lost = true then (s.dev.command f).adrift else s.dev.command f) = s.dev.command f :=
    if_neg (by rw [hs]; simp)
  show Q (if s.dev.lost = true then (s.dev.command f).adrift else s.dev.command f)
  rw [hd]
  exact hq _ (command_quiet _ _) fun _ _ => command_raised

/-- The same for a reset, which needs no clock before it. -/
theorem yields_reset {c : Instr} {s : State} {f : Dev → Dev} {Q : Dev → Prop} (h : exec c s = s.runReset f)
    (hq : ∀ d, Quiet (f s.dev.fresh) d →
      (∀ pg src, pg * 64 + src ∈ (f s.dev.fresh).occ → srcExists (pg * 64 + src) = true → d.raised pg src) → Q d) :
    Yields c s Q :=
  ⟨_, h, rfl, hq _ (command_quiet _ _) fun _ _ => command_raised⟩

/-- A command of several accesses that makes just one has the form of an ordinary one. -/
theorem yields_cycle {c : Instr} {s : State} {g : Dev → List (Dev → Dev)} {f : Dev → Dev} {Q : Dev → Prop}
    (h : exec c s = s.runCycles g) (hg : g s.dev.fresh = [f]) (hs : s.clocked)
    (hq : ∀ d, Quiet (f s.dev.fresh) d →
      (∀ pg src, pg * 64 + src ∈ (f s.dev.fresh).occ → srcExists (pg * 64 + src) = true → d.raised pg src) → Q d) :
    Yields c s Q := by
  refine yields (f := f) ?_ hs hq
  rw [h]
  have : s.dev.cycles g = s.dev.command f := by unfold Dev.cycles; rw [hg]; rfl
  unfold State.runCycles State.run
  rw [this]

/-- What each access of a command keeps, the command keeps. -/
theorem yields_cycles {c : Instr} {s : State} {g : Dev → List (Dev → Dev)} {P : Dev → Prop}
    (h : exec c s = s.runCycles g) (hs : s.clocked) (h0 : P s.dev.fresh)
    (hf : ∀ f ∈ g s.dev.fresh, ∀ d, P d → ∀ d', Quiet (f d) d' → P d') : Yields c s P := by
  refine ⟨_, h, rfl, ?_⟩
  have hd : (if s.dev.lost = true then (s.dev.cycles g).adrift else s.dev.cycles g) = s.dev.cycles g :=
    if_neg (by rw [hs]; simp)
  show P (if s.dev.lost = true then (s.dev.cycles g).adrift else s.dev.cycles g)
  rw [hd]
  have key : ∀ (l : List (Dev → Dev)) (d : Dev), (∀ f ∈ l, ∀ d, P d → ∀ d', Quiet (f d) d' → P d') → P d → P (l.foldl Dev.cycle d) := by
    intro l
    induction l with
    | nil => exact fun _ _ h => h
    | cons f t ih =>
      intro d hl hd
      exact ih _ (fun f hf => hl f (List.mem_cons_of_mem _ hf))
        (hl f List.mem_cons_self d hd _ ((Quiet.perfDiff _ _).trans (Quiet.settle _)))
  exact key _ _ hf h0

/-- A write of BAR0 makes at least one access. -/
theorem bar0Writes_ne_nil (core : Bool) (a : Nat) (wide : Bool) (x : HostEnv) (lo hi : Word) : bar0Writes core a wide x lo hi ≠ [] := by
  unfold bar0Writes
  split
  · simp
  · split <;> simp

/-- A REG_WRITE makes at least one change. -/
theorem ringWrites_ne_nil (x : HostEnv) (d : Dev) : ringWrites x d ≠ [] := by
  unfold ringWrites
  split
  · simp
  · split <;> simp

/-- A DMA completion makes at least one change. -/
theorem dmaCompletion_ne_nil (c : Nat) (host : Option (List Nat)) (xs : List Upset) (e : HostEnv) (keep : Nat) (d : Dev) :
    dmaCompletion c host xs e keep d ≠ [] := by
  unfold dmaCompletion
  dsimp only
  repeat' split
  all_goals simp

/-- A command is a run of a change of the device: an ordinary one, one of several accesses (at least one), a reset, or the loss
of OSC_IN. -/
def RunForm (c : Instr) : Prop :=
  (∃ f : Dev → Dev, ∀ s, exec c s = s.run f) ∨ (∃ g : Dev → List (Dev → Dev), (∀ d, g d ≠ []) ∧ ∀ s, exec c s = s.runCycles g) ∨
    (∃ f : Dev → Dev, ∀ s, exec c s = s.runReset f) ∨ (∀ s, exec c s = s.runLoss)

theorem RunForm.run {c : Instr} (f : Dev → Dev) (h : ∀ s, exec c s = s.run f) : RunForm c := .inl ⟨f, h⟩
theorem RunForm.cycles {c : Instr} (g : Dev → List (Dev → Dev)) (hg : ∀ d, g d ≠ []) (h : ∀ s, exec c s = s.runCycles g) :
    RunForm c := .inr (.inl ⟨g, hg, h⟩)
theorem RunForm.reset {c : Instr} (f : Dev → Dev) (h : ∀ s, exec c s = s.runReset f) : RunForm c := .inr (.inr (.inl ⟨f, h⟩))

/-- Every command of the table is one of the four. -/
theorem exec_forms (c : Instr) : RunForm c := by
  cases c
  case oscInLoss => exact .inr (.inr (.inr fun _ => rfl))
  case registerWrite => exact RunForm.cycles _ (fun _ => bar0Writes_ne_nil _ _ _ _ _ _) fun _ => rfl
  case regWrite => exact RunForm.cycles _ (ringWrites_ne_nil _) fun _ => rfl
  case dmaReadCompletion => exact RunForm.cycles _ (dmaCompletion_ne_nil _ _ _ _ _) fun _ => rfl
  case pwronN => exact RunForm.reset _ fun _ => rfl
  case rstN => exact RunForm.reset _ fun _ => rfl
  all_goals exact RunForm.run _ fun _ => rfl

end Sys2Proof.Machine
end

