-- ==== Sys2Proof/Laws/Frame.lean ====
section
/-! SUPPORT.  Laws of frames, and of the keys of register fields. -/

namespace Sys2Proof.Machine

theorem Frame.refl (ks : List Nat) (a : Dev) : Frame ks a a := ⟨fun _ _ _ => rfl, rfl, rfl, ⟨rfl, rfl, rfl, rfl⟩, fun _ h => h⟩

theorem Frame.trans {ks : List Nat} {a b c : Dev} (h : Frame ks a b) (h' : Frame ks b c) : Frame ks a c where
  regs k hk hs := (h'.regs k hk hs).trans (h.regs k hk hs)
  rest := by rw [h'.rest, h.rest]
  mgmt := by rw [h'.mgmt, h.mgmt]
  masks := ⟨h'.masks.1.trans h.masks.1, h'.masks.2.1.trans h.masks.2.1, h'.masks.2.2.1.trans h.masks.2.2.1,
    h'.masks.2.2.2.trans h.masks.2.2.2⟩
  sticky _ hk := h'.sticky _ (h.sticky _ hk)

theorem Frame.of_quiet {a b : Dev} (ks : List Nat) (h : Quiet a b) : Frame ks a b :=
  ⟨fun k _ hs => h.regs k hs, h.rest, h.mgmt, h.masks, h.sticky⟩

theorem Frame.put (ks : List Nat) (d : Dev) (pg : Nat) (f : Fld) (v : Nat) (h : f.key pg ∈ ks) : Frame ks d (d.put pg f v) where
  regs _ hk _ := FMap.get_set_other _ _ fun e => hk (e ▸ h)
  rest := rfl
  mgmt := rfl
  masks := ⟨rfl, rfl, rfl, rfl⟩
  sticky _ h := h

theorem Frame.ev (ks : List Nat) (d : Dev) (pg k : Nat) : Frame ks d (d.ev pg k) := .of_quiet _ (Quiet.ev _ _ _)

theorem Frame.emit (ks : List Nat) (d : Dev) (o : Output) : Frame ks d (d.emit o) := .of_quiet _ (Quiet.emit _ _)

theorem Frame.when {ks : List Nat} {d : Dev} {f : Dev → Dev} (c : Bool) (h : Frame ks d (f d)) : Frame ks d (d.when c f) := by
  cases c
  · exact .refl _ _
  · exact h

theorem Frame.fresh (ks : List Nat) (d : Dev) : Frame ks d d.fresh :=
  ⟨fun _ _ _ => rfl, rfl, rfl, ⟨rfl, rfl, rfl, rfl⟩, fun _ h => h⟩

/-- A framed register reads as before. -/
theorem Frame.get {ks : List Nat} {a b : Dev} (h : Frame ks a b) {pg : Nat} {f : Fld} (hk : f.key pg ∉ ks)
    (hs : settleKey (f.key pg) = false) : b.get pg f = a.get pg f := by
  have := h.regs _ hk hs
  simp only [Fld.key] at this
  simp [Dev.get, this]

theorem Frame.mem {ks : List Nat} {a b : Dev} (h : Frame ks a b) : b.mem = a.mem := by rw [h.rest]

/-- Two fields of one page have one key only at one place. -/
theorem fkey_same (pg a b c d : Nat) : fkey pg a b = fkey pg c d ↔ a * 64 + b = c * 64 + d := by
  unfold fkey; omega

/-- Fields of different pages have different keys. -/
theorem fkey_page {pg pg' a b c d : Nat} (h : pg ≠ pg') (ha : a < 2 ^ 20) (hb : b < 64) (hc : c < 2 ^ 20) (hd : d < 64) :
    fkey pg a b ≠ fkey pg' c d := by
  unfold fkey; omega

/-- Which fields the end of a command may write, by page and place. -/
theorem settleKey_fkey (pg : Nat) {off lo : Nat} (ho : off < 2 ^ 20) (hl : lo < 64) :
    settleKey (fkey pg off lo) = false ↔
      ¬(pg = pgPERFW ∧ 0xC00 ≤ off ∧ off < 0xD00) ∧
      ¬(pg = pgMBX ∧ ((off, lo) = (MBX.STATUS_NTF_FULL.off, MBX.STATUS_NTF_FULL.lo) ∨
        (off, lo) = (MBX.STAT_BACKLOG.off, MBX.STAT_BACKLOG.lo) ∨ (off, lo) = (MBX.NTF_LOST.off, MBX.NTF_LOST.lo))) := by
  have h1 : keyPage (fkey pg off lo) = pg := by unfold keyPage fkey; omega
  have h2 : keyOff (fkey pg off lo) = off := by unfold keyOff fkey; omega
  have h3 : ∀ f : Fld, f.off < 2 ^ 20 → f.lo < 64 →
      (fkey pg off lo = fkey pgMBX f.off f.lo ↔ pg = pgMBX ∧ (off, lo) = (f.off, f.lo)) := by
    intro f hf hf'
    simp only [fkey, Prod.mk.injEq]
    omega
  simp only [settleKey, h1, h2, Bool.or_eq_false_iff, Bool.and_eq_false_iff, beq_eq_false_iff_ne, decide_eq_false_iff_not, ne_eq]
  rw [h3 MBX.STATUS_NTF_FULL (by decide) (by decide), h3 MBX.STAT_BACKLOG (by decide) (by decide),
    h3 MBX.NTF_LOST (by decide) (by decide)]
  tauto

/-- A field of a page other than PERFW and MBX is left by the end of a command. -/
theorem settleKey_page {pg off lo : Nat} (h : pg ≠ pgPERFW) (h' : pg ≠ pgMBX) (ho : off < 2 ^ 20) (hl : lo < 64) :
    settleKey (fkey pg off lo) = false := (settleKey_fkey pg ho hl).2 ⟨fun e => h e.1, fun e => h' e.1⟩

end Sys2Proof.Machine
end

