-- ==== Sys2Proof/WellFormed.lean ====
section
/-! DEFINITION.  Which commands are well formed: operands that a host access can carry and that the parts of the block can
present.  A written word holds the action bit its row names, an offset is aligned to the access (R36), and a list of
measurements has one entry per lane, sensor, port or byte.  The meanings are total and do not rest on these checks. -/

namespace Sys2Proof

/-- A BAR offset aligned to a 32-bit access, or to a 64-bit one (R36). -/
def wordAligned {n : Nat} (off : BitVec n) (wide : Bool) : Bool := off.toNat % (if wide then 8 else 4) == 0

/-- A page of a line die (R41). -/
def diePage (pg : Nat) : Bool := decide (0x200 ≤ pg) && decide (pg < 0x400)

/-- Numbers that rise strictly, so that none is named twice. -/
def rising : List Nat → Bool
  | a :: b :: t => decide (a < b) && rising (b :: t)
  | _ => true

/-- The samples of a capture at different places, its swaps in order. -/
def Capture.wf (x : Capture) : Bool :=
  rising (x.data.map (·.1.toNat)) && (x.swaps.zip (x.swaps.drop 1)).all fun e => decide (e.1.toNat ≤ e.2.toNat)

/-- Both polarisations have as many samples, and the writes of a frame come in order. -/
def TxFrame.wf (x : TxFrame) : Bool :=
  x.x.length == x.y.length && (x.writes.zip (x.writes.drop 1)).all fun e => decide (e.1.toNat ≤ e.2.toNat)

/-- What a host write meets: a code offset for each of the 16 engines of a cluster, and bits for each of the 33 ports of
R565 that no command carries bits for, or none where the register has no use for them. -/
def HostEnv.wf (x : HostEnv) : Bool := (x.pcs.length == 16 || x.pcs.isEmpty) && (x.bits.length == 33 || x.bits.isEmpty) && x.cap.wf

/-- A command is well formed. (DESIGN CHOICE: log 8) -/
def Instr.wf (i : Instr) : Bool :=
  match i with
  | .registerWrite _ off wide _ x => wordAligned off wide && x.wf
  | .loRead off wide => wordAligned off wide
  | .barPartial off => wordAligned off false
  | .unmapped off _ => wordAligned off false
  | .ldOffline off _ => wordAligned off false && diePage (off.toNat / 4096)
  | .bar2Read off wide _ => wordAligned off wide
  | .bar2Write off _ _ => off.toNat % 8 == 0
  | .bar4Read off wide => wordAligned off wide
  | .evtMaskWrite _ _ _ => true
  | .force _ _ _ => true
  | .msixEnable _ _ => true
  | .msixVectorUnmask _ w => !w.getLsbD 0
  | .softRst _ x => x.wf
  | .tbSoftRst => true
  | .tcvSoftRst => true
  | .mbxSoftRst => true
  | .pierSoftRst _ pcs => pcs.length == 16
  | .dmaSoftRst => true
  | .perfwSoftRst => true
  | .txFrameBoundary _ tx => tx.wf
  | .txSpanBoundary _ tx => tx.wf
  | .rxFrameBoundary _ blocks => blocks.all (·.syms.length == 512)
  | .rxSpanBoundary _ blocks => blocks.all (·.syms.length == 512)
  | .txEnSet _ w => w.getLsbD 0
  | .txEnClear _ w => !w.getLsbD 0
  | .framerStop _ tx => tx.wf
  | .set _ w => w.getLsbD 0
  | .adopt _ w => w.getLsbD 1
  | .spanAnnounceRx _ _ _ _ => true
  | .anchorHeader _ _ _ _ => true
  | .subcarrierHeader _ _ _ _ _ => true
  | .commitArm _ _ _ _ _ => true
  | .rwsWrite off _ _ _ => wordAligned off false
  | .rxwaitExpiry _ tx => tx.wf
  | .propose _ w => w.getLsbD 8
  | .accept _ w => w.getLsbD 9
  | .reject _ w => w.getLsbD 10
  | .cnResend _ => true
  | .cnTimeout _ => true
  | .cnPropose _ _ _ _ _ => true
  | .cnAck _ _ _ => true
  | .cnNack _ _ _ _ => true
  | .cnLateReply _ => true
  | .converterPllSettle _ _ => true
  | .adcOverrange _ _ _ => true
  | .dacLaneCtlWrite _ _ _ _ => true
  | .lcalTempTrigger _ _ _ => true
  | .lcalLoadTrigger _ _ => true
  | .lcalAgeTrigger _ => true
  | .lcalStart _ w => w.getLsbD 1
  | .lcalHold _ w => w.getLsbD 2
  | .passStart _ elig => rising (elig.map (·.val))
  | .lcalMeasurementEnd _ _ _ _ _ _ _ => true
  | .roundEnd _ elig => rising (elig.map (·.val))
  | .prioLate _ => true
  | .adcCapArm _ w x => w.getLsbD 0 && x.wf
  | .adcCapAbort _ w x => w.getLsbD 1 && x.wf
  | .capDone _ x => x.wf
  | .cdcCoefReady _ => true
  | .cdcBlockBoundary _ _ _ _ _ => true
  | .start _ w => w.getLsbD 31
  | .srchDone _ => true
  | .srchRetry _ => true
  | .mimoTapUpdate _ _ grads => grads.length == 16
  | .mimoWindow _ _ _ _ => true
  | .mimoSeedTimeout _ _ => true
  | .mimoPilotDone _ _ => true
  | .mimoHoldTimeout _ _ => true
  | .freeze _ _ => true
  | .reinit _ _ => true
  | .snap _ _ => true
  | .tripletWrite _ _ _ => true
  | .tblOpen _ => true
  | .sumStart _ => true
  | .sumDone _ => true
  | .tblEcc _ _ => true
  | .reacq _ => true
  | .coarseFoDone _ _ => true
  | .timLock _ => true
  | .timLost _ => true
  | .acqTimeout _ => true
  | .acqRetry _ => true
  | .pilot _ _ _ _ _ _ _ _ _ => true
  | .monLatch _ m => rising (m.map (·.1.val))
  | .txsPdWrite _ _ _ => true
  | .decoderStart _ => true
  | .codewordRelease _ blocks _ parity => blocks.all (·.syms.length == 512) && rising (parity.map (·.val))
  | .trestleRelease _ blocks parity => blocks.all (·.syms.length == 512) && rising (parity.map (·.val))
  | .peakClr _ => true
  | .injOn _ w => w.getLsbD 31
  | .sectionBipCompare _ => true
  | .sccCellRx _ cell _ => cell.length == 20
  | .send _ _ => true
  | .txDone _ => true
  | .pop _ => true
  | .deckTx _ offers => rising (offers.map (·.1.val))
  | .deckRx _ fills _ => rising (fills.map (·.1.val))
  | .ejUnf _ _ => true
  | .recentre _ _ w _ _ => w.getLsbD 27
  | .adaptRestart _ w => w.getLsbD 8
  | .adaptDone _ _ => true
  | .laneDown _ _ => true
  | .hlnTxffeWrite _ _ _ => true
  | .cliCfgWrite _ _ => true
  | .rsCodeword _ _ _ => true
  | .ptpIngress _ _ => true
  | .ptpEgress _ _ => true
  | .encTxBlock _ data _ _ => decide (data.length ≤ 131072)
  | .encRxBlock _ _ _ _ _ => true
  | .encFrameRelease _ _ _ => true
  | .resync w => w.getLsbD 8
  | .logPop w => w.getLsbD 9
  | .inject w => w.getLsbD 12
  | .encTribWrite _ _ _ _ => true
  | .erase w => w.getLsbD 8
  | .eraseAll w => w.getLsbD 9
  | .controlRecord _ _ _ => true
  | .pwronN _ => true
  | .rstN => true
  | .perstN => true
  | .bootDone _ _ _ => true
  | .pushDone w => w.getLsbD 1
  | .claim _ w => w.getLsbD 0
  | .release _ w => w.getLsbD 1
  | .claimExpired => true
  | .info => true
  | .getCerts => true
  | .quote => true
  | .svnCommit _ => true
  | .ownerBurn _ => true
  | .anchorSet => true
  | .kaStart => true
  | .keyInstall => true
  | .debugChallenge => true
  | .debugUnlock => true
  | .hgKeyAgree => true
  | .mbDone => true
  | .kaInit _ _ => true
  | .kaResp _ _ => true
  | .kaFin _ _ _ => true
  | .kaAbort _ _ _ => true
  | .kaInitResend _ => true
  | .kaFinTimeout _ => true
  | .challengeExpiry => true
  | .tamper _ _ => true
  | .zeroise _ => true
  | .tamperAck w => w.getLsbD 0
  | .tamperAbsent => true
  | .firewall _ => true
  | .refLos _ => true
  | .monitorWindow freqs _ _ => freqs.length == 8
  | .freqSubwindow _ _ => true
  | .wtrExpiry _ => true
  | .wtrClr _ => true
  | .histClr w => w.getLsbD 8
  | .clkCtlWrite _ _ => true
  | .esmcPdu _ _ => true
  | .esmcTimeout _ => true
  | .qlAnnounce _ _ _ => true
  | .dpllStageDone _ => true
  | .dpllLockLoss _ => true
  | .tbStep _ => true
  | .tbSnap w => w.getLsbD 4
  | .trimClamp _ _ => true
  | .timeTx _ _ _ _ => true
  | .timeRx _ _ _ _ => true
  | .ppsOut => true
  | .ppsIn => true
  | .enq w => w.getLsbD 0
  | .tlqEnqDone => true
  | .flushAll w => w.getLsbD 1
  | .tlqDue _ => true
  | .tlqLaunchDone _ _ => true
  | .hglEn _ _ => true
  | .hgPreamble _ _ _ _ => true
  | .hgHeader _ _ => true
  | .hgPacket _ words => decide (1 ≤ words.length) && decide (words.length ≤ 8) && words.all (·.length == 1024)
  | .rsp _ _ _ _ => true
  | .tel _ _ _ => true
  | .event _ _ _ _ => true
  | .srsp _ _ _ => true
  | .key _ _ _ => true
  | .hgRto _ => true
  | .hgAckTimer _ => true
  | .hgIdleTimer _ => true
  | .hgLinkTimeout _ => true
  | .hglAccept _ w => w.getLsbD 0
  | .retrain _ w => w.getLsbD 1
  | .noiseClr _ w => w.getLsbD 2
  | .ecReset _ w => w.getLsbD 5
  | .reqGo _ w _ => w.getLsbD 16
  | .tmdGo _ w _ => w.getLsbD 31
  | .triggerReservation _ _ => true
  | .trigger _ _ => true
  | .execDoneTimeout _ _ => true
  | .kxTimeout _ => true
  | .noiseGap _ _ => true
  | .refEn _ => true
  | .refReady => true
  | .cal w => w.getLsbD 16
  | .calDone _ _ _ _ => true
  | .scanEn _ => true
  | .muxSettled => true
  | .tcvResult _ => true
  | .scanDelayEnd => true
  | .injGo w => w.getLsbD 16
  | .tcvQHeadRead => true
  | .qFlush w => w.getLsbD 17
  | .tcvStart w => w.getLsbD 0
  | .tcvAge => true
  | .tcvDeferExp => true
  | .calConversion _ _ => true
  | .vrefCheck _ => true
  | .hgStart _ => true
  | .hgApply _ => true
  | .hgEchoTrigger _ _ => true
  | .hgCalMeasurement _ _ => true
  | .coreFault _ => true
  | .mgmtHeartbeat _ => true
  | .rtDown => true
  | .pierStart _ w _ => w.getLsbD 8
  | .pierHalt _ w _ => w.getLsbD 9
  | .pierReset _ w _ => w.getLsbD 10
  | .recipeCheckDone => true
  | .pierFault _ _ _ => true
  | .mbxCmdDb _ => true
  | .cmdFetchDone entry _ => entry.all (·.length == 128)
  | .nop => true
  | .regWrite x => x.wf
  | .regRead => true
  | .loopStart => true
  | .loopStop _ => true
  | .ntfEvents => true
  | .ntf _ => true
  | .mbxNtfAck _ => true
  | .resyncGo w => w.getLsbD 0
  | .resyncDone _ => true
  | .mbxEn w => w.getLsbD 0
  | .ringRetry _ entry _ => entry.length == 128
  | .trainDone _ _ => true
  | .fillDone => true
  | .ldFillDone _ => true
  | .mergeDrain _ => true
  | .scrubRead _ _ _ _ => true
  | .leak _ => true
  | .qmcLinkWindow _ => true
  | .writeRaw w => w.getLsbD 0
  | .readRaw w => w.getLsbD 1
  | .qmcRetrain _ w => w.getLsbD 16
  | .trussFlit _ _ _ _ => true
  | .trussLaneWindow _ _ _ _ _ => true
  | .modUp _ _ _ _ _ => true
  | .trsRetrain _ _ _ => true
  | .dmaStart _ w => w.getLsbD 0
  | .startShd _ w => w.getLsbD 1
  | .abort _ w => w.getLsbD 2
  | .disarm _ w => w.getLsbD 3
  | .shdArm _ w => w.getLsbD 8
  | .dmaSetWrite _ _ _ _ => true
  | .dmaReadCompletion _ _ _ e _ => e.wf
  | .dmaRetry _ => true
  | .dmaDrainDone _ => true
  | .dmaReadbackDone _ _ _ => true
  | .perfSelWrite _ _ => true
  | .perfSnap w => w.getLsbD 0
  | .snapDone => true
  | .bwLatch bits => bits.length == 33
  | .bwWinWrite _ bits _ => bits.length == 33
  | .wrap _ => true
  | .dip _ _ _ => true
  | .ldBrown _ => true
  | .hubBrown _ => true
  | .avsChg _ _ => true
  | .thermWarn temps => temps.length == 8
  | .thermClear temps => temps.length == 8
  | .thermCrit temps => temps.length == 8
  | .enter w => w.getLsbD 0
  | .basculeIn => true
  | .wake w => w.getLsbD 1
  | .wakeDone temps => temps.length == 8
  | .oscInLoss => true
  | .sigDet _ => true
  | .pcsAlignmentLock _ _ _ => true
  | .egressBlock _ _ _ _ _ _ => true
  | .completionTimeout _ => true
  | .railRecovery _ => true
  | .sdsBrown _ => true
  | .pllUnlock _ => true
  | .ppsPulseEnd => true

end Sys2Proof
end

