-- ==== Sys2Proof/Tests/Slice0.lean ====
section
/-! SUPPORT.  Tests: a refused term for each check of well-formedness, small steps with values of the spec's worked examples,
and for each statement with premises a state and operands that meet them, clause by clause. -/

namespace Sys2Proof

set_option Elab.async false

/-! ### Well-formedness refuses -/

/-- A write that meets nothing beside its word. -/
def env : HostEnv := ⟨false, false, [], ⟨0, 0, 0, 0⟩, [], 0, ⟨0, [], []⟩⟩

/-- Code offsets for one engine only, where a cluster has 16. -/
def badEnv : HostEnv := ⟨false, false, [0], ⟨0, 0, 0, 0⟩, [], 0, ⟨0, [], []⟩⟩

/-- Bits for one port only, where the commands leave 33. -/
def badBits : HostEnv := ⟨false, false, [], ⟨0, 0, 0, 0⟩, [(0, 0)], 0, ⟨0, [], []⟩⟩

/-- A register write without the action bit that its row names. -/
theorem test_wf_action_bit :
    ([.txEnSet 0 0,
      .set 0 0,
      .adopt 0 0,
      .propose 0 0,
      .accept 0 0,
      .reject 0 0,
      .lcalStart 0 0,
      .lcalHold 0 0,
      .adcCapArm 0 0 ⟨0, [], []⟩,
      .adcCapAbort 0 0 ⟨0, [], []⟩,
      .start 0 0,
      .injOn 0 0,
      .recentre 0 0 0 false false,
      .adaptRestart 0 0,
      .resync 0,
      .logPop 0,
      .inject 0,
      .erase 0,
      .eraseAll 0,
      .pushDone 0,
      .claim false 0,
      .release false 0,
      .tamperAck 0,
      .histClr 0,
      .tbSnap 0,
      .enq 0,
      .flushAll 0,
      .hglAccept 0 0,
      .retrain 0 0,
      .noiseClr 0 0,
      .ecReset 0 0,
      .reqGo 0 0 none,
      .tmdGo 0 0 ⟨0, 0, 0, 0⟩,
      .cal 0,
      .injGo 0,
      .qFlush 0,
      .tcvStart 0,
      .pierStart 0 0 0,
      .pierHalt 0 0 0,
      .pierReset 0 0 0,
      .resyncGo 0,
      .mbxEn 0,
      .writeRaw 0,
      .readRaw 0,
      .qmcRetrain 0 0,
      .dmaStart 0 0,
      .startShd 0 0,
      .abort 0 0,
      .disarm 0 0,
      .shdArm 0 0,
      .perfSnap 0,
      .enter 0,
      .wake 0] : List Instr).all (fun i => !i.wf) = true := by decide +kernel

/-- A write that sets the bit its row clears. -/
theorem test_wf_action_bit_clear :
    ([.msixVectorUnmask 0 1,
      .txEnClear 0 1] : List Instr).all (fun i => !i.wf) = true := by decide +kernel

/-- An offset that is not aligned to its access (R36), and a page of no line die. -/
theorem test_wf_alignment :
    ([.registerWrite false 2 false 0 env,
      .loRead 2 false,
      .barPartial 2,
      .unmapped 2 0,
      .ldOffline 2 0,
      .bar2Read 2 false ⟨0, 0, 0⟩,
      .bar2Write 2 0 0,
      .bar4Read 2 false,
      .rwsWrite 2 0 false false,
      .ldOffline 0x100 0,
      .loRead 4 true,
      .bar2Write 4 0 0] : List Instr).all (fun i => !i.wf) = true := by decide +kernel

/-- A list of the wrong length. -/
theorem test_wf_counts :
    ([.pierSoftRst 0 [],
      .txFrameBoundary 0 ⟨[], [(0, 0)], []⟩,
      .txSpanBoundary 0 ⟨[], [(0, 0)], []⟩,
      .framerStop 0 ⟨[], [(0, 0)], []⟩,
      .rxwaitExpiry 0 ⟨[], [(0, 0)], []⟩,
      .sccCellRx 0 [] false,
      .monitorWindow [] 0 0,
      .cmdFetchDone (some []) false,
      .ringRetry false [] false,
      .bwLatch [],
      .bwWinWrite 0 [] 0,
      .thermWarn [],
      .thermClear [],
      .thermCrit [],
      .wakeDone [],
      .mimoTapUpdate 0 0 [],
      .rxFrameBoundary 0 [⟨0, false, 0, []⟩],
      .rxSpanBoundary 0 [⟨0, false, 0, []⟩],
      .codewordRelease 0 [⟨0, false, 0, []⟩] 0 [],
      .trestleRelease 0 [⟨0, false, 0, []⟩] [],
      .hgPacket 0 [],
      .hgPacket 0 [[1]],
      .encTxBlock 0 (List.replicate 131073 false) [] false] : List Instr).all (fun i => !i.wf) = true := by decide +kernel

/-- A list that names one place twice, or goes back. -/
theorem test_wf_rising :
    ([.passStart 0 [3, 3],
      .roundEnd 0 [3, 3],
      .capDone 0 ⟨0, [(3, 0), (3, 0)], []⟩,
      .capDone 0 ⟨0, [], [4, 3]⟩,
      .adcCapAbort 0 2 ⟨0, [(3, 0), (3, 0)], []⟩,
      .adcCapArm 0 1 ⟨0, [(3, 0), (3, 0)], []⟩,
      .txFrameBoundary 0 ⟨[], [], [4, 3]⟩,
      .monLatch 0 [(3, ⟨0, 0, 0, 0, 0, 0, 0, 0, 0, 0⟩), (3, ⟨0, 0, 0, 0, 0, 0, 0, 0, 0, 0⟩)],
      .codewordRelease 0 [] 0 [3, 3],
      .trestleRelease 0 [] [3, 3],
      .deckTx 0 [(3, ⟨[], []⟩), (3, ⟨[], []⟩)],
      .deckRx 0 [(3, 0), (3, 0)] []] : List Instr).all (fun i => !i.wf) = true := by decide +kernel

/-- What a host write meets, of the wrong shape. -/
theorem test_wf_environment :
    ([.registerWrite false 4 false 0 badEnv,
      .softRst 0 badEnv,
      .regWrite badEnv,
      .dmaReadCompletion 0 none [] badBits 0,
      .softRst 0 badBits,
      .softRst 0 { env with cap := ⟨0, [(3, 0), (3, 0)], []⟩ }] : List Instr).all (fun i => !i.wf) = true := by decide +kernel

/-- Commands that are well formed. -/
theorem test_wf_accepts :
    ([.registerWrite true 8 true 0 env, .txEnSet 0 1, .txEnClear 0 2, .ldOffline 0x200000 0, .wakeDone (List.replicate 8 0),
      .passStart 0 [3, 5], .fillDone] : List Instr).all (fun i => i.wf) = true := by decide +kernel

end Sys2Proof

namespace Sys2Proof.Machine

set_option linter.unusedVariables false
set_option Elab.async false

/-! ### Small states -/

/-- A device with some register fields written. -/
def mk (l : List (Nat × Fld × Nat)) : Dev := l.foldl (fun d x => d.put x.1 x.2.1 x.2.2) Dev.reset

/-- A state of a device with nothing waiting. -/
def st (d : Dev) : State := ⟨d, []⟩

/-- A bit layer with one deck of zeros and a mark, 70 decks into its span. -/
def deckS : FecState := { FecState.reset with segs := [⟨0, 65536, [(65000, false), (536, true)], 70, 5, false, 8, 1700⟩] }

/-- The device of the state that a command answers. -/
def devOf (o : Host.Outcome State Fault Refusal) (f : Dev → Bool) : Bool := match o with | .next t => f t.dev | _ => false

/-! ### Worked examples of the spec -/

/-- R524, example of chapter 19: the check bits of 0x13, and the classes of its single, double and poisoned syndromes. -/
theorem test_ecc_check :
    eccCheck 0x13 = 0x1F ∧ eccClass (eccCheck 0x12 ^^^ 0x1F) = 1 ∧ eccFix 0x12 (eccCheck 0x12 ^^^ 0x1F) = 0x13 ∧
      eccClass (eccCheck 0x10 ^^^ 0x1F) = 3 ∧ eccClass 0xFF = 4 := by decide +kernel

/-- The same example, step 2: a BAR2 read of QM0 word 0x1000 with bit 0 wrong returns the data corrected, and bucket 1 rises. -/
theorem test_ecc_read :
    devOf (exec (.bar2Read 0x8000 true ⟨0, 0, 0⟩) (st { mk [(pgQMC 0, QMC.STATUS_FILL_DONE, 1)] with
      mem := memWriteN [] 8 (wordAddr 0 0x1000) 0x12, syn := [(wordAddr 0 0x1000 / 8, 7)] }))
      (fun d => d.out == [.readData (some 0x13)] && d.get pgECC (ECC.BKT_LEVEL.at 1) == 1) = true := by decide +kernel

/-- Step 4: both bits wrong end in a completer abort, the log, and poison. -/
theorem test_ecc_abort :
    devOf (exec (.bar2Read 0x8000 true ⟨0, 0, 0⟩) (st { mk [(pgQMC 0, QMC.STATUS_FILL_DONE, 1)] with
      mem := memWriteN [] 8 (wordAddr 0 0x1000) 0x10, syn := [(wordAddr 0 0x1000 / 8, 0x0C)] }))
      (fun d => d.out == [.readData none] && d.get (pgQMC 0) QMC.UE_INFO_SYND == 0x0C && d.get (pgQMC 0) QMC.REREADS == 1 &&
        d.wordSyn 0 0x1000 == 0xFF && d.wordData 0 0x1000 == 0x10) = true := by decide +kernel

/-- R47, example of chapter 2: source 3 of the FEC page of line die 1 is 995 and goes to vector 9 and to pier engine 70. -/
theorem test_route :
    globalSrc (0x309 * 64 + 3) = 995 ∧ devOf (exec (.force 0x309 0 8) (st { mk [(pgLDSYS 1, LDSYS.STATUS_READY, 1),
        (pgPIER 4, PIER.ENG_STATE.at 6, 3), (pgEVT0, EVT0.MSIX_VCTL_MASK.at 9, 0)] with
      evt := { Dev.reset.evt with unmasked := [(0x309 * 64 + 3, 1)], route := [(995, 0x46509)], msixEn := true } }))
      (fun d => d.out == [.msix 9 0 0] && AMap.find? d.evt.evq 70 == some [995]) = true := by decide +kernel

/-- R19, examples of chapters 1 and 7: G16N, and 2.0 Tb/s in Girder at 270 GBd with its matcher. -/
theorem test_entropy :
    entropy19 16 240000 false = 1031 ∧ entropy19 20 270000 false = 1146 ∧ matcherK 1146 = 1268 := by decide +kernel

/-- R406, example of chapter 14: the set of span byte 0x54 on LP0 gives an offset of 1,000.25 ns and a delay of 2,450,000 ns. -/
theorem test_offset :
    (let d := ((mk [(pgTB, TB.LINK_ASYM_ASYM.at 0, 64)]).tlUpd 0 fun l => { l with
        t1 := [(0x54, 10000000 * 65536)], t2 := [(0x54, 12451002 * 65536 + 16384)],
        t3 := [(0x54, 12000500 * 65536)], t4 := [(0x54, 14449497 * 65536 + 49152)] }).tlSet 0 0x54;
      d.get pgTB (TB.SCC_OFS_NS_V.at 0) = 1000 ∧ d.get pgTB (TB.SCC_OFS_FRAC_V.at 0) = 16384 ∧
        d.get pgTB (TB.SCC_DELAY_NS_V.at 0) = 2450000) := by decide +kernel

/-- R59: span 0 comes one after span 2^48 - 1. -/
theorem test_span_wrap :
    diff48 0 (2 ^ 48 - 1) = 1 ∧ diff48 (2 ^ 48 - 1) 0 = -1 ∧ diff48 (2 ^ 47) 0 = -(2 ^ 47) := by decide +kernel

/-- One step with nothing waiting is one hub clock: 32/45 ns on every time base. -/
theorem test_tick :
    devOf (step (st Dev.reset)) (fun d => d.ticks == 1 && FMap.get d.tb 3 == 2 ^ 21 * 10 ^ 12) = true := by decide +kernel

/-- R246: a header field with its CRC reads back. -/
theorem test_header_word :
    headerRead (headerWord 4095 0x2345 3 7) = some ⟨4095, 0x2345, 3, 7⟩ := by decide +kernel

/-- R246: a header with a wrong bit does not check. -/
theorem test_header_crc_fails :
    headerRead (headerWord 4095 0x2345 3 7 + 1) = none := by decide +kernel

/-- R219: the generator has degree 33, and the first minimal polynomial is the primitive one. -/
theorem test_outer_generator :
    outerGen.log2 = 33 ∧ minPoly 1 = 2 ^ 11 + 2 ^ 2 + 1 := by decide +kernel

/-- R247: 24 symbols of the anchor header carry the sync word, bit 47 first. -/
theorem test_sync_word :
    ofBits ((trainingBits 0 0).take 48) = 0xB3C41F7A92E5 ∧ (trainingBits 0 1).length = 64 := by decide +kernel

/-- R168: 2,048/K - 1 pilots of a subframe, the first at symbol 64. -/
theorem test_pilot_count :
    (pilots 8 0 0).length = 255 ∧ isPilot 64 = true ∧ isPilot 0 = false := by decide +kernel

/-- R220, worked by hand: bit 9 of outer codeword 1 is information bit 25 of inner codeword 2. -/
theorem test_interleaver :
    outerPlace 1 9 = (2, 25) := by decide +kernel

/-- R261, R266: the first data byte of a client in slots 3 and 5 stands in row 4 of slot 3, the second in slot 5. -/
theorem test_deck_place :
    deckPlace (dataByte [3, 5] 0) = (3, 4) ∧ deckPlace (dataByte [3, 5] 1) = (5, 4) := by decide +kernel

/-! ### The premises of the statements can be met -/

/-- The premises of StepRunsFront can be met. -/
theorem wit_StepRunsFront :
    ∃ (c : Instr) (rest : List Instr) (s : State), s.pending = c :: rest :=
  ⟨.fillDone, [.rstN], ⟨Dev.reset, [.fillDone, .rstN]⟩, by decide +kernel⟩

/-- The premises of UnassignedPages can be met, clause by clause. -/
theorem wit_UnassignedPages :
    (∃ (off : BitVec 22) (wide : Bool) (s : State), s.clocked ∧ pageInfo (off.toNat / 4096) = none ∧ off.toNat % (if wide then 8 else 4) = 0) ∧
    (∃ (core wide : Bool) (off : BitVec 22) (data : BitVec 64) (x : HostEnv) (s : State), s.clocked ∧ pageInfo (off.toNat / 4096) = none ∧ off.toNat % (if wide then 8 else 4) = 0) ∧
    (∃ (pg : BitVec 10) (k : Fin 4) (w lo hi : Word) (x : HostEnv) (nearTx nearRx : Bool) (s : State), s.clocked ∧ pageInfo pg.toNat = none) ∧
    (∃ (off : BitVec 22) (w : Word) (nearTx nearRx : Bool) (s : State), s.clocked ∧ pageInfo (off.toNat / 4096) = none) :=
  ⟨⟨0x3FFFF8, true, st Dev.reset, by decide +kernel⟩,
   ⟨false, true, 0x3FFFF8, 5, ⟨false, false, [], ⟨0, 0, 0, 0⟩, [], 0, 0, [], []⟩, st Dev.reset, by decide +kernel⟩,
   ⟨0x3FF, 3, 0, 0, 0x80000000, ⟨false, false, [], ⟨0, 0, 0, 0⟩, [], 0, 0, [], []⟩, false, false, st Dev.reset, by decide +kernel⟩,
   ⟨0x3FFFF8, 5, false, true, st Dev.reset, by decide +kernel⟩⟩

/-- The premises of TimeBaseTrim can be met, clause by clause. -/
theorem wit_TimeBaseTrim :
    (∃ (n : Fin 4) (w : Word) (s : State), s.clocked) ∧
    (∃ (s : State), s.pending = [] ∧ s.clocked) :=
  ⟨⟨3, 0x80000000, st Dev.reset, by decide +kernel⟩,
   ⟨st Dev.reset, by decide +kernel⟩⟩

/-- The premises of EmptyQueueIsOneClock can be met. -/
theorem wit_EmptyQueueIsOneClock :
    ∃ (s : State), s.pending = [] ∧ s.clocked :=
  ⟨st (mk [(pgPIER 11, PIER.ENG_STATE.at 15, 3)]), by decide +kernel⟩

/-- The premises of RegisterAccess can be met, clause by clause. -/
theorem wit_RegisterAccess :
    (∃ (core wide : Bool) (off : BitVec 22) (data : BitVec 64) (x : HostEnv) (s : State), s.clocked ∧ off.toNat = pgSYS * 4096 + 0x100) ∧
    (∃ (core : Bool) (p : Port) (off : BitVec 22) (data : BitVec 64) (x : HostEnv) (s : State), s.clocked ∧ s.dev.online p = true ∧ off.toNat = pgTXS p * 4096 + 0x188) ∧
    (∃ (c : Fin 8) (off : BitVec 22) (s : State), s.clocked ∧ off.toNat = pgDMA * 4096 + 0xC00 + 32 * c.val) ∧
    (∃ (c : Fin 8) (off : BitVec 22) (s : State), s.clocked ∧ off.toNat = pgDMA * 4096 + 0xC00 + 32 * c.val) ∧
    (∃ (off : BitVec 22) (v : Nat) (s : State), s.clocked ∧ off.toNat = pgDMA * 4096 + 0xC04 ∧ AMap.find? s.dev.hiCap (pgDMA * 4096 + 0xC04) = some v) ∧
    (∃ (off : BitVec 22) (s : State), s.clocked) ∧
    (∃ (off : BitVec 22) (w : Word) (s : State), s.clocked ∧ pageInfo (off.toNat / 4096) = none) ∧
    (∃ (p : Port) (off : BitVec 22) (w : Word) (i : PageInfo) (s : State), s.clocked ∧ pageInfo (off.toNat / 4096) = some i ∧ i.die = some p ∧ s.dev.online p = false) :=
  ⟨⟨true, true, 0x100, 0x100000003, ⟨true, true, [], ⟨0, 0, 0, 0⟩, [], 0, 0, [], []⟩, st Dev.reset, by decide +kernel⟩,
   ⟨true, 1, 0x308188, 0x100000003, ⟨true, true, [], ⟨0, 0, 0, 0⟩, [], 0, 0, [], []⟩, st (mk [(pgLDSYS 1, LDSYS.STATUS_READY, 1)]), by decide +kernel⟩,
   ⟨7, 0x18CE0, st (mk [(pgDMA, DMA.BYTES_TOTAL.at 7, 0x123456789ABC)]), by decide +kernel⟩,
   ⟨7, 0x18CE0, st (mk [(pgDMA, DMA.BYTES_TOTAL.at 7, 0x123456789ABC)]), by decide +kernel⟩,
   ⟨0x18C04, 9, st { (mk []) with hiCap := [(pgDMA * 4096 + 0xC04, 9)] }, by decide +kernel⟩,
   ⟨0x100, st Dev.reset, by decide +kernel⟩,
   ⟨0x3FFFFC, 5, st Dev.reset, by decide +kernel⟩,
   ⟨1, 0x302100, 5, ⟨⟨.dac, 0x02, 1, 0x0202, 16, 48⟩, 0, some 1⟩, st Dev.reset, by decide +kernel⟩⟩

/-- The premises of EventRegisters can be met, clause by clause. -/
theorem wit_EventRegisters :
    (∃ (pg : BitVec 10) (k : Fin 4) (w : Word) (i : PageInfo) (s : State), s.clocked ∧ pageInfo pg.toNat = some i ∧ i.die = none) ∧
    (∃ (pg : BitVec 10) (k : Fin 4) (w : Word) (i : PageInfo) (s : State), s.clocked ∧ pageInfo pg.toNat = some i ∧ i.die = none) ∧
    (∃ (en fmask : Bool) (s : State), s.clocked) ∧
    (∃ (v : Fin 64) (w : Word) (s : State), s.clocked ∧ s.dev.evt.msixEn = true ∧ s.dev.evt.fmask = false ∧ FMap.get s.dev.evt.pba v.val ≠ 0) ∧
    (∃ (k : Fin 4) (b : Fin 32) (w : Word) (key v : Nat) (s : State), s.clocked ∧ key = pgSYS * 64 + 32 * k.val + b.val ∧ hasSrc pgSYS (32 * k.val + b.val) = true ∧ w.toNat = 2 ^ b.val ∧ s.dev.occ = [] ∧ FMap.get s.dev.evt.unmasked key ≠ 0 ∧ FMap.get s.dev.evt.asserted key = 0 ∧ bitOf (FMap.get s.dev.evt.route (globalSrc key)) 8 = true ∧ v = bitsOf (FMap.get s.dev.evt.route (globalSrc key)) 0 6 ∧ s.dev.evt.msixEn = true ∧ s.dev.evt.fmask = false ∧ s.dev.flag pgEVT0 (EVT0.MSIX_VCTL_MASK.at v) = false) :=
  ⟨⟨0, 0, 0xFFFFFFF0, ⟨⟨.sys, 0x000, 1, 0x0100, 16, 0⟩, 0, none⟩, st Dev.reset, by decide +kernel⟩,
   ⟨0, 0, 0xFFFFFFF0, ⟨⟨.sys, 0x000, 1, 0x0100, 16, 0⟩, 0, none⟩, st Dev.reset, by decide +kernel⟩,
   ⟨true, false, st { (mk [(pgEVT0, EVT0.MSIX_VCTL_MASK.at 63, 0)]) with evt := { Dev.reset.evt with pba := [(63, 1)] } }, by decide +kernel⟩,
   ⟨63, 0xFFFFFFFF, st { (mk []) with evt := { Dev.reset.evt with pba := [(63, 1)], msixEn := true } }, by decide +kernel⟩,
   ⟨0, 5, 0x20, 5, 3, st { (mk [(pgEVT0, EVT0.MSIX_VCTL_MASK.at 3, 0)]) with evt := { Dev.reset.evt with unmasked := [(5, 1)], route := [(5, 0x103)], msixEn := true } }, by decide +kernel⟩⟩

/-- The premises of SoftResets can be met, clause by clause. -/
theorem wit_SoftResets :
    (∃ (pg : BitVec 10) (x : HostEnv) (s : State), s.clocked ∧ pg.toNat ∈ [pgSYS, pgPWR, pgTLQ, pgQMC 0, pgQMC 1, pgECC, pgTRS 0, pgTRS 1, pgSCC 0, pgSCC 1]) ∧
    (∃ (pg : BitVec 10) (x : HostEnv) (s : State), s.clocked ∧ pg.toNat = pgCAL) ∧
    (∃ (pg : BitVec 10) (x : HostEnv) (s : State), s.clocked ∧ pg.toNat = pgEVT0) ∧
    (∃ (pg : BitVec 10) (x : HostEnv) (s : State), s.clocked ∧ pg.toNat ∈ [pgEVT0 + 1, pgEVT0 + 2, pgEVT0 + 3, pgEVT0 + 4]) ∧
    (∃ (pg : BitVec 10) (x : HostEnv) (s : State), s.clocked ∧ pg.toNat ∈ [pgKSMB, pgKEYS, pgMGMT, pgEVT0 + 5, pgEVT0 + 6, pgEVT0 + 7]) ∧
    (∃ (s : State), s.clocked) ∧
    (∃ (s : State), s.clocked ∧ s.dev.tcv.cal ≠ 2) ∧
    (∃ (s : State), s.clocked ∧ s.dev.tcv.cal = 2) ∧
    (∃ (s : State), s.clocked) ∧
    (∃ (cluster : Fin 12) (pcs : List (BitVec 14)) (s : State), s.clocked) :=
  ⟨⟨0x22, ⟨false, false, [], ⟨0, 0, 0, 0⟩, [], 0, 0, [], []⟩, st (mk [(pgECC, ECC.TEST_CHK_CHK, 5), (pgECC, ECC.CE, 5)]), by decide +kernel⟩,
   ⟨0x39, ⟨false, false, [], ⟨0, 0, 0, 0⟩, [], 0, 0, [], []⟩, st (mk [(pgCAL, CAL.TCV_LAST_TRIES, 5)]), by decide +kernel⟩,
   ⟨4, ⟨false, false, [], ⟨0, 0, 0, 0⟩, [], 0, 0, [], []⟩, st (mk [(pgEVT0, EVT0.GRP_MASK_LO_MASK, 5), (pgEVT0, EVT0.MSIX_DATA_DATA.at 63, 7)]), by decide +kernel⟩,
   ⟨8, ⟨false, false, [], ⟨0, 0, 0, 0⟩, [], 0, 0, [], []⟩, st { (mk []) with evt := { Dev.reset.evt with route := [(5, 0x103)] } }, by decide +kernel⟩,
   ⟨0xA0, ⟨false, false, [], ⟨0, 0, 0, 0⟩, [], 0, 0, [], []⟩, st (mk [(pgMGMT, MGMT.DIR_LOCKED, 1)]), by decide +kernel⟩,
   ⟨st { (mk []) with tb := [(3, 5)] }, by decide +kernel⟩,
   ⟨st ((mk [(pgTCV, TCV.CTL_SCAN_EN, 1)]).tcvUpd fun t => { t with queue := [3], phase := 2 }), by decide +kernel⟩,
   ⟨st ((mk [(pgTCV, TCV.CTL_SCAN_EN, 1)]).tcvUpd fun t => { t with queue := [3], cal := 2 }), by decide +kernel⟩,
   ⟨st (mk [(pgMBX, MBX.CTL_EN, 1), (pgMBX, MBX.STATUS_RUN, 1)]), by decide +kernel⟩,
   ⟨11, [5], st (mk [(pgPIER 11, PIER.ENG_STATE.at 15, 3)]), by decide +kernel⟩⟩

/-- The premises of RingRegisterAccess can be met, clause by clause. -/
theorem wit_RingRegisterAccess :
    (∃ (x : HostEnv) (c : RingCmd) (v : BitVec 32) (s : State), s.clocked ∧ s.dev.mgmt.cmds = [c] ∧ c.op = 2 ∧ c.started = false ∧ c.payload = leBytes 4 0x100 ++ leBytes 4 v.toNat) ∧
    (∃ (x : HostEnv) (c : RingCmd) (v : BitVec 32) (s : State), s.clocked ∧ s.dev.mgmt.cmds = [c] ∧ c.op = 2 ∧ c.started = false ∧ c.payload = leBytes 4 0x3FF000 ++ leBytes 4 v.toNat) ∧
    (∃ (c : RingCmd) (s : State), s.clocked ∧ s.dev.mgmt.cmds = [c] ∧ c.op = 3 ∧ c.started = false ∧ c.payload = leBytes 4 0x104) ∧
    (∃ (x : HostEnv) (s : State), s.clocked ∧ s.dev.mgmt.cmds = []) :=
  ⟨⟨⟨false, false, [], ⟨0, 0, 0, 0⟩, [], 0, 0, [], []⟩, ⟨7, 2, [0, 1, 0, 0, 3, 0, 0, 0], none, false⟩, 3, st ((mk []).mgmtUpd fun m => { m with cmds := [⟨7, 2, [0, 1, 0, 0, 3, 0, 0, 0], none, false⟩] }), by decide +kernel⟩,
   ⟨⟨false, false, [], ⟨0, 0, 0, 0⟩, [], 0, 0, [], []⟩, ⟨7, 2, [0, 240, 63, 0, 3, 0, 0, 0], none, false⟩, 3, st ((mk []).mgmtUpd fun m => { m with cmds := [⟨7, 2, [0, 240, 63, 0, 3, 0, 0, 0], none, false⟩] }), by decide +kernel⟩,
   ⟨⟨7, 3, [4, 1, 0, 0], none, false⟩, st ((mk [(pgSYS, SYS.PERF_USER_EN_EN, 1)]).mgmtUpd fun m => { m with cmds := [⟨7, 3, [4, 1, 0, 0], none, false⟩] }), by decide +kernel⟩,
   ⟨⟨false, false, [], ⟨0, 0, 0, 0⟩, [], 0, 0, [], []⟩, st Dev.reset, by decide +kernel⟩⟩

/-- The premises of SpanCounters can be met, clause by clause. -/
theorem wit_SpanCounters :
    (∃ (p : Port) (tx : TxFrame) (s : State), s.clocked ∧ s.dev.online p = true ∧ s.dev.txRun p = true ∧ s.dev.stopDue p = false ∧ s.dev.commits = [] ∧ s.dev.get (pgLFR p) LFR.SPAN_TXPOS_FRAME < 4095) ∧
    (∃ (p : Port) (tx : TxFrame) (s : State), s.clocked ∧ s.dev.online p = true ∧ s.dev.txRun p = true ∧ s.dev.stopDue p = false ∧ s.dev.commits = [] ∧ s.dev.get (pgLFR p) LFR.SET_WAIT = 0 ∧ s.dev.txSpan p < 2 ^ 48) ∧
    (∃ (p : Port) (tx : TxFrame) (s : State), s.clocked ∧ s.dev.online p = true ∧ s.dev.txRun p = true ∧ s.dev.stopDue p = false ∧ s.dev.get (pgLFR p) LFR.SET_WAIT = 1 ∧ s.dev.getLH (pgLFR p) LFR.SPAN_SET_LO_VALUE LFR.SPAN_SET_HI_VALUE < 2 ^ 48 ∧ s.dev.get (pgLFR p) LFR.SPAN_SET_LO_VALUE < 2 ^ 32) ∧
    (∃ (p : Port) (blocks : List RxBlock) (s : State), s.clocked ∧ s.dev.online p = true ∧ s.dev.rxValid p = true ∧ s.dev.get (pgLFR p) LFR.SPAN_RXPOS_FRAME < 4095) ∧
    (∃ (p : Port) (blocks : List RxBlock) (s : State), s.clocked ∧ s.dev.online p = true ∧ s.dev.rxValid p = false) ∧
    (∃ (p : Port) (blocks : List RxBlock) (s : State), s.clocked ∧ s.dev.online p = true ∧ s.dev.rxValid p = true ∧ s.dev.commits = [] ∧ s.dev.rxSpan p < 2 ^ 48) ∧
    (∃ (p : Port) (w : Word) (s : State), s.clocked ∧ s.dev.online p = true ∧ s.dev.txRun p = false ∧ s.dev.flag pgPWR PWR.ENTERING = false ∧ s.dev.commits = [] ∧ s.dev.get (pgLFR p) LFR.CTL_RX_EN = LFR.CTL_RX_EN.ofWord w.toNat) ∧
    (∃ (p : Port) (w : Word) (s : State), s.clocked ∧ s.dev.online p = true ∧ s.dev.get (pgLFR p) LFR.CTL_RX_EN = LFR.CTL_RX_EN.ofWord w.toNat) ∧
    (∃ (p : Port) (tx : TxFrame) (s : State), s.clocked ∧ s.dev.online p = true ∧ s.dev.txRun p = true ∧ s.dev.get (pgLFR p) LFR.CTL_TX_EN = 0 ∧ s.dev.get (pgLFR p) LFR.SET_WAIT = 0 ∧ s.dev.commits = [] ∧ s.dev.txSpan p < 2 ^ 48) ∧
    (∃ (p : Port) (w : Word) (s : State), s.clocked ∧ s.dev.online p = true ∧ s.dev.txRun p = false ∧ s.dev.getLH (pgLFR p) LFR.SPAN_SET_LO_VALUE LFR.SPAN_SET_HI_VALUE < 2 ^ 48 ∧ s.dev.get (pgLFR p) LFR.SPAN_SET_LO_VALUE < 2 ^ 32) ∧
    (∃ (p : Port) (w : Word) (s : State), s.clocked ∧ s.dev.online p = true ∧ s.dev.txRun p = true) ∧
    (∃ (p : Port) (w : Word) (s : State), s.clocked ∧ s.dev.online p = true ∧ s.dev.txRun p = false ∧ w.getLsbD 0 = false ∧ s.dev.rxValid p = true ∧ s.dev.rxSpan p < 2 ^ 48) ∧
    (∃ (p : Port) (w : Word) (s : State), s.clocked ∧ s.dev.online p = true ∧ s.dev.txRun p = true ∧ w.getLsbD 0 = false ∧ s.dev.rxValid p = true) ∧
    (∃ (p : Port) (span : BitVec 48) (hdrSpan : BitVec 16) (hdrFrame : BitVec 12) (s : State), s.clocked ∧ s.dev.online p = true ∧ s.dev.aligned p 0 = true ∧ s.dev.rxValid p = false ∧ span.toNat % 2 ^ 16 = hdrSpan.toNat ∧ s.dev.commits = []) ∧
    (∃ (p : Port) (span : BitVec 48) (hdrSpan : BitVec 16) (hdrFrame : BitVec 12) (s : State), s.clocked ∧ span.toNat % 2 ^ 16 ≠ hdrSpan.toNat) :=
  ⟨⟨1, ⟨[], [], []⟩, st (mk [(pgLDSYS 1, LDSYS.STATUS_READY, 1), (pgLFR 1, LFR.SPAN_TXPOS_RUN, 1), (pgLFR 1, LFR.CTL_TX_EN, 1), (pgLFR 1, LFR.SPAN_TXPOS_FRAME, 4094)]), by decide +kernel⟩,
   ⟨1, ⟨[], [], []⟩, st (mk [(pgLDSYS 1, LDSYS.STATUS_READY, 1), (pgLFR 1, LFR.SPAN_TXPOS_RUN, 1), (pgLFR 1, LFR.CTL_TX_EN, 1), (pgLFR 1, LFR.SPAN_TX_LO_SPAN, 0xFFFFFFFF), (pgLFR 1, LFR.SPAN_TX_HI_SPAN, 0xFFFF)]), by decide +kernel⟩,
   ⟨1, ⟨[], [], []⟩, st { (mk [(pgLDSYS 1, LDSYS.STATUS_READY, 1), (pgLFR 1, LFR.SPAN_TXPOS_RUN, 1), (pgLFR 1, LFR.CTL_TX_EN, 1), (pgLFR 1, LFR.SET_WAIT, 1), (pgLFR 1, LFR.SPAN_SET_LO_VALUE, 7)]) with commits := [(pgMAP 0, ⟨5, 1, false, false, false, false, 0⟩)] }, by decide +kernel⟩,
   ⟨1, [], st (mk [(pgLDSYS 1, LDSYS.STATUS_READY, 1), (pgLFR 1, LFR.SPAN_RXPOS_VALID, 1), (pgLFR 1, LFR.SPAN_RXPOS_FRAME, 4094)]), by decide +kernel⟩,
   ⟨1, [], st (mk [(pgLDSYS 1, LDSYS.STATUS_READY, 1), (pgLFR 1, LFR.SPAN_RXPOS_FRAME, 4094)]), by decide +kernel⟩,
   ⟨1, [], st (mk [(pgLDSYS 1, LDSYS.STATUS_READY, 1), (pgLFR 1, LFR.SPAN_RXPOS_VALID, 1), (pgLFR 1, LFR.SPAN_RX_LO_SPAN, 0xFFFFFFFF), (pgLFR 1, LFR.SPAN_RX_HI_SPAN, 0xFFFF)]), by decide +kernel⟩,
   ⟨1, 1, st (mk [(pgLDSYS 1, LDSYS.STATUS_READY, 1)]), by decide +kernel⟩,
   ⟨1, 5, st (mk [(pgLDSYS 1, LDSYS.STATUS_READY, 1), (pgLFR 1, LFR.CTL_TX_EN, 1), (pgLFR 1, LFR.SPAN_TXPOS_RUN, 1)]), by decide +kernel⟩,
   ⟨1, ⟨[], [], []⟩, st (mk [(pgLDSYS 1, LDSYS.STATUS_READY, 1), (pgLFR 1, LFR.SPAN_TXPOS_RUN, 1), (pgLFR 1, LFR.SPAN_TXPOS_FRAME, 4095)]), by decide +kernel⟩,
   ⟨1, 1, st { (mk [(pgLDSYS 1, LDSYS.STATUS_READY, 1), (pgLFR 1, LFR.SPAN_SET_LO_VALUE, 7)]) with commits := [(pgMAP 0, ⟨5, 1, false, false, false, false, 0⟩)] }, by decide +kernel⟩,
   ⟨1, 1, st (mk [(pgLDSYS 1, LDSYS.STATUS_READY, 1), (pgLFR 1, LFR.SPAN_TXPOS_RUN, 1)]), by decide +kernel⟩,
   ⟨1, 2, st (mk [(pgLDSYS 1, LDSYS.STATUS_READY, 1), (pgLFR 1, LFR.SPAN_RXPOS_VALID, 1), (pgLFR 1, LFR.SPAN_RX_LO_SPAN, 0xFFFFFFFF)]), by decide +kernel⟩,
   ⟨1, 2, st (mk [(pgLDSYS 1, LDSYS.STATUS_READY, 1), (pgLFR 1, LFR.SPAN_RXPOS_VALID, 1), (pgLFR 1, LFR.SPAN_TXPOS_RUN, 1)]), by decide +kernel⟩,
   ⟨1, 0xFFFFFFFF0001, 1, 4095, st (mk [(pgLDSYS 1, LDSYS.STATUS_READY, 1), (pgLFR 1, LFR.ALIGN_STATE.at 0, 5)]), by decide +kernel⟩,
   ⟨1, 0xFFFFFFFF0001, 2, 4095, st (mk [(pgLDSYS 1, LDSYS.STATUS_READY, 1), (pgLFR 1, LFR.ALIGN_STATE.at 0, 5)]), by decide +kernel⟩⟩

/-- The premises of Alignment can be met, clause by clause. -/
theorem wit_Alignment :
    (∃ (p : Port) (corr : BitVec 9) (hdr : Option LineHdr) (soh : BitVec 64) (s : State), s.clocked ∧ s.dev.online p = true ∧ s.dev.get (pgLFR p) (LFR.ALIGN_STATE.at 0) = 1 ∧ s.dev.get (pgLFR p) LFR.CTL_SYNC_THR ≤ corr.toNat) ∧
    (∃ (p : Port) (corr : BitVec 9) (hdr : Option LineHdr) (soh : BitVec 64) (s : State), s.clocked ∧ s.dev.online p = true ∧ s.dev.get (pgLFR p) (LFR.ALIGN_STATE.at 0) = 3 ∧ s.dev.get (pgLFR p) LFR.CTL_SYNC_THR ≤ corr.toNat) ∧
    (∃ (p : Port) (corr : BitVec 9) (hdr : Option LineHdr) (soh : BitVec 64) (s : State), s.clocked ∧ s.dev.online p = true ∧ s.dev.get (pgLFR p) (LFR.ALIGN_STATE.at 0) = 3 ∧ corr.toNat < s.dev.get (pgLFR p) LFR.CTL_SYNC_THR) ∧
    (∃ (p : Port) (corr : BitVec 9) (hdr : Option LineHdr) (soh : BitVec 64) (s : State), s.clocked ∧ s.dev.online p = true ∧ s.dev.get (pgLFR p) (LFR.ALIGN_STATE.at 0) = 5 ∧ corr.toNat < s.dev.get (pgLFR p) LFR.CTL_SYNC_THR ∧ s.dev.get (pgLFR p) (LFR.ALIGN_MISSES.at 0) = 2) ∧
    (∃ (p : Port) (x : Fin 7) (corr : BitVec 9) (h : LineHdr) (soh : BitVec 64) (s : State), s.clocked ∧ s.dev.online p = true ∧ s.dev.flag (pgLFR p) LFR.ANCHORED = true ∧ s.dev.get (pgLFR p) (LFR.ALIGN_STATE.at (x.val + 1)) = 1 ∧ s.dev.get (pgLFR p) LFR.CTL_CORR_THR ≤ corr.toNat ∧ h.sc.toNat = x.val + 1) ∧
    (∃ (p : Port) (x : Fin 7) (corr : BitVec 9) (h : LineHdr) (soh : BitVec 64) (s : State), s.clocked ∧ s.dev.online p = true ∧ s.dev.flag (pgLFR p) LFR.ANCHORED = true ∧ s.dev.get (pgLFR p) (LFR.ALIGN_STATE.at (x.val + 1)) = 4 ∧ s.dev.hdrFits p (x.val + 1) false h = true) ∧
    (∃ (p : Port) (x : Fin 7) (corr : BitVec 9) (soh : BitVec 64) (s : State), s.clocked ∧ s.dev.online p = true ∧ s.dev.flag (pgLFR p) LFR.ANCHORED = true ∧ s.dev.get (pgLFR p) (LFR.ALIGN_STATE.at (x.val + 1)) = 5 ∧ s.dev.get (pgLFR p) (LFR.ALIGN_MISSES.at (x.val + 1)) = 4) ∧
    (∃ (p : Port) (corr : BitVec 9) (hdr : Option LineHdr) (soh : BitVec 64) (s : State), s.clocked ∧ s.dev.online p = true ∧ s.dev.get (pgLFR p) (LFR.ALIGN_STATE.at 0) = 1 ∧ corr.toNat < s.dev.get (pgLFR p) LFR.CTL_SYNC_THR) ∧
    (∃ (p : Port) (corr : BitVec 9) (h : LineHdr) (soh : BitVec 64) (s : State), s.clocked ∧ s.dev.online p = true ∧ s.dev.get (pgLFR p) (LFR.ALIGN_STATE.at 0) = 5 ∧ s.dev.get (pgLFR p) LFR.CTL_SYNC_THR ≤ corr.toNat ∧ s.dev.rxValid p = false ∧ s.dev.get (pgLFR p) LFR.CTL_SOH_VOTE = 0) ∧
    (∃ (p : Port) (x : Fin 7) (corr : BitVec 9) (hdr : Option LineHdr) (soh : BitVec 64) (s : State), s.clocked ∧ s.dev.online p = true ∧ s.dev.flag (pgLFR p) LFR.ANCHORED = true ∧ s.dev.get (pgLFR p) (LFR.ALIGN_STATE.at (x.val + 1)) = 1 ∧ corr.toNat < s.dev.get (pgLFR p) LFR.CTL_CORR_THR) ∧
    (∃ (p : Port) (x : Fin 7) (corr : BitVec 9) (h : LineHdr) (soh : BitVec 64) (s : State), s.clocked ∧ s.dev.online p = true ∧ s.dev.flag (pgLFR p) LFR.ANCHORED = true ∧ s.dev.get (pgLFR p) (LFR.ALIGN_STATE.at (x.val + 1)) = 1 ∧ s.dev.get (pgLFR p) LFR.CTL_CORR_THR ≤ corr.toNat ∧ h.sc.toNat ≠ x.val + 1) ∧
    (∃ (p : Port) (x : Fin 7) (corr : BitVec 9) (h : LineHdr) (soh : BitVec 64) (s : State), s.clocked ∧ s.dev.online p = true ∧ s.dev.flag (pgLFR p) LFR.ANCHORED = true ∧ s.dev.get (pgLFR p) (LFR.ALIGN_STATE.at (x.val + 1)) = 3 ∧ s.dev.hdrFits p (x.val + 1) false h = true) ∧
    (∃ (p : Port) (x : Fin 7) (corr : BitVec 9) (h : LineHdr) (soh : BitVec 64) (s : State), s.clocked ∧ s.dev.online p = true ∧ s.dev.flag (pgLFR p) LFR.ANCHORED = true ∧ (s.dev.get (pgLFR p) (LFR.ALIGN_STATE.at (x.val + 1)) = 3 ∨ s.dev.get (pgLFR p) (LFR.ALIGN_STATE.at (x.val + 1)) = 4) ∧ s.dev.hdrFits p (x.val + 1) false h = false) ∧
    (∃ (p : Port) (x : Fin 7) (corr : BitVec 9) (h : LineHdr) (soh : BitVec 64) (s : State), s.clocked ∧ s.dev.online p = true ∧ s.dev.flag (pgLFR p) LFR.ANCHORED = true ∧ s.dev.get (pgLFR p) (LFR.ALIGN_STATE.at (x.val + 1)) = 5 ∧ s.dev.hdrFits p (x.val + 1) false h = true ∧ s.dev.get (pgLFR p) LFR.CTL_SOH_VOTE = 0) :=
  ⟨⟨1, 176, none, 5, st (mk [(pgLDSYS 1, LDSYS.STATUS_READY, 1), (pgLFR 1, LFR.ALIGN_STATE.at 0, 1)]), by decide +kernel⟩,
   ⟨1, 176, none, 5, st (mk [(pgLDSYS 1, LDSYS.STATUS_READY, 1), (pgLFR 1, LFR.ALIGN_STATE.at 0, 3)]), by decide +kernel⟩,
   ⟨1, 175, none, 5, st (mk [(pgLDSYS 1, LDSYS.STATUS_READY, 1), (pgLFR 1, LFR.ALIGN_STATE.at 0, 3)]), by decide +kernel⟩,
   ⟨1, 175, none, 5, st (mk [(pgLDSYS 1, LDSYS.STATUS_READY, 1), (pgLFR 1, LFR.ALIGN_STATE.at 0, 5), (pgLFR 1, LFR.ALIGN_MISSES.at 0, 2), (pgLFR 1, LFR.SPAN_RXPOS_VALID, 1)]), by decide +kernel⟩,
   ⟨1, 6, 160, ⟨4095, 5, 7, 2⟩, 5, st (mk [(pgLDSYS 1, LDSYS.STATUS_READY, 1), (pgLFR 1, LFR.ANCHORED, 1), (pgLFR 1, LFR.ALIGN_STATE.at 7, 1)]), by decide +kernel⟩,
   ⟨1, 6, 0, ⟨0, 5, 7, 2⟩, 5, st (mk [(pgLDSYS 1, LDSYS.STATUS_READY, 1), (pgLFR 1, LFR.ANCHORED, 1), (pgLFR 1, LFR.ALIGN_STATE.at 7, 4), (pgLFR 1, LFR.ALIGN_FRAME.at 7, 4095)]), by decide +kernel⟩,
   ⟨1, 6, 0, 5, st (mk [(pgLDSYS 1, LDSYS.STATUS_READY, 1), (pgLFR 1, LFR.ANCHORED, 1), (pgLFR 1, LFR.ALIGN_STATE.at 7, 5), (pgLFR 1, LFR.ALIGN_MISSES.at 7, 4)]), by decide +kernel⟩,
   ⟨1, 175, none, 5, st (mk [(pgLDSYS 1, LDSYS.STATUS_READY, 1), (pgLFR 1, LFR.ALIGN_STATE.at 0, 1)]), by decide +kernel⟩,
   ⟨1, 176, ⟨4095, 5, 7, 2⟩, 5, st (mk [(pgLDSYS 1, LDSYS.STATUS_READY, 1), (pgLFR 1, LFR.CTL_SOH_VOTE, 0), (pgLFR 1, LFR.ALIGN_STATE.at 0, 5), (pgLFR 1, LFR.ALIGN_MISSES.at 0, 2)]), by decide +kernel⟩,
   ⟨1, 6, 1, none, 5, st (mk [(pgLDSYS 1, LDSYS.STATUS_READY, 1), (pgLFR 1, LFR.ANCHORED, 1), (pgLFR 1, LFR.ALIGN_STATE.at 7, 1)]), by decide +kernel⟩,
   ⟨1, 6, 160, ⟨4095, 5, 6, 2⟩, 5, st (mk [(pgLDSYS 1, LDSYS.STATUS_READY, 1), (pgLFR 1, LFR.ANCHORED, 1), (pgLFR 1, LFR.ALIGN_STATE.at 7, 1)]), by decide +kernel⟩,
   ⟨1, 6, 0, ⟨0, 5, 7, 2⟩, 5, st (mk [(pgLDSYS 1, LDSYS.STATUS_READY, 1), (pgLFR 1, LFR.ANCHORED, 1), (pgLFR 1, LFR.ALIGN_STATE.at 7, 3), (pgLFR 1, LFR.ALIGN_FRAME.at 7, 4095)]), by decide +kernel⟩,
   ⟨1, 6, 0, ⟨1, 5, 7, 2⟩, 5, st (mk [(pgLDSYS 1, LDSYS.STATUS_READY, 1), (pgLFR 1, LFR.ANCHORED, 1), (pgLFR 1, LFR.ALIGN_STATE.at 7, 4), (pgLFR 1, LFR.ALIGN_FRAME.at 7, 4095)]), by decide +kernel⟩,
   ⟨1, 6, 0, ⟨0, 5, 7, 2⟩, 5, st (mk [(pgLDSYS 1, LDSYS.STATUS_READY, 1), (pgLFR 1, LFR.CTL_SOH_VOTE, 0), (pgLFR 1, LFR.ANCHORED, 1), (pgLFR 1, LFR.ALIGN_STATE.at 7, 5), (pgLFR 1, LFR.ALIGN_FRAME.at 7, 4095)]), by decide +kernel⟩⟩

/-- The premises of Commits can be met, clause by clause. -/
theorem wit_Commits :
    (∃ (p : Port) (off : BitVec 22) (w : Word) (nearTx nearRx : Bool) (s : State), s.clocked ∧ s.dev.online p = true ∧ off.toNat = pgTXS p * 4096 + 0x104 ∧ AMap.find? s.dev.commits (pgTXS p) = none) ∧
    (∃ (p : Port) (off : BitVec 22) (w : Word) (nearTx nearRx : Bool) (c : Commit) (s : State), s.clocked ∧ s.dev.online p = true ∧ off.toNat = pgTXS p * 4096 + 0x104 ∧ AMap.find? s.dev.commits (pgTXS p) = some c ∧ c.tx = true) ∧
    (∃ (pg : BitVec 10) (lo hi : Word) (nearTx nearRx : Bool) (p : Port) (t : Nat) (s : State), s.clocked ∧ staged pg.toNat = true ∧ pagePort pg.toNat = none ∧ rxOnly pg.toNat = false ∧ p = (if hi.getLsbD 16 then 1 else 0) ∧ t = lo.toNat + 2 ^ 32 * (hi.toNat % 2 ^ 16) ∧ s.dev.armRefusal pg.toNat p t nearTx nearRx = 0) ∧
    (∃ (pg : BitVec 10) (lo hi : Word) (nearTx nearRx : Bool) (p : Port) (t r : Nat) (s : State), s.clocked ∧ staged pg.toNat = true ∧ pagePort pg.toNat = none ∧ p = (if hi.getLsbD 16 then 1 else 0) ∧ t = lo.toNat + 2 ^ 32 * (hi.toNat % 2 ^ 16) ∧ r = s.dev.armRefusal pg.toNat p t nearTx nearRx ∧ r ≠ 0) ∧
    (∃ (pg : BitVec 10) (lo hi : Word) (nearTx nearRx : Bool) (p : Port) (t : Nat) (s : State), s.clocked ∧ staged pg.toNat = true ∧ pagePort pg.toNat = some p ∧ s.dev.online p = true ∧ s.dev.get pg.toNat COMMON.COMMIT_HI_PORT = p.val ∧ t = lo.toNat + 2 ^ 32 * (hi.toNat % 2 ^ 16) ∧ s.dev.armRefusal pg.toNat p t nearTx nearRx = 0 ∧ (rxOnly pg.toNat = false ∨ 0 < diff48 t (s.dev.txSpan p))) ∧
    (∃ (pg : BitVec 10) (lo hi : Word) (nearTx nearRx : Bool) (p : Port) (t r : Nat) (s : State), s.clocked ∧ staged pg.toNat = true ∧ pagePort pg.toNat = some p ∧ s.dev.online p = true ∧ s.dev.get pg.toNat COMMON.COMMIT_HI_PORT = p.val ∧ t = lo.toNat + 2 ^ 32 * (hi.toNat % 2 ^ 16) ∧ r = s.dev.armRefusal pg.toNat p t nearTx nearRx ∧ r ≠ 0) ∧
    (∃ (pg : BitVec 10) (lo hi : Word) (nearTx nearRx : Bool) (s : State), s.clocked ∧ staged pg.toNat = false ∧ pagePort pg.toNat = none) ∧
    (∃ (p : Port) (tx : TxFrame) (t : Nat) (s : State), s.clocked ∧ s.dev.online p = true ∧ s.dev.txRun p = true ∧ s.dev.stopDue p = false ∧ s.dev.get (pgLFR p) LFR.SET_WAIT = 0 ∧ s.dev.txSpan p < 2 ^ 48 ∧ t = (s.dev.txSpan p + 1) % 2 ^ 48 ∧ s.dev.commits = [(pgTXS p, ⟨t, p, false, false, false, false, 0⟩)] ∧ FMap.wf s.dev.pend = true) ∧
    (∃ (p : Port) (tx : TxFrame) (s : State), s.clocked ∧ s.dev.waitEnds p = false) ∧
    (∃ (p : Port) (tx : TxFrame) (t : Nat) (s : State), s.clocked ∧ s.dev.online p = true ∧ s.dev.txRun p = true ∧ s.dev.stopDue p = false ∧ s.dev.get (pgLFR p) LFR.SET_WAIT = 0 ∧ s.dev.get (pgLFR p) LFR.SPAN_CTL_RXWAIT = 1 ∧ s.dev.commits = [(pgFEC p, ⟨t, p, true, false, false, false, 0⟩)] ∧ FMap.wf s.dev.pend = true) :=
  ⟨⟨1, 0x308104, 0x1F, true, true, st (mk [(pgLDSYS 1, LDSYS.STATUS_READY, 1)]), by decide +kernel⟩,
   ⟨1, 0x308104, 0x1F, true, true, ⟨5, 1, true, false, false, false, 0⟩, st { (mk [(pgLDSYS 1, LDSYS.STATUS_READY, 1)]) with commits := [(pgTXS 1, ⟨5, 1, true, false, false, false, 0⟩)] }, by decide +kernel⟩,
   ⟨0x40, 9, 0x80010000, false, false, 1, 9, st (mk [(pgLDSYS 1, LDSYS.STATUS_READY, 1), (pgLFR 1, LFR.SPAN_TXPOS_RUN, 1)]), by decide +kernel⟩,
   ⟨0x40, 1, 0x80010000, true, false, 1, 1, 2, st (mk [(pgLDSYS 1, LDSYS.STATUS_READY, 1), (pgLFR 1, LFR.SPAN_TXPOS_RUN, 1)]), by decide +kernel⟩,
   ⟨0x303, 9, 0x80010000, false, false, 1, 9, st (mk [(pgLDSYS 1, LDSYS.STATUS_READY, 1), (pgLFR 1, LFR.SPAN_TXPOS_RUN, 1)]), by decide +kernel⟩,
   ⟨0x303, 1, 0x80010000, true, false, 1, 1, 2, st (mk [(pgLDSYS 1, LDSYS.STATUS_READY, 1), (pgLFR 1, LFR.SPAN_TXPOS_RUN, 1)]), by decide +kernel⟩,
   ⟨0, 9, 0x80010000, false, false, st (mk []), by decide +kernel⟩,
   ⟨1, ⟨[], [], []⟩, 1, st { (mk [(pgLDSYS 1, LDSYS.STATUS_READY, 1), (pgLFR 1, LFR.SPAN_TXPOS_RUN, 1), (pgLFR 1, LFR.CTL_TX_EN, 1)]) with commits := [(pgTXS 1, ⟨1, 1, false, false, false, false, 0⟩)] }, by decide +kernel⟩,
   ⟨1, ⟨[], [], []⟩, st (mk []), by decide +kernel⟩,
   ⟨1, ⟨[], [], []⟩, 5, st { (mk [(pgLDSYS 1, LDSYS.STATUS_READY, 1), (pgLFR 1, LFR.SPAN_TXPOS_RUN, 1), (pgLFR 1, LFR.CTL_TX_EN, 1), (pgLFR 1, LFR.SPAN_CTL_RXWAIT, 1)]) with commits := [(pgFEC 1, ⟨5, 1, true, false, false, false, 0⟩)] }, by decide +kernel⟩⟩

/-- The premises of ChangeNoticeAnswered can be met, clause by clause. -/
theorem wit_ChangeNoticeAnswered :
    (∃ (p : Port) (seq : BitVec 8) (target : BitVec 48) (s : State), s.clocked ∧ s.dev.get (pgSCC p) SCC.CN_STAT_STATE = 1 ∧ s.dev.get (pgSCC p) SCC.CN_STAT_SEQ = seq.toNat ∧ (s.dev.scc.get p).cnTarget = target.toNat) ∧
    (∃ (p : Port) (seq : BitVec 8) (target : BitVec 48) (reason : BitVec 8) (s : State), s.clocked ∧ s.dev.get (pgSCC p) SCC.CN_STAT_STATE = 1 ∧ s.dev.get (pgSCC p) SCC.CN_STAT_SEQ = seq.toNat ∧ (s.dev.scc.get p).cnTarget = target.toNat) ∧
    (∃ (p : Port) (s : State), s.clocked ∧ s.dev.get (pgSCC p) SCC.CN_STAT_STATE = 1 ∧ (s.dev.scc.get p).cnSends = 16) ∧
    (∃ (p : Port) (s : State), s.clocked ∧ s.dev.get (pgSCC p) SCC.CN_RX_INFO_PENDING = 1 ∧ diff48 (s.dev.getLH (pgSCC p) SCC.CN_RX_TARGET_LO_TARGET SCC.CN_RX_TARGET_HI_TARGET) (s.dev.txSpan p) ≤ 8) :=
  ⟨⟨0, 0, 0, st (mk [(pgSCC 0, SCC.CN_STAT_STATE, 1)]), by decide +kernel⟩,
   ⟨1, 0, 0, 2, st (mk [(pgSCC 1, SCC.CN_STAT_STATE, 1)]), by decide +kernel⟩,
   ⟨0, st ((mk [(pgSCC 0, SCC.CN_STAT_STATE, 1)]).sccUpd 0 fun x => { x with cnSends := 16 }), by decide +kernel⟩,
   ⟨0, st (mk [(pgSCC 0, SCC.CN_RX_INFO_PENDING, 1)]), by decide +kernel⟩⟩

/-- The premises of ChangeNoticeSent can be met, clause by clause. -/
theorem wit_ChangeNoticeSent :
    (∃ (p : Port) (w : Word) (s : State), s.clocked ∧ w.getLsbD 9 = false ∧ w.getLsbD 10 = false ∧ s.dev.get (pgSCC p) SCC.CN_STAT_STATE ≠ 1 ∧ 16 ≤ diff48 (s.dev.cnTarget p) (s.dev.txSpan p)) ∧
    (∃ (p : Port) (s : State), s.clocked ∧ s.dev.get (pgSCC p) SCC.CN_STAT_STATE = 1 ∧ (s.dev.scc.get p).cnSends < 16 ∧ s.dev.get (pgSCC p) SCC.CN_FRAMES = 4096) ∧
    (∃ (p : Port) (s : State), s.clocked ∧ s.dev.get (pgSCC p) SCC.CN_FRAMES < 4096) ∧
    (∃ (p : Port) (w : Word) (s : State), s.clocked ∧ w.getLsbD 8 = false ∧ w.getLsbD 10 = false ∧ s.dev.get (pgSCC p) SCC.CN_RX_INFO_PENDING = 1) ∧
    (∃ (p : Port) (w : Word) (s : State), s.clocked ∧ w.getLsbD 8 = false ∧ s.dev.get (pgSCC p) SCC.CN_RX_INFO_PENDING = 1) ∧
    (∃ (p : Port) (seq : BitVec 8) (target : BitVec 48) (cls : BitVec 3) (tag : Word) (s : State), s.clocked ∧ AMap.find? (s.dev.scc.get p).answered seq.toNat = none ∧ s.dev.get (pgSCC p) SCC.CN_RX_INFO_PENDING = 0 ∧ s.dev.get (pgSCC p) SCC.CN_STAT_STATE ≠ 1 ∧ s.dev.rxValid p = false ∧ bitOf (s.dev.get (pgSCC p) SCC.CN_CTL_AUTO) cls.toNat = false ∧ 8 ≤ diff48 target.toNat (s.dev.txSpan p) ∧ diff48 target.toNat (s.dev.txSpan p) ≤ 2 ^ 24) :=
  ⟨⟨0, 0, st (mk [(pgSCC 0, SCC.CN_TARGET_LO_TARGET, 16)]), by decide +kernel⟩,
   ⟨0, st (mk [(pgSCC 0, SCC.CN_STAT_STATE, 1), (pgSCC 0, SCC.CN_FRAMES, 4096)]), by decide +kernel⟩,
   ⟨0, st (mk [(pgSCC 0, SCC.CN_STAT_STATE, 1), (pgSCC 0, SCC.CN_FRAMES, 4095)]), by decide +kernel⟩,
   ⟨0, 0x200, st (mk [(pgSCC 0, SCC.CN_RX_INFO_PENDING, 1)]), by decide +kernel⟩,
   ⟨0, 0x400, st (mk [(pgSCC 0, SCC.CN_RX_INFO_PENDING, 1)]), by decide +kernel⟩,
   ⟨0, 1, 8, 0, 7, st Dev.reset, by decide +kernel⟩⟩

/-- The premises of ControlChannelHost can be met, clause by clause. -/
theorem wit_ControlChannelHost :
    (∃ (p : Port) (w : Word) (s : State), s.clocked ∧ s.dev.get (pgSCC p) SCC.STAT_TX_BUSY = 0 ∧ 0 < SCC.TX_CTL_LEN.ofWord w.toNat ∧ SCC.TX_CTL_LEN.ofWord w.toNat ≤ 512) ∧
    (∃ (p : Port) (s : State), s.clocked ∧ s.dev.get (pgSCC p) SCC.STAT_TX_BUSY = 1 ∧ (s.dev.scc.get p).tx2.any (·.entry == 0) = false) ∧
    (∃ (p : Port) (s : State), s.clocked) ∧
    (∃ (p : Port) (cell : List (BitVec 8)) (s : State), s.clocked ∧ crc16 ((cell.map (·.toNat)).take 18) ≠ beVal ((cell.map (·.toNat)).drop 18) ∧ (s.dev.scc.get p).bad < 7) ∧
    (∃ (p : Port) (cell : List (BitVec 8)) (s : State), s.clocked ∧ crc16 ((cell.map (·.toNat)).take 18) = beVal ((cell.map (·.toNat)).drop 18) ∧ (cell.map (·.toNat)).getD 1 0 = 0) :=
  ⟨⟨0, 3, st Dev.reset, by decide +kernel⟩,
   ⟨1, st (mk [(pgSCC 1, SCC.STAT_TX_BUSY, 1)]), by decide +kernel⟩,
   ⟨0, st Dev.reset, by decide +kernel⟩,
   ⟨0, List.replicate 20 1, st Dev.reset, by decide +kernel⟩,
   ⟨0, List.replicate 18 0 ++ (beBytes 2 (crc16 (List.replicate 18 0))).map (BitVec.ofNat 8), st Dev.reset, by decide +kernel⟩⟩

/-- The premises of ConverterSampling can be met, clause by clause. -/
theorem wit_ConverterSampling :
    (∃ (p : Port) (lane : Fin 4) (pos : Fin 160) (s : State), s.clocked ∧ s.dev.online p = true ∧ bitOf (s.dev.get (pgADC p) ADC.STATUS_RUN) lane = true) ∧
    (∃ (p : Port) (w : Word) (nearTx nearRx : Bool) (s : State), s.clocked ∧ s.dev.online p = true) ∧
    (∃ (p : Port) (w : Word) (x : Capture) (s : State), s.clocked ∧ s.dev.online p = true ∧ w.getLsbD 1 = false ∧ s.dev.get (pgADC p) ADC.CAP_STAT_STATE ≠ 1 ∧ s.dev.get (pgADC p) ADC.CAP_STAT_STATE ≠ 2 ∧ (ADC.CAP_CTL_TRIG.ofWord w.toNat = 1 ∨ ADC.CAP_CTL_TRIG.ofWord w.toNat = 2)) ∧
    (∃ (p : Port) (w : Word) (x : Capture) (s : State), s.clocked ∧ s.dev.online p = true ∧ w.getLsbD 1 = false ∧ s.dev.get (pgADC p) ADC.CAP_STAT_STATE ≠ 1 ∧ s.dev.get (pgADC p) ADC.CAP_STAT_STATE ≠ 2 ∧ (ADC.CAP_CTL_TRIG.ofWord w.toNat = 0 ∨ ADC.CAP_CTL_TRIG.ofWord w.toNat = 3)) ∧
    (∃ (p : Port) (w : Word) (x : Capture) (s : State), s.clocked ∧ s.dev.online p = true ∧ w.getLsbD 1 = false ∧ (s.dev.get (pgADC p) ADC.CAP_STAT_STATE = 1 ∨ s.dev.get (pgADC p) ADC.CAP_STAT_STATE = 2)) ∧
    (∃ (p : Port) (w : Word) (x : Capture) (s : State), s.clocked ∧ s.dev.online p = true) ∧
    (∃ (p : Port) (x : Capture) (s : State), s.clocked ∧ s.dev.online p = true ∧ s.dev.get (pgADC p) ADC.CAP_STAT_STATE = 2) ∧
    (∃ (p : Port) (phase : Fin 160) (l : Fin 4) (n : BitVec 16) (v : BitVec 16) (s : State), s.clocked ∧ s.dev.online p = true ∧ s.dev.get (pgADC p) ADC.CAP_STAT_STATE = 2 ∧ s.dev.get (pgADC p) ADC.CAP_CTL_POST = 0) ∧
    (∃ (p : Port) (phase : Fin 160) (l : Fin 4) (n : BitVec 16) (v : BitVec 16) (s : State), s.clocked ∧ s.dev.online p = true ∧ s.dev.get (pgADC p) ADC.CAP_STAT_STATE = 2 ∧ s.dev.get (pgADC p) ADC.CAP_CTL_POST = 1 ∧ 127 < v.toInt.natAbs) ∧
    (∃ (p : Port) (w : Word) (phase : Fin 160) (l : Fin 4) (n : BitVec 16) (v : BitVec 16) (s : State), s.clocked ∧ s.dev.online p = true ∧ s.dev.get (pgADC p) ADC.CAP_STAT_STATE = 2 ∧ s.dev.get (pgADC p) ADC.CAP_CTL_POST = 0) :=
  ⟨⟨0, 2, 7, st (mk [(pgLDSYS 0, LDSYS.STATUS_READY, 1), (pgADC 0, ADC.STATUS_RUN, 15)]), by decide +kernel⟩,
   ⟨1, 0x0F, false, true, st (mk [(pgLDSYS 1, LDSYS.STATUS_READY, 1)]), by decide +kernel⟩,
   ⟨0, BitVec.ofNat 32 (2 ^ ADC.CAP_CTL_TRIG.lo + 1), ⟨0, [], []⟩, st (mk [(pgLDSYS 0, LDSYS.STATUS_READY, 1)]), by decide +kernel⟩,
   ⟨0, 0, ⟨0, [], []⟩, st (mk [(pgLDSYS 0, LDSYS.STATUS_READY, 1), (pgLFR 0, LFR.SPAN_RXPOS_FRAME, 4095)]), by decide +kernel⟩,
   ⟨0, 1, ⟨0, [], []⟩, st (mk [(pgLDSYS 0, LDSYS.STATUS_READY, 1), (pgADC 0, ADC.CAP_STAT_STATE, 2)]), by decide +kernel⟩,
   ⟨0, 2, ⟨159, [(4, 9)], []⟩, st (mk [(pgLDSYS 0, LDSYS.STATUS_READY, 1), (pgADC 0, ADC.CAP_STAT_STATE, 2)]), by decide +kernel⟩,
   ⟨0, ⟨3, [(4, 9)], []⟩, st (mk [(pgLDSYS 0, LDSYS.STATUS_READY, 1), (pgADC 0, ADC.CAP_STAT_STATE, 2)]), by decide +kernel⟩,
   ⟨0, 3, 3, 65535, -300, st (mk [(pgLDSYS 0, LDSYS.STATUS_READY, 1), (pgADC 0, ADC.CAP_STAT_STATE, 2)]), by decide +kernel⟩,
   ⟨0, 3, 1, 0, -128, st (mk [(pgLDSYS 0, LDSYS.STATUS_READY, 1), (pgADC 0, ADC.CAP_STAT_STATE, 2), (pgADC 0, ADC.CAP_CTL_POST, 1)]), by decide +kernel⟩,
   ⟨0, 2, 3, 1, 4464, 128, st (mk [(pgLDSYS 0, LDSYS.STATUS_READY, 1), (pgADC 0, ADC.CAP_STAT_STATE, 2)]), by decide +kernel⟩⟩

/-- The premises of CalibrationTriggers can be met, clause by clause. -/
theorem wit_CalibrationTriggers :
    (∃ (p : Port) (lane : Fin 4) (temp : BitVec 16) (s : State), s.clocked ∧ s.dev.online p = true ∧ s.dev.get (pgLCAL p) LCAL.CTL_AUTO = 1 ∧ bitOf (s.dev.get (pgLCAL p) LCAL.CTL_TRIG_EN) 0 = true ∧ s.dev.get (pgLCAL p) LCAL.STAT_STATE = 0 ∧ (s.dev.conv.get p).wait = none ∧ s.dev.lcalDt p * 16 < (sOf 16 temp.toNat - sOf 16 (s.dev.get (pgLCAL p) (LCAL.TEMP_LAST.at lane))).natAbs * 10) ∧
    (∃ (p : Port) (power : BitVec 12) (s : State), s.clocked ∧ s.dev.online p = true) ∧
    (∃ (p : Port) (power : BitVec 12) (l : Fin 4) (u : Fin 168) (s : State), s.clocked ∧ s.dev.online p = true ∧ s.dev.get (pgLCAL p) LCAL.CTL_AUTO = 1 ∧ bitOf (s.dev.get (pgLCAL p) LCAL.CTL_TRIG_EN) 1 = true ∧ s.dev.get (pgLCAL p) LCAL.STAT_STATE = 0 ∧ (s.dev.conv.get p).wait = none ∧ ((s.dev.conv.get p).slice (sliceKey l.val u.val)).role ≠ 4 ∧ ((s.dev.conv.get p).slice (sliceKey l.val u.val)).band + 2 ≤ loadBand (s.dev.get (pgLCAL p) LCAL.STAT_LOADBAND) power.toNat) ∧
    (∃ (p : Port) (s : State), s.clocked ∧ s.dev.online p = true ∧ s.dev.get (pgLCAL p) LCAL.CTL_AUTO = 1 ∧ bitOf (s.dev.get (pgLCAL p) LCAL.CTL_TRIG_EN) 3 = true ∧ s.dev.get (pgLCAL p) LCAL.STAT_STATE = 0 ∧ (s.dev.conv.get p).wait = none ∧ s.dev.lcalAge p * 60000 < s.dev.get (pgLCAL p) LCAL.AGE_MS) ∧
    (∃ (p : Port) (w : Word) (s : State), s.clocked ∧ s.dev.online p = true ∧ s.dev.get (pgLCAL p) LCAL.STAT_STATE = 0 ∧ (s.dev.conv.get p).wait = none) ∧
    (∃ (p : Port) (w : Word) (s : State), s.clocked ∧ s.dev.online p = true) :=
  ⟨⟨0, 1, 640, st (mk [(pgLDSYS 0, LDSYS.STATUS_READY, 1)]), by decide +kernel⟩,
   ⟨0, 700, st (mk [(pgLDSYS 0, LDSYS.STATUS_READY, 1)]), by decide +kernel⟩,
   ⟨0, 1900, 3, 167, st (mk [(pgLDSYS 0, LDSYS.STATUS_READY, 1)]), by decide +kernel⟩,
   ⟨0, st (mk [(pgLDSYS 0, LDSYS.STATUS_READY, 1), (pgLCAL 0, LCAL.AGE_MS, 600001)]), by decide +kernel⟩,
   ⟨0, 2, st (mk [(pgLDSYS 0, LDSYS.STATUS_READY, 1)]), by decide +kernel⟩,
   ⟨0, 4, st (mk [(pgLDSYS 0, LDSYS.STATUS_READY, 1)]), by decide +kernel⟩⟩

/-- The premises of CalibrationPass can be met, clause by clause. -/
theorem wit_CalibrationPass :
    (∃ (p : Port) (elig : List (Fin 160)) (cause : Fin 8) (s : State), s.clocked ∧ s.dev.online p = true ∧ s.dev.get (pgLCAL p) LCAL.CTL_HOLD = 0 ∧ s.dev.get (pgLCAL p) LCAL.STAT_STATE = 0 ∧ (s.dev.conv.get p).wait = some (cause.val, true)) ∧
    (∃ (p : Port) (lane : Fin 4) (unit : BitVec 8) (m res : Meas) (sel : Sel) (s : State), s.clocked ∧ s.dev.online p = true ∧ (s.dev.conv.get p).targets.contains (sliceKey lane.val unit.toNat) = true ∧ AMap.find? (s.dev.conv.get p).meas (sliceKey lane.val unit.toNat) = none) ∧
    (∃ (p : Port) (lane : Fin 4) (unit : BitVec 8) (m m1 res : Meas) (sel : Sel) (s : State), s.clocked ∧ s.dev.online p = true ∧ (s.dev.conv.get p).targets.contains (sliceKey lane.val unit.toNat) = true ∧ AMap.find? (s.dev.conv.get p).meas (sliceKey lane.val unit.toNat) = some m1 ∧ measAgrees m1 m = true ∧ measInRange res = true ∧ s.dev.get pgCAL CAL.STATUS_VREF_OK = 1) ∧
    (∃ (p : Port) (lane : Fin 4) (unit : BitVec 8) (m res : Meas) (sel : Sel) (s : State), s.clocked ∧ s.dev.online p = true ∧ s.dev.dacUnder p lane = true ∧ (s.dev.conv.get p).dacNext.getD lane.val 16 = unit.toNat ∧ AMap.find? (s.dev.conv.get p).dacMeas lane.val = none) ∧
    (∃ (p : Port) (lane : Fin 4) (unit : BitVec 8) (m m1 res : Meas) (sel : Sel) (s : State), s.clocked ∧ s.dev.online p = true ∧ s.dev.dacUnder p lane = true ∧ (s.dev.conv.get p).dacNext.getD lane.val 16 = unit.toNat ∧ AMap.find? (s.dev.conv.get p).dacMeas lane.val = some m1 ∧ measAgrees m1 m = true ∧ measInRange res = true ∧ s.dev.get pgCAL CAL.STATUS_VREF_OK = 1 ∧ (s.dev.conv.get p).dacNext.length = 4) ∧
    (∃ (p : Port) (elig : List (Fin 160)) (k : Nat) (t : TrimSet) (s : State), s.clocked ∧ s.dev.online p = true ∧ (s.dev.get (pgLCAL p) LCAL.STAT_STATE = 1 ∨ s.dev.get (pgLCAL p) LCAL.STAT_STATE = 2) ∧ (s.dev.conv.get p).targets = [] ∧ (s.dev.conv.get p).todo = [] ∧ (s.dev.conv.get p).prio = 0 ∧ (s.dev.conv.get p).news = [(k, t)]) ∧
    (∃ (p : Port) (elig : List (Fin 160)) (s : State), s.clocked ∧ s.dev.online p = true ∧ (s.dev.get (pgLCAL p) LCAL.STAT_STATE = 1 ∨ s.dev.get (pgLCAL p) LCAL.STAT_STATE = 2) ∧ (s.dev.conv.get p).targets = [] ∧ (s.dev.conv.get p).todo = [] ∧ (s.dev.conv.get p).prio = 0) ∧
    (∃ (p : Port) (s : State), s.clocked ∧ s.dev.online p = true ∧ s.dev.get (pgLCAL p) LCAL.STAT_STATE = 2) :=
  ⟨⟨0, [], 3, st ((mk [(pgLDSYS 0, LDSYS.STATUS_READY, 1)]).convUpd 0 fun c => { c with wait := some (3, true) }), by decide +kernel⟩,
   ⟨0, 1, 5, ⟨1, 2, 3⟩, ⟨0, 0, 0⟩, ⟨[], [], 0⟩, st ((mk [(pgLDSYS 0, LDSYS.STATUS_READY, 1)]).convUpd 0 fun c => { c with targets := [261] }), by decide +kernel⟩,
   ⟨0, 1, 5, ⟨1, 2, 3⟩, ⟨1, 2, 3⟩, ⟨1, 1, 1⟩, ⟨[2], [5], 0⟩, st ((mk [(pgLDSYS 0, LDSYS.STATUS_READY, 1), (pgCAL, CAL.STATUS_VREF_OK, 1)]).convUpd 0 fun c => { c with targets := [261], meas := [(261, ⟨1, 2, 3⟩)] }), by decide +kernel⟩,
   ⟨0, 1, 5, ⟨1, 2, 3⟩, ⟨0, 0, 0⟩, ⟨[], [], 0⟩, st ((mk [(pgLDSYS 0, LDSYS.STATUS_READY, 1), (pgLFR 0, LFR.SPAN_TXPOS_RUN, 1), (pgDAC 0, DAC.LANE_CTL_EN, 15), (pgDAC 0, DAC.MUTE_LIVE, 0), (pgLCAL 0, LCAL.STAT_STATE, 2)]).convUpd 0 fun c => { c with dacNext := [5, 5, 5, 5] }), by decide +kernel⟩,
   ⟨0, 1, 5, ⟨1, 2, 3⟩, ⟨1, 2, 3⟩, ⟨1, 1, 1⟩, ⟨[2], [5], 0⟩, st ((mk [(pgLDSYS 0, LDSYS.STATUS_READY, 1), (pgLFR 0, LFR.SPAN_TXPOS_RUN, 1), (pgDAC 0, DAC.LANE_CTL_EN, 15), (pgDAC 0, DAC.MUTE_LIVE, 0), (pgLCAL 0, LCAL.STAT_STATE, 2), (pgCAL, CAL.STATUS_VREF_OK, 1)]).convUpd 0 fun c => { c with dacNext := [5, 5, 5, 5], dacMeas := [(1, ⟨1, 2, 3⟩)] }), by decide +kernel⟩,
   ⟨0, [], 261, ⟨⟨1, 2, 3⟩, ⟨[1], [2], 0⟩, 1, 30, false⟩, st ((mk [(pgLDSYS 0, LDSYS.STATUS_READY, 1), (pgLCAL 0, LCAL.STAT_STATE, 1)]).convUpd 0 fun c => { c with news := [(261, ⟨⟨1, 2, 3⟩, ⟨[1], [2], 0⟩, 1, 30, false⟩)] }), by decide +kernel⟩,
   ⟨0, [], st (mk [(pgLDSYS 0, LDSYS.STATUS_READY, 1), (pgLCAL 0, LCAL.STAT_STATE, 1)]), by decide +kernel⟩,
   ⟨0, st (mk [(pgLDSYS 0, LDSYS.STATUS_READY, 1), (pgLCAL 0, LCAL.STAT_STATE, 2)]), by decide +kernel⟩⟩

/-- The premises of DispersionSearch can be met, clause by clause. -/
theorem wit_DispersionSearch :
    (∃ (p : Port) (w : Word) (s : State), s.clocked ∧ s.dev.online p = true ∧ s.dev.adcRuns p = true ∧ s.dev.get (pgCDC p) CDC.STATUS_SEARCH = 0) ∧
    (∃ (p : Port) (r : Search) (b : Int × Nat) (s : State), s.clocked ∧ s.dev.online p = true ∧ (s.dev.eq.get p).srch = some r ∧ r.ahead = [] ∧ r.good = true ∧ bestCand r.fine = some b) ∧
    (∃ (p : Port) (r : Search) (s : State), s.clocked ∧ s.dev.online p = true ∧ s.dev.adcRuns p = true ∧ (s.dev.eq.get p).srch = some r ∧ r.ahead = [] ∧ r.good = false ∧ s.dev.get (pgCDC p) CDC.CTL_MODE = 0 ∧ s.dev.get (pgCDC p) CDC.RUN_NO = 0) ∧
    (∃ (p : Port) (r : Search) (s : State), s.clocked ∧ s.dev.online p = true ∧ s.dev.get (pgCRV p) CRV.STATUS_ACQ = 0 ∧ (s.dev.eq.get p).srch = some r ∧ r.ahead = [] ∧ r.good = false ∧ s.dev.get (pgCDC p) CDC.RUN_NO = 1) ∧
    (∃ (p : Port) (fine cdEst : Int) (tones : List (Bool × Nat)) (trail : List Int) (r : Search) (c : Int) (rest : List Int) (s : State), s.clocked ∧ s.dev.online p = true ∧ s.dev.adcRuns p = true ∧ s.dev.get (pgCDC p) CDC.STATUS_LOCK = 0 ∧ (s.dev.eq.get p).srch = some r ∧ r.ahead = c :: rest ∧ r.blocks < r.nblk) ∧
    (∃ (p : Port) (fine cdEst : Int) (tones : List (Bool × Nat)) (trail : List Int) (r : Search) (c n : Int) (rest : List Int) (s : State), s.clocked ∧ s.dev.online p = true ∧ s.dev.adcRuns p = true ∧ s.dev.get (pgCDC p) CDC.STATUS_LOCK = 0 ∧ (s.dev.eq.get p).srch = some r ∧ r.ahead = c :: n :: rest ∧ r.blocks = r.nblk ∧ 0 < r.nblk ∧ s.dev.get (pgCDC p) CDC.SRCH_STAT_STATE = 1) ∧
    (∃ (p : Port) (s : State), s.clocked ∧ s.dev.online p = true ∧ s.dev.adcRuns p = true ∧ s.dev.get (pgCDC p) CDC.SRCH_STAT_STATE = 3 ∧ s.dev.get (pgCDC p) CDC.CTL_MODE = 0 ∧ s.dev.get (pgCDC p) CDC.STATUS_SEARCH = 0) ∧
    (∃ (p : Port) (s : State), s.clocked ∧ s.dev.online p = true ∧ s.dev.get (pgCDC p) CDC.COEF_BUSY = 1) ∧
    (∃ (p : Port) (fine cdEst : Int) (tones : List (Bool × Nat)) (trail : List Int) (s : State), s.clocked ∧ s.dev.online p = true ∧ s.dev.get (pgCDC p) CDC.COEF_READY = 1 ∧ (s.dev.eq.get p).srch = none ∧ s.dev.get (pgCDC p) CDC.TRACK_EN = 0 ∧ s.dev.get (pgCRV p) CRV.STATUS_FO_LOCK = 0) :=
  ⟨⟨1, 5, st (mk [(pgLDSYS 1, LDSYS.STATUS_READY, 1), (pgADC 1, ADC.STATUS_RUN, 1)]), by decide +kernel⟩,
   ⟨0, ⟨[], 256, 4, 0, 0, [(0, 10), (4096, 20)], [(3, 5), (-300001, 61), (9, 7)]⟩, (-300001, 61), st ((mk [(pgLDSYS 0, LDSYS.STATUS_READY, 1), (pgCDC 0, CDC.STATUS_SEARCH, 1)]).srchUpd 0 (some ⟨[], 256, 4, 0, 0, [(0, 10), (4096, 20)], [(3, 5), (-300001, 61), (9, 7)]⟩)), by decide +kernel⟩,
   ⟨0, ⟨[], 256, 4, 0, 0, [(0, 10), (4096, 20)], [(3, 5), (-300001, 60), (9, 7)]⟩, st ((mk [(pgLDSYS 0, LDSYS.STATUS_READY, 1), (pgCDC 0, CDC.STATUS_SEARCH, 1), (pgADC 0, ADC.STATUS_RUN, 15)]).srchUpd 0 (some ⟨[], 256, 4, 0, 0, [(0, 10), (4096, 20)], [(3, 5), (-300001, 60), (9, 7)]⟩)), by decide +kernel⟩,
   ⟨0, ⟨[], 256, 4, 0, 0, [(0, 10)], [(3, 500), (-300000, 60), (9, 7)]⟩, st ((mk [(pgLDSYS 0, LDSYS.STATUS_READY, 1), (pgCDC 0, CDC.STATUS_SEARCH, 1), (pgCDC 0, CDC.RUN_NO, 1)]).srchUpd 0 (some ⟨[], 256, 4, 0, 0, [(0, 10)], [(3, 500), (-300000, 60), (9, 7)]⟩)), by decide +kernel⟩,
   ⟨0, 3, 4, [(false, 7), (true, 100), (false, 1)], [4, -5], ⟨[16, 32], 256, 4, 1, 0, [], []⟩, 16, [32], st ((mk [(pgLDSYS 0, LDSYS.STATUS_READY, 1), (pgADC 0, ADC.STATUS_RUN, 15)]).srchUpd 0 (some ⟨[16, 32], 256, 4, 1, 0, [], []⟩)), by decide +kernel⟩,
   ⟨0, 3, 4, [(false, 7), (true, 100), (false, 1)], [4, -5], ⟨[16, -32], 256, 4, 4, 5, [], []⟩, 16, -32, [], st ((mk [(pgLDSYS 0, LDSYS.STATUS_READY, 1), (pgADC 0, ADC.STATUS_RUN, 15), (pgCDC 0, CDC.SRCH_STAT_STATE, 1)]).srchUpd 0 (some ⟨[16, -32], 256, 4, 4, 5, [], []⟩)), by decide +kernel⟩,
   ⟨0, st (mk [(pgLDSYS 0, LDSYS.STATUS_READY, 1), (pgCDC 0, CDC.SRCH_STAT_STATE, 3), (pgADC 0, ADC.STATUS_RUN, 15)]), by decide +kernel⟩,
   ⟨0, st (mk [(pgLDSYS 0, LDSYS.STATUS_READY, 1), (pgCDC 0, CDC.COEF_BUSY, 1)]), by decide +kernel⟩,
   ⟨0, 3, 4, [(false, 9)], [5], st (mk [(pgLDSYS 0, LDSYS.STATUS_READY, 1), (pgCDC 0, CDC.COEF_READY, 1), (pgCDC 0, CDC.TRACK_EN, 0)]), by decide +kernel⟩⟩

/-- The premises of EqualiserStates can be met, clause by clause. -/
theorem wit_EqualiserStates :
    (∃ (p : Port) (sc : Fin 8) (var xcorr : Nat) (s : State), s.clocked ∧ s.dev.online p = true ∧ s.dev.eqState p sc = 1 ∧ s.dev.get (pgSUBC p sc) SUBC.CONVERGED = 0 ∧ s.dev.get (pgSUBC p sc) SUBC.WIN_RUN = 3 ∧ var < 250 ∧ s.dev.aligned p sc = true) ∧
    (∃ (p : Port) (sc : Fin 8) (s : State), s.clocked ∧ s.dev.online p = true ∧ s.dev.eqState p sc = 1 ∧ s.dev.get (pgSUBC p sc) SUBC.CONVERGED = 0) ∧
    (∃ (p : Port) (sc : Fin 8) (s : State), s.clocked ∧ s.dev.online p = true ∧ s.dev.eqState p sc = 2) ∧
    (∃ (p : Port) (sc : Fin 8) (s : State), s.clocked ∧ s.dev.online p = true ∧ s.dev.eqState p sc = 5) ∧
    (∃ (p : Port) (w : Word) (sc : Fin 8) (s : State), s.clocked ∧ s.dev.online p = true ∧ s.dev.eqState p sc ≠ 0 ∧ s.dev.eqState p sc ≠ 4 ∧ bitOf (MIMO.CTL_FREEZE.ofWord w.toNat) sc.val = true) ∧
    (∃ (p : Port) (w : Word) (sc : Fin 8) (s : State), s.clocked ∧ s.dev.online p = true ∧ s.dev.eqState p sc = 4 ∧ bitOf (MIMO.CTL_FREEZE.ofWord w.toNat) sc.val = false) ∧
    (∃ (p : Port) (w : Word) (sc : Fin 8) (s : State), s.clocked ∧ s.dev.online p = true ∧ w.getLsbD sc.val = true ∧ sc.val < s.dev.rxK p) :=
  ⟨⟨0, 2, 249, 901, st (mk [(pgLDSYS 0, LDSYS.STATUS_READY, 1), (pgSUBC 0 2, SUBC.STATUS_EQ_STATE, 1), (pgSUBC 0 2, SUBC.WIN_RUN, 3), (pgLFR 0, LFR.ALIGN_STATE.at 2, 5)]), by decide +kernel⟩,
   ⟨0, 2, st (mk [(pgLDSYS 0, LDSYS.STATUS_READY, 1), (pgSUBC 0 2, SUBC.STATUS_EQ_STATE, 1), (pgSUBC 0 2, SUBC.EQ_STAT_SEED, 3)]), by decide +kernel⟩,
   ⟨1, 7, st (mk [(pgLDSYS 1, LDSYS.STATUS_READY, 1), (pgSUBC 1 7, SUBC.STATUS_EQ_STATE, 2)]), by decide +kernel⟩,
   ⟨1, 7, st (mk [(pgLDSYS 1, LDSYS.STATUS_READY, 1), (pgSUBC 1 7, SUBC.STATUS_EQ_STATE, 5)]), by decide +kernel⟩,
   ⟨0, BitVec.ofNat 32 (2 ^ (MIMO.CTL_FREEZE.lo + 5)), 5, st (mk [(pgLDSYS 0, LDSYS.STATUS_READY, 1), (pgSUBC 0 5, SUBC.STATUS_EQ_STATE, 3)]), by decide +kernel⟩,
   ⟨0, 0, 5, st (mk [(pgLDSYS 0, LDSYS.STATUS_READY, 1), (pgSUBC 0 5, SUBC.STATUS_EQ_STATE, 4)]), by decide +kernel⟩,
   ⟨0, 1, 0, st (mk [(pgLDSYS 0, LDSYS.STATUS_READY, 1)]), by decide +kernel⟩⟩

/-- The premises of EqualiserTaps can be met, clause by clause. -/
theorem wit_EqualiserTaps :
    (∃ (p : Port) (sc : Fin 8) (f : Fin 4) (gr gi : Int) (s : State), s.clocked ∧ s.dev.online p = true ∧ (s.dev.eqState p sc = 2 ∨ s.dev.eqState p sc = 3 ∨ s.dev.eqState p sc = 5) ∧ (gr ≠ 0 ∨ gi ≠ 0) ∧ s.dev.get (pgSUBC p sc) SUBC.CENTROID_RUN < 15) ∧
    (∃ (h g : Int) (k : Nat), g % (2 ^ k : Nat) = 0 ∧ -512 ≤ h + g / (2 ^ k : Nat) ∧ h + g / (2 ^ k : Nat) ≤ 511) ∧
    (∃ (p : Port) (sc : Fin 8) (i : Fin 128) (s : State), s.clocked ∧ s.dev.online p = true) ∧
    (∃ (p : Port) (woff : Fin 245760) (w : Word) (a : Nat) (s : State), s.clocked ∧ s.dev.online p = true ∧ s.dev.get (pgNLC p) NLC.STATUS_TBL_OPEN = 1 ∧ s.dev.wordSyn (4 + p.val) (woff.val / 2) = 0) ∧
    (∃ (p : Port) (woff : Fin 245760) (w : Word) (s : State), s.clocked ∧ s.dev.online p = true ∧ s.dev.get (pgNLC p) NLC.STATUS_TBL_OPEN = 0) ∧
    (∃ (p : Port) (s : State), s.clocked ∧ s.dev.online p = true ∧ s.dev.get (pgNLC p) NLC.CTL_EN = 0) ∧
    (∃ (p : Port) (s : State), s.clocked ∧ s.dev.online p = true) ∧
    (∃ (p : Port) (s : State), s.clocked ∧ s.dev.online p = true ∧ s.dev.get (pgNLC p) NLC.STATUS_SUM_BUSY = 1 ∧ s.dev.get (pgNLC p) NLC.SUM_DIRTY = 0) ∧
    (∃ (p : Port) (e : Fin 122880) (s : State), s.clocked ∧ s.dev.online p = true) :=
  ⟨⟨0, 5, 3, 8192, -4096, st (mk [(pgLDSYS 0, LDSYS.STATUS_READY, 1), (pgSUBC 0 5, SUBC.STATUS_EQ_STATE, 3)]), by decide +kernel⟩,
   ⟨5, -512, 9, by decide +kernel⟩,
   ⟨0, 5, 127, st ((mk [(pgLDSYS 0, LDSYS.STATUS_READY, 1)]).eqUpd 0 fun e => { e with taps := [(767, 5)] }), by decide +kernel⟩,
   ⟨0, 245759, 0x12345678, 5, st (mk [(pgLDSYS 0, LDSYS.STATUS_READY, 1), (pgNLC 0, NLC.STATUS_TBL_OPEN, 1)]), by decide +kernel⟩,
   ⟨0, 0, 1, st (mk [(pgLDSYS 0, LDSYS.STATUS_READY, 1), (pgNLC 0, NLC.STATUS_TBL_OPEN, 0)]), by decide +kernel⟩,
   ⟨0, st (mk [(pgLDSYS 0, LDSYS.STATUS_READY, 1), (pgNLC 0, NLC.CTL_EN, 0)]), by decide +kernel⟩,
   ⟨0, st (mk [(pgLDSYS 0, LDSYS.STATUS_READY, 1)]), by decide +kernel⟩,
   ⟨0, st (mk [(pgLDSYS 0, LDSYS.STATUS_READY, 1), (pgNLC 0, NLC.STATUS_SUM_BUSY, 1)]), by decide +kernel⟩,
   ⟨0, 122879, st (mk [(pgLDSYS 0, LDSYS.STATUS_READY, 1)]), by decide +kernel⟩⟩

/-- The premises of CarrierAcquisition can be met, clause by clause. -/
theorem wit_CarrierAcquisition :
    (∃ (p : Port) (s : State), s.clocked ∧ s.dev.online p = true ∧ s.dev.adcRuns p = true) ∧
    (∃ (p : Port) (est : Int) (s : State), s.clocked ∧ s.dev.online p = true ∧ s.dev.get (pgCRV p) CRV.STATUS_ACQ = 1 ∧ s.dev.get (pgCRV p) CRV.STATUS_ACQ_STEP = 1 ∧ s.dev.get (pgCDC p) CDC.CTL_MODE ≠ 0 ∧ est.natAbs ≤ clampN 1 50 (s.dev.get (pgCRV p) CRV.CTL_FO_WIN) * 100000) ∧
    (∃ (p : Port) (est : Int) (s : State), s.clocked ∧ s.dev.online p = true ∧ s.dev.adcRuns p = true ∧ s.dev.get (pgCRV p) CRV.STATUS_ACQ = 1 ∧ s.dev.get (pgCRV p) CRV.STATUS_ACQ_STEP = 1 ∧ s.dev.get (pgCRV p) CRV.FAIL_RUN < 3 ∧ clampN 1 50 (s.dev.get (pgCRV p) CRV.CTL_FO_WIN) * 100000 < est.natAbs) ∧
    (∃ (p : Port) (s : State), s.clocked ∧ s.dev.online p = true ∧ s.dev.get (pgCRV p) CRV.STATUS_ACQ = 1 ∧ s.dev.get (pgCRV p) CRV.STATUS_ACQ_STEP = 3 ∧ s.dev.aligned p 0 = false ∧ s.dev.get (pgCRV p) CRV.STATUS_TIM_LOCK = 0) ∧
    (∃ (p : Port) (s : State), s.clocked ∧ s.dev.online p = true ∧ s.dev.get (pgCRV p) CRV.STATUS_TIM_LOCK = 1) ∧
    (∃ (p : Port) (s : State), s.clocked ∧ s.dev.online p = true ∧ s.dev.get (pgCRV p) CRV.STATUS_ACQ = 1 ∧ s.dev.get (pgCRV p) CRV.FAIL_RUN = 3) ∧
    (∃ (p : Port) (s : State), s.clocked ∧ s.dev.online p = true ∧ s.dev.adcRuns p = true ∧ s.dev.get (pgCRV p) CRV.RETRYING = 1) ∧
    (∃ (p : Port) (s : State), s.clocked ∧ s.dev.online p = true ∧ s.dev.get (pgADC p) ADC.RETUNE = 1) ∧
    (∃ (p : Port) (s : State), s.clocked ∧ s.dev.online p = true) :=
  ⟨⟨0, st (mk [(pgLDSYS 0, LDSYS.STATUS_READY, 1), (pgADC 0, ADC.STATUS_RUN, 15), (pgCRV 0, CRV.STATUS_FO_LOCK, 1)]), by decide +kernel⟩,
   ⟨0, -100000, st (mk [(pgLDSYS 0, LDSYS.STATUS_READY, 1), (pgCRV 0, CRV.STATUS_ACQ, 1), (pgCRV 0, CRV.STATUS_ACQ_STEP, 1), (pgCDC 0, CDC.CTL_MODE, 1)]), by decide +kernel⟩,
   ⟨0, -5000001, st (mk [(pgLDSYS 0, LDSYS.STATUS_READY, 1), (pgADC 0, ADC.STATUS_RUN, 15), (pgCRV 0, CRV.STATUS_ACQ, 1), (pgCRV 0, CRV.STATUS_ACQ_STEP, 1)]), by decide +kernel⟩,
   ⟨0, st (mk [(pgLDSYS 0, LDSYS.STATUS_READY, 1), (pgCRV 0, CRV.STATUS_ACQ, 1), (pgCRV 0, CRV.STATUS_ACQ_STEP, 3)]), by decide +kernel⟩,
   ⟨0, st (mk [(pgLDSYS 0, LDSYS.STATUS_READY, 1), (pgCRV 0, CRV.STATUS_TIM_LOCK, 1)]), by decide +kernel⟩,
   ⟨0, st (mk [(pgLDSYS 0, LDSYS.STATUS_READY, 1), (pgCRV 0, CRV.STATUS_ACQ, 1), (pgCRV 0, CRV.FAIL_RUN, 3)]), by decide +kernel⟩,
   ⟨0, st (mk [(pgLDSYS 0, LDSYS.STATUS_READY, 1), (pgADC 0, ADC.STATUS_RUN, 15), (pgCRV 0, CRV.RETRYING, 1)]), by decide +kernel⟩,
   ⟨0, st (mk [(pgLDSYS 0, LDSYS.STATUS_READY, 1), (pgADC 0, ADC.RETUNE, 1), (pgADC 0, ADC.LANE_CTL_EN, 15)]), by decide +kernel⟩,
   ⟨0, st (mk [(pgLDSYS 0, LDSYS.STATUS_READY, 1), (pgDAC 0, DAC.RETUNE, 1)]), by decide +kernel⟩⟩

/-- The premises of CarrierLock can be met, clause by clause. -/
theorem wit_CarrierLock :
    (∃ (p : Port) (sc : Fin 8) (frame : BitVec 12) (n : BitVec 11) (phase drift : BitVec 16) (t : Nat) (s : State), s.clocked ∧ s.dev.online p = true ∧ s.dev.get (pgSUBC p sc) SUBC.STATUS_PILOT_OK = 1 ∧ s.dev.get (pgSUBC p sc) SUBC.STATUS_CR_LOCK = 0 ∧ s.dev.get (pgSUBC p sc) (SUBC.OK_RUN.at 1) = 16 ∧ s.dev.get (pgSUBC p sc) (SUBC.OK_RUN.at 0) = 15 ∧ AMap.find? (s.dev.eq.get p).tracks (sc.val * 2) = some t ∧ (phase - BitVec.ofNat 16 t - drift).toInt.natAbs ≤ 8192) ∧
    (∃ (p : Port) (sc : Fin 8) (pol ok wrong : Bool) (frame : BitVec 12) (n : BitVec 11) (phase drift : BitVec 16) (t : Nat) (s : State), s.clocked ∧ s.dev.online p = true ∧ s.dev.get (pgSUBC p sc) SUBC.STATUS_PILOT_OK = 1 ∧ s.dev.aligned p sc.val = true ∧ AMap.find? (s.dev.eq.get p).tracks (sc.val * 2 + b2n pol) = some t ∧ (phase - BitVec.ofNat 16 t - drift = 16384 ∨ phase - BitVec.ofNat 16 t - drift = -16384) ∧ s.dev.get (pgCRV p) CRV.CTL_CS_ERASE = 1) ∧
    (∃ (p : Port) (sc : Fin 8) (pol ok : Bool) (frame : BitVec 12) (n : BitVec 11) (phase drift : BitVec 16) (l : List Bool) (s : State), s.clocked ∧ s.dev.online p = true ∧ s.dev.get (pgSUBC p sc) SUBC.STATUS_PILOT_OK = 1 ∧ s.dev.get (pgSUBC p sc) SUBC.STATUS_CR_LOCK = 1 ∧ s.dev.aligned p sc.val = false ∧ AMap.find? (s.dev.eq.get p).pilotWin sc.val = some l ∧ 255 ≤ l.length ∧ 64 ≤ (l.take 255).countP id) :=
  ⟨⟨0, 3, 4095, 2047, 77, 69, 8200, st ((mk [(pgLDSYS 0, LDSYS.STATUS_READY, 1), (pgSUBC 0 3, SUBC.STATUS_PILOT_OK, 1), (pgSUBC 0 3, SUBC.OK_RUN.at 0, 15), (pgSUBC 0 3, SUBC.OK_RUN.at 1, 16)]).eqUpd 0 fun e => { e with tracks := [(6, 8200)] }), by decide +kernel⟩,
   ⟨1, 3, true, true, false, 9, 5, 99, 1, 16482, st ((mk [(pgLDSYS 1, LDSYS.STATUS_READY, 1), (pgSUBC 1 3, SUBC.STATUS_PILOT_OK, 1), (pgLFR 1, LFR.ALIGN_STATE.at 3, 5), (pgCRV 1, CRV.CTL_CS_ERASE, 1)]).eqUpd 1 fun e => { e with tracks := [(7, 16482)] }), by decide +kernel⟩,
   ⟨1, 3, true, true, 9, 5, 99, 1, List.replicate 255 true, st ((mk [(pgLDSYS 1, LDSYS.STATUS_READY, 1), (pgSUBC 1 3, SUBC.STATUS_PILOT_OK, 1), (pgSUBC 1 3, SUBC.STATUS_CR_LOCK, 1)]).eqUpd 1 fun e => { e with pilotWin := [(3, List.replicate 255 true)] }), by decide +kernel⟩⟩

/-- The premises of ForwardErrorCorrection can be met, clause by clause. -/
theorem wit_ForwardErrorCorrection :
    (∃ (p : Port) (i : Fin 256) (w : Word) (s : State), s.clocked ∧ s.dev.online p = true) ∧
    (∃ (p : Port) (s : State), s.clocked ∧ s.dev.online p = true ∧ s.dev.aligned p 0 = true ∧ s.dev.get (pgLFR p) LFR.FRAME_POS = 0 ∧ s.dev.get (pgFEC p) FEC.STATUS_DEC_ACTIVE = 0) ∧
    (∃ (p : Port) (blocks : List RxBlock) (iters : BitVec 16) (parity : List (Fin 384)) (cw : Codeword) (rest : List Codeword) (t : Fin 16) (s : State), s.clocked ∧ s.dev.online p = true ∧ (s.dev.fec.get p).pool = cw :: rest ∧ cw.trestle = false) ∧
    (∃ (p : Port) (blocks : List RxBlock) (iters : BitVec 16) (parity : List (Fin 384)) (cw : Codeword) (rest : List Codeword) (s : State), s.clocked ∧ s.dev.online p = true ∧ (s.dev.fec.get p).pool = cw :: rest ∧ cw.trestle = false ∧ cw.word = 7 ∧ (s.dev.fec.get p).words.length = 7) ∧
    (∃ (p : Port) (blocks : List RxBlock) (parity : List (Fin 384)) (cw : Codeword) (s : State), s.clocked ∧ s.dev.online p = true ∧ (s.dev.fec.get p).pool.find? (·.trestle) = some cw) ∧
    (∃ (cw : Codeword) (lim x : Nat) (f : FecState), f.rxAt < lim ∧ f.fill = none ∧ (f.rxAt + 1) % 6144 ≠ 0) ∧
    (∃ (cw w : Codeword) (lim x : Nat) (f : FecState), f.rxAt < lim ∧ f.fill = some w ∧ (f.rxAt + 1) % 6144 = 0) ∧
    (∃ (cw : Codeword) (lim x : Nat) (f : FecState), lim ≤ f.rxAt) ∧
    (∃ (p : Port) (s : State), s.clocked ∧ s.dev.online p = true) ∧
    (∃ (p : Port) (w : Word) (s : State), s.clocked ∧ s.dev.online p = true ∧ s.dev.get (pgFEC p) FEC.INJ_EN = 0) :=
  ⟨⟨0, 255, 0x80FF7F01, st (mk [(pgLDSYS 0, LDSYS.STATUS_READY, 1)]), by decide +kernel⟩,
   ⟨0, st (mk [(pgLDSYS 0, LDSYS.STATUS_READY, 1), (pgLFR 0, LFR.ALIGN_STATE.at 0, 5), (pgLFR 0, LFR.FRAME_POS, 0)]), by decide +kernel⟩,
   ⟨0, [], 16, [383], ⟨[], false, 1, 0, 3, 5, false, 4, 1700, 1, 0, 0, 0, 0⟩, [], 3, st ((mk [(pgLDSYS 0, LDSYS.STATUS_READY, 1)]).fecUpd 0 fun f => { f with pool := [⟨[], false, 1, 0, 3, 5, false, 4, 1700, 1, 0, 0, 0, 0⟩] }), by decide +kernel⟩,
   ⟨0, [], 16, [], ⟨[], false, 1, 0, 7, 5, false, 4, 1700, 1, 0, 0, 0, 0⟩, [], st ((mk [(pgLDSYS 0, LDSYS.STATUS_READY, 1)]).fecUpd 0 fun f => { f with pool := [⟨[], false, 1, 0, 7, 5, false, 4, 1700, 1, 0, 0, 0, 0⟩], words := List.replicate 7 (⟨[], false, 1, 0, 7, 5, false, 4, 1700, 1, 0, 0, 0, 0⟩, []) }), by decide +kernel⟩,
   ⟨1, [], [5], ⟨[], true, 1, 0, 0, 5, false, 4, 1700, 1, 0, 0, 0, 0⟩, st ((mk [(pgLDSYS 1, LDSYS.STATUS_READY, 1)]).fecUpd 1 fun f => { f with pool := [⟨[], true, 1, 0, 0, 5, false, 4, 1700, 1, 0, 0, 0, 0⟩] }), by decide +kernel⟩,
   ⟨⟨[], true, 1, 0, 0, 5, false, 4, 1700, 1, 0, 0, 0, 0⟩, 5, 9, { FecState.reset with rxAt := 4 }, by decide +kernel⟩,
   ⟨⟨[], true, 1, 0, 0, 5, false, 4, 1700, 1, 0, 0, 0, 0⟩, ⟨[1, 2], true, 1, 0, 0, 5, false, 4, 1700, 1, 0, 0, 0, 0⟩, 6144, 9, { FecState.reset with rxAt := 6143, fill := some ⟨[1, 2], true, 1, 0, 0, 5, false, 4, 1700, 1, 0, 0, 0, 0⟩ }, by decide +kernel⟩,
   ⟨⟨[], true, 1, 0, 0, 5, false, 4, 1700, 1, 0, 0, 0, 0⟩, 6, 9, { FecState.reset with rxAt := 6 }, by decide +kernel⟩,
   ⟨1, st (mk [(pgLDSYS 1, LDSYS.STATUS_READY, 1), (pgFEC 1, FEC.POOL_PEAK, 7)]), by decide +kernel⟩,
   ⟨1, 5, st (mk [(pgLDSYS 1, LDSYS.STATUS_READY, 1)]), by decide +kernel⟩⟩

/-- The premises of MonitorLatch can be met, clause by clause. -/
theorem wit_MonitorLatch :
    (∃ (p : Port) (m : List (Fin 8 × Mon)) (sc : Fin 8) (i : Fin 16) (s : State), s.clocked ∧ s.dev.online p = true ∧ s.dev.monWindow p ≤ s.dev.get (pgDMP p) DMP.WIN_FRAMES) ∧
    (∃ (p : Port) (m : List (Fin 8 × Mon)) (s : State), s.clocked ∧ s.dev.online p = true ∧ s.dev.get (pgDMP p) DMP.WIN_FRAMES < s.dev.monWindow p) :=
  ⟨⟨0, [], 7, 15, st ((mk [(pgLDSYS 0, LDSYS.STATUS_READY, 1), (pgDMP 0, DMP.MON_CTL_WIN, 2), (pgDMP 0, DMP.WIN_FRAMES, 16), (pgFEC 0, FEC.WIN_BITS, 61440), (pgFEC 0, FEC.WIN_CORR, 7)]).fecUpd 0 fun f => { f with hist := [(15, 4294967296)], l6 := 99, clamped := 1 }), by decide +kernel⟩,
   ⟨0, [], st (mk [(pgLDSYS 0, LDSYS.STATUS_READY, 1)]), by decide +kernel⟩⟩

/-- The premises of HeadersAndStreams can be met, clause by clause. -/
theorem wit_HeadersAndStreams :
    (∃ (p : Port) (tx : TxFrame) (s : State), s.clocked ∧ s.dev.online p = true ∧ s.dev.txRun p = true ∧ s.dev.stopDue p = false ∧ s.dev.commits = [] ∧ s.dev.get (pgLFR p) LFR.SPAN_TXPOS_FRAME < 4095) ∧
    (∃ (outer : List (List Bool)) (o b : Nat), o < 24 ∧ b < 1792) :=
  ⟨⟨1, ⟨[], [], []⟩, st (mk [(pgLDSYS 1, LDSYS.STATUS_READY, 1), (pgLFR 1, LFR.SPAN_TXPOS_RUN, 1), (pgLFR 1, LFR.CTL_TX_EN, 1), (pgLFR 1, LFR.SPAN_TXPOS_FRAME, 4094)]), by decide +kernel⟩,
   ⟨[], 23, 1791, by decide +kernel⟩⟩

/-- The premises of DecksAndJoints can be met, clause by clause. -/
theorem wit_DecksAndJoints :
    (∃ (p : Port) (fr b : Nat) (t : List (Nat × Nat)) (s : State), s.clocked ∧ s.dev.online p = true ∧ (s.dev.map.get p).bips = (fr, b) :: t) ∧
    (∃ (p : Port) (c : Fin 32) (x : Ingress) (offers : List (Fin 32 × Ingress)) (s : State), s.clocked ∧ s.dev.encActive p = true ∧ (s.dev.map.get p).txDeck < spanDecks (s.dev.txCfg p).trestle (s.dev.txK p) (s.dev.txCfg p).e256 ∧ s.dev.txSlots p c.val ≠ [] ∧ offers.find? (·.1 == c) = some (c, x)) ∧
    (∃ (p : Port) (offers : List (Fin 32 × Ingress)) (s : State), s.clocked ∧ (s.dev.encActive p = false ∨ spanDecks (s.dev.txCfg p).trestle (s.dev.txK p) (s.dev.txCfg p).e256 ≤ (s.dev.map.get p).txDeck)) ∧
    (∃ (p : Port) (c : Fin 32) (fills : List (Fin 32 × BitVec 13)) (parity : List (Fin 32 × BitVec 16)) (n deck : Nat) (marks : List (Nat × Bool)) (f : FecState) (s : State), s.clocked ∧ s.dev.online p = true ∧ (s.dev.fec.get p).takeDeck = some (n, deck, marks, f) ∧ (s.dev.map.get p).tabSlots c.val ≠ [] ∧ n ≠ 0 ∧ n % 128 ≠ 66 ∧ s.dev.get (pgMAP p) (MAP.PATH_JC_SYNC.at c.val) = 1 ∧ ((s.dev.map.get p).rxOf c.val).bad < 2) ∧
    (∃ (p : Port) (fills : List (Fin 32 × BitVec 13)) (parity : List (Fin 32 × BitVec 16)) (s : State), s.clocked ∧ s.dev.online p = true ∧ (s.dev.fec.get p).takeDeck = none) ∧
    (∃ (p : Port) (c : Fin 32) (s : State), s.clocked) ∧
    (∃ (p : Port) (c : Fin 32) (w : Word) (nearTx nearRx : Bool) (s : State), s.clocked) ∧
    (∃ (c : Fin 32) (marked : Bool) (fill : BitVec 13) (adj par : Bool) (s : State), s.clocked ∧ s.dev.replNeeded c = false ∧ s.dev.cliEth c = true ∧ s.dev.get (pgCLI c) CLI.STAT_ERR ≠ 1 ∧ s.dev.get (pgCLI c) CLI.STAT_ERR ≠ 2 ∧ s.dev.get (pgCLI c) CLI.EG_OPEN = 1 ∧ s.dev.get (pgCLI c) CLI.EG_WAIT = 0 ∧ s.dev.get (pgCLI c) CLI.EG_UNF = 0) ∧
    (∃ (c : Fin 32) (kind : Fin 5) (marked : Bool) (fill : BitVec 13) (adj par : Bool) (s : State), s.clocked ∧ (s.dev.get (pgCLI c) CLI.STAT_ERR = 1 ∨ s.dev.get (pgCLI c) CLI.STAT_ERR = 2)) :=
  ⟨⟨0, 7, 0, [(8, 5)], st (((mk [(pgLDSYS 0, LDSYS.STATUS_READY, 1)]).mapUpd 0 fun m => { m with bips := [(7, 0), (8, 5)] }).fecUpd 0 fun f => { f with rxBips := [(7, 65535)] }), by decide +kernel⟩,
   ⟨0, 1, ⟨[], [[1#40]]⟩, [(1, ⟨[], [[1#40]]⟩)], st ((mk [(pgLDSYS 0, LDSYS.STATUS_READY, 1), (pgLFR 0, LFR.SPAN_TXPOS_RUN, 1), (pgMAP 0, MAP.TXSLOT_EN.at 3, 1), (pgMAP 0, MAP.TXSLOT_CLIENT.at 3, 1), (pgTXS 0, TXS.STATUS_CONFLICT, 0)]).mapUpd 0 fun m => { m with tx := [(1, ⟨90, none, 0, false, false, [], [9], []⟩)] }), by decide +kernel⟩,
   ⟨0, [], st (mk [(pgLDSYS 0, LDSYS.STATUS_READY, 1)]), by decide +kernel⟩,
   ⟨0, 1, [], [], _, _, _, _, st (((mk [(pgLDSYS 0, LDSYS.STATUS_READY, 1), (pgMAP 0, MAP.PATH_JC_SYNC.at 1, 1)]).mapUpd 0 fun m => { m with rxTab := [(3, 1)] }).fecUpd 0 fun _ => deckS), by decide +kernel, by decide +kernel, rfl, by decide +kernel, by decide +kernel, by decide +kernel, by decide +kernel, by decide +kernel⟩,
   ⟨0, [], [], st (mk [(pgLDSYS 0, LDSYS.STATUS_READY, 1)]), by decide +kernel⟩,
   ⟨1, 31, st (mk [(pgCLI 31, CLI.CFG_TYPE, 2)]), by decide +kernel⟩,
   ⟨0, 31, 0, true, false, st (mk [(pgMAP 0, MAP.EJ_FILL.at 31, 9)]), by decide +kernel⟩,
   ⟨0, false, 300, false, false, st (mk [(pgLDSYS 0, LDSYS.STATUS_READY, 1), (pgCLI 0, CLI.CFG_TYPE, 1), (pgCLI 0, CLI.CTL_RX_EN, 1), (pgMAP 0, MAP.PATH_JC_SYNC.at 0, 1), (pgCLI 0, CLI.EG_OPEN, 1)]), by decide +kernel⟩,
   ⟨0, 2, false, 300, false, false, st (mk [(pgCLI 0, CLI.STAT_ERR, 1)]), by decide +kernel⟩⟩

/-- The premises of HostLanesAndClients can be met, clause by clause. -/
theorem wit_HostLanesAndClients :
    (∃ (l : Fin 32) (s : State), s.clocked ∧ s.dev.laneRx l = true ∧ s.dev.get (pgHLN l) HLN.STATUS_SIG_DET = 0) ∧
    (∃ (l : Fin 32) (snr : BitVec 12) (s : State), s.clocked ∧ s.dev.laneRx l = true ∧ s.dev.get (pgHLN l) HLN.STATUS_SIG_DET = 1 ∧ s.dev.laneUp l = false) ∧
    (∃ (l : Fin 32) (signal : Bool) (s : State), s.clocked ∧ s.dev.laneUp l = true) ∧
    (∃ (l : Fin 32) (w : Word) (s : State), s.clocked ∧ HLN.CTL_RX_EN.ofWord (w ||| 0x100#32).toNat = 1) ∧
    (∃ (l : Fin 32) (w : Word) (s : State), s.clocked) ∧
    (∃ (l : Fin 32) (w : Word) (s : State), s.clocked) ∧
    (∃ (c : Fin 32) (w : Word) (s : State), s.clocked ∧ s.dev.get (pgCLI c) CLI.CTL_TX_EN = 0 ∧ s.dev.get (pgCLI c) CLI.CTL_RX_EN = 0 ∧ s.dev.pget (pgCLI c) CLI.CTL_TX_EN = 0 ∧ s.dev.pget (pgCLI c) CLI.CTL_RX_EN = 0) ∧
    (∃ (c : Fin 32) (w : Word) (s : State), s.clocked ∧ (s.dev.get (pgCLI c) CLI.CTL_TX_EN = 1 ∨ s.dev.pget (pgCLI c) CLI.CTL_RX_EN = 1)) ∧
    (∃ (c : Fin 32) (cw : List (BitVec 10)) (frames : BitVec 8) (s : State), s.clocked ∧ s.dev.cliEth c = true) ∧
    (∃ (c : Fin 32) (skew : BitVec 8) (s : State), s.clocked ∧ s.dev.cliEth c = true) ∧
    (∃ (c : Fin 32) (skew : BitVec 8) (s : State), s.clocked ∧ s.dev.cliEth c = true ∧ ((∀ l : Fin 32, s.dev.cliHas c l.val = true → s.dev.laneUp l = true))) :=
  ⟨⟨31, st (mk [(pgHLN 31, HLN.CTL_RX_EN, 1), (pgSYS, SYS.SDS_RST, 0)]), by decide +kernel⟩,
   ⟨31, 99, st (mk [(pgHLN 31, HLN.CTL_RX_EN, 1), (pgSYS, SYS.SDS_RST, 0), (pgHLN 31, HLN.STATUS_SIG_DET, 1)]), by decide +kernel⟩,
   ⟨31, true, st (mk [(pgHLN 31, HLN.STATUS_ADAPT_DONE, 1), (pgHLN 31, HLN.STATUS_CDR_LOCK, 1), (pgHLN 31, HLN.STATUS_SIG_DET, 1)]), by decide +kernel⟩,
   ⟨3, 3, st (mk [(pgHLN 3, HLN.STATUS_ADAPT_DONE, 1), (pgHLN 3, HLN.STATUS_CDR_LOCK, 1), (pgHLN 3, HLN.STATUS_SIG_DET, 1)]), by decide +kernel⟩,
   ⟨3, 63, st (mk [(pgHLN 3, HLN.TXFFE0_CM1, 2)]), by decide +kernel⟩,
   ⟨3, 63, st (mk [(pgHLN 3, HLN.TXFFE0_CM1, 2)]), by decide +kernel⟩,
   ⟨4, 0x104, st Dev.reset, by decide +kernel⟩,
   ⟨4, 0x104, st (mk [(pgCLI 4, CLI.CTL_TX_EN, 1)]), by decide +kernel⟩,
   ⟨4, [], 255, st (mk [(pgCLI 4, CLI.CFG_TYPE, 4)]), by decide +kernel⟩,
   ⟨4, 20, st (mk [(pgCLI 4, CLI.CFG_TYPE, 1), (pgCLI 4, CLI.PCS_LOCK, 1)]), by decide +kernel⟩,
   ⟨4, 20, st (mk [(pgCLI 4, CLI.CFG_TYPE, 1), (pgCLI 4, CLI.CFG_FIRST_LANE, 2), (pgHLN 2, HLN.STATUS_ADAPT_DONE, 1), (pgHLN 2, HLN.STATUS_CDR_LOCK, 1), (pgHLN 2, HLN.STATUS_SIG_DET, 1)]), by decide +kernel⟩⟩

/-- The premises of EncryptedBlocks can be met, clause by clause. -/
theorem wit_EncryptedBlocks :
    (∃ (c : Fin 32) (span ctr k : Nat) (latch : Option (Nat × Nat)) (data : List Bool) (ghash : Bool) (s : State), s.clocked ∧ data ≠ [] ∧ s.dev.encOn c true = true ∧ span = (if (s.dev.encTx c).fresh then s.dev.txSpan (s.dev.cliPort c) else (s.dev.encTx c).span) ∧ ctr = (if (s.dev.encTx c).fresh then 0 else (s.dev.encTx c).ctr) ∧ k = (if (s.dev.encTx c).fresh then s.dev.txSlot c else (s.dev.encTx c).nslot) ∧ latch = s.dev.latchDue (if (s.dev.encTx c).fresh then none else (s.dev.encTx c).next) k (s.dev.txSlot c) ∧ s.dev.slotLoaded (s.dev.txSlot c) = true ∧ (s.dev.encTx c).cap = false ∧ (s.dev.encTx c).scc = false ∧ s.dev.ivgCheck c (latch.getD (k, 0)).1 span = false ∧ s.dev.get pgENC (ENC.INJ_PEND.at 0) = 0) ∧
    (∃ (c : Fin 32) (span ctr k : Nat) (latch : Option (Nat × Nat)) (data : List Bool) (q : Fin 48) (miss : List (Fin 48)) (ghash : Bool) (s : State), s.clocked ∧ data ≠ [] ∧ s.dev.encOn c true = true ∧ span = (if (s.dev.encTx c).fresh then s.dev.txSpan (s.dev.cliPort c) else (s.dev.encTx c).span) ∧ ctr = (if (s.dev.encTx c).fresh then 0 else (s.dev.encTx c).ctr) ∧ k = (if (s.dev.encTx c).fresh then s.dev.txSlot c else (s.dev.encTx c).nslot) ∧ latch = s.dev.latchDue (if (s.dev.encTx c).fresh then none else (s.dev.encTx c).next) k (s.dev.txSlot c) ∧ s.dev.slotLoaded (s.dev.txSlot c) = true ∧ (s.dev.encTx c).cap = false ∧ (s.dev.encTx c).scc = false ∧ s.dev.ivgCheck c (latch.getD (k, 0)).1 span = false ∧ s.dev.get pgENC ENC.STANDBY_TX = 0) ∧
    (∃ (c : Fin 32) (span ctr : Nat) (data : List Bool) (miss : List (Fin 48)) (ghash : Bool) (s : State), s.clocked ∧ data ≠ [] ∧ s.dev.encOn c true = true ∧ span = (if (s.dev.encTx c).fresh then s.dev.txSpan (s.dev.cliPort c) else (s.dev.encTx c).span) ∧ ctr = (if (s.dev.encTx c).fresh then 0 else (s.dev.encTx c).ctr) ∧ (s.dev.slotLoaded (s.dev.txSlot c) = false ∨ (s.dev.encTx c).cap = true)) ∧
    (∃ (c : Fin 32) (data : List Bool) (miss : List (Fin 48)) (ghash : Bool) (s : State), s.clocked ∧ (data = [] ∨ s.dev.encOn c true = false)) ∧
    (∃ (eth : Bool) (n owed : Nat) (data : List Bool), True) ∧
    (∃ (n : Nat) (data : List Bool), data.length ≤ n) ∧
    (∃ (n : Nat) (data : List Bool), data.length ≤ n) ∧
    (∃ (c : Fin 32) (h : BitVec 16) (body : List (BitVec 8)) (s : State), s.clocked ∧ s.dev.encOn c false = true ∧ s.dev.get pgENC (ENC.TRIB_STAT_SYNC.at c.val) = 3 ∧ s.dev.slotLoaded (s.dev.rxSlot c) = true ∧ (s.dev.encRx c).term = false ∧ (s.dev.encRx c).cap = false ∧ h.toNat / 4096 = 0xA ∧ (s.dev.encRx c).fits (bitsOf h.toNat 9 2) (h.toNat % 512) = true ∧ s.dev.get pgENC (ENC.INJ_PEND.at 1) = 0) ∧
    (∃ (c : Fin 32) (h : BitVec 16) (body : List (BitVec 8)) (miss : List (Fin 48 × Fin 1024)) (ghash : Bool) (s : State), s.clocked ∧ s.dev.encOn c false = true ∧ s.dev.get pgENC (ENC.TRIB_STAT_SYNC.at c.val) = 3 ∧ s.dev.slotLoaded (s.dev.rxSlot c) = true ∧ (s.dev.encRx c).term = false ∧ (s.dev.encRx c).cap = false ∧ h.toNat / 4096 = 0xA ∧ (s.dev.encRx c).fits (bitsOf h.toNat 9 2) (h.toNat % 512) = true ∧ (ghash = true ∨ (miss ≠ [] ∧ s.dev.get pgENC ENC.STANDBY_RX = 0))) ∧
    (∃ (c : Fin 32) (h : BitVec 16) (body : List (BitVec 8)) (miss : List (Fin 48 × Fin 1024)) (ghash : Bool) (s : State), s.clocked ∧ s.dev.encOn c false = true ∧ s.dev.get pgENC (ENC.TRIB_STAT_SYNC.at c.val) = 3 ∧ h.toNat / 4096 = 5 ∧ (s.dev.encRx c).fits (bitsOf h.toNat 9 2) (h.toNat % 512) = true) ∧
    (∃ (c : Fin 32) (h : BitVec 16) (body : List (BitVec 8)) (miss : List (Fin 48 × Fin 1024)) (ghash : Bool) (s : State), s.clocked ∧ s.dev.encOn c false = true ∧ s.dev.get pgENC (ENC.TRIB_STAT_SYNC.at c.val) = 3 ∧ ((h.toNat / 4096 ≠ 0xA ∧ h.toNat / 4096 ≠ 5) ∨ (s.dev.encRx c).fits (bitsOf h.toNat 9 2) (h.toNat % 512) = false)) ∧
    (∃ (c : Fin 32) (h : BitVec 16) (body : List (BitVec 8)) (miss : List (Fin 48 × Fin 1024)) (ghash : Bool) (s : State), s.clocked ∧ s.dev.encOn c false = true ∧ s.dev.get pgENC (ENC.TRIB_STAT_SYNC.at c.val) = 0 ∧ (h.toNat / 4096 = 0xA ∨ h.toNat / 4096 = 5)) ∧
    (∃ (c : Fin 32) (h : BitVec 16) (body : List (BitVec 8)) (miss : List (Fin 48 × Fin 1024)) (ghash : Bool) (s : State), s.clocked ∧ s.dev.encOn c false = false) ∧
    (∃ (c : Fin 32) (last : Option (Fin 4)) (more : Fin 8) (s : State), s.clocked ∧ s.dev.cliEth c = true ∧ s.dev.get pgENC (ENC.TRIB_HOLD_EN.at c.val) = 1 ∧ s.dev.encOn c false = true ∧ s.dev.frameOk c (last.map (·.val)) more.val = false) ∧
    (∃ (c : Fin 32) (last : Option (Fin 4)) (more : Fin 8) (s : State), s.clocked ∧ s.dev.cliEth c = true ∧ s.dev.get pgENC (ENC.TRIB_HOLD_EN.at c.val) = 1 ∧ s.dev.encOn c false = true ∧ s.dev.frameOk c (last.map (·.val)) more.val = true) ∧
    (∃ (c : Fin 32) (w : Word) (s : State), s.clocked ∧ w.toNat % 32 = c.val ∧ w.getLsbD 9 = false) :=
  ⟨⟨3, 0, 9, 0, some (0, 0), [true], false, st ((mk [(pgCLI 3, CLI.STATUS_TX_LIVE, 1), (pgENC, ENC.TRIB_TX_EN.at 3, 1)]).encUpdS fun e => { e with tx := [(3, ⟨0, 9, false, false, false, false, none, 0, 3, none, 4096, 0, none⟩)], keys := [(0, (1, 2))] }), by decide +kernel⟩,
   ⟨3, 0, 9, 0, some (0, 0), [true], 5, [], false, st (((mk [(pgENC, ENC.STANDBY_TX, 0), (pgCLI 3, CLI.STATUS_TX_LIVE, 1), (pgENC, ENC.TRIB_TX_EN.at 3, 1)]).encUpdS fun e => { e with tx := [(3, ⟨0, 9, false, false, false, false, none, 0, 3, none, 4096, 0, none⟩)], keys := [(0, (1, 2))] })), by decide +kernel⟩,
   ⟨3, 0, 0, [true], [], false, st (mk [(pgCLI 3, CLI.STATUS_TX_LIVE, 1), (pgENC, ENC.TRIB_TX_EN.at 3, 1)]), by decide +kernel⟩,
   ⟨3, [], [], false, st Dev.reset, by decide +kernel⟩,
   ⟨true, 32768, 3, [true], by decide +kernel⟩,
   ⟨32, [true], by decide +kernel⟩,
   ⟨32, [true], by decide +kernel⟩,
   ⟨3, 0xA001, [1, 2], st ((mk [(pgCLI 3, CLI.STATUS_RX_LIVE, 1), (pgENC, ENC.TRIB_RX_EN.at 3, 1), (pgENC, ENC.TRIB_STAT_SYNC.at 3, 3)]).encUpdS fun e => { e with keys := [(0, (1, 2))] }), by decide +kernel⟩,
   ⟨3, 0xA001, [1, 2], [(5, 7)], true, st ((mk [(pgCLI 3, CLI.STATUS_RX_LIVE, 1), (pgENC, ENC.TRIB_RX_EN.at 3, 1), (pgENC, ENC.TRIB_STAT_SYNC.at 3, 3)]).encUpdS fun e => { e with keys := [(0, (1, 2))] }), by decide +kernel⟩,
   ⟨3, 0x5001, [1, 2], [], false, st ((mk [(pgCLI 3, CLI.STATUS_RX_LIVE, 1), (pgENC, ENC.TRIB_RX_EN.at 3, 1), (pgENC, ENC.TRIB_STAT_SYNC.at 3, 3)]).encUpdS fun e => { e with keys := [(0, (1, 2))] }), by decide +kernel⟩,
   ⟨3, 0xB001, [1, 2], [], false, st ((mk [(pgCLI 3, CLI.STATUS_RX_LIVE, 1), (pgENC, ENC.TRIB_RX_EN.at 3, 1), (pgENC, ENC.TRIB_STAT_SYNC.at 3, 3)]).encUpdS fun e => { e with keys := [(0, (1, 2))] }), by decide +kernel⟩,
   ⟨3, 0x5001, [], [], false, st (mk [(pgCLI 3, CLI.STATUS_RX_LIVE, 1), (pgENC, ENC.TRIB_RX_EN.at 3, 1)]), by decide +kernel⟩,
   ⟨3, 0x5001, [], [], false, st Dev.reset, by decide +kernel⟩,
   ⟨3, none, 1, st (mk [(pgCLI 3, CLI.CFG_TYPE, 1), (pgCLI 3, CLI.STATUS_RX_LIVE, 1), (pgENC, ENC.TRIB_RX_EN.at 3, 1), (pgENC, ENC.TRIB_HOLD_EN.at 3, 1)]), by decide +kernel⟩,
   ⟨3, some 0, 1, st (((mk [(pgCLI 3, CLI.CFG_TYPE, 1), (pgCLI 3, CLI.STATUS_RX_LIVE, 1), (pgENC, ENC.TRIB_RX_EN.at 3, 1), (pgENC, ENC.TRIB_HOLD_EN.at 3, 1)])).setEncRx 3 { Dev.reset.encRx 3 with oks := [true, true] }), by decide +kernel⟩,
   ⟨3, 3, st (mk [(pgENC, ENC.TRIB_STAT_SYNC.at 3, 3)]), by decide +kernel⟩⟩

/-- The premises of EncryptionHost can be met, clause by clause. -/
theorem wit_EncryptionHost :
    (∃ (w : Word) (s : State), s.clocked) ∧
    (∃ (w : Word) (s : State), s.clocked ∧ ENC.TEST_PIPE.ofWord (w ||| 0x1000#32).toNat < 48) ∧
    (∃ (w : Word) (s : State), s.clocked ∧ 48 ≤ ENC.TEST_PIPE.ofWord (w ||| 0x1000#32).toNat) ∧
    (∃ (c : Fin 32) (w : Word) (nearTx nearRx : Bool) (s : State), s.clocked ∧ s.dev.get pgENC (ENC.TRIB_TX_EN.at c.val) = 1) ∧
    (∃ (c : Fin 32) (w : Word) (nearTx nearRx : Bool) (s : State), s.clocked ∧ AMap.find? s.dev.commits pgENC = none ∧ s.dev.get pgENC (ENC.TRIB_TX_EN.at c.val) = 0 ∧ s.dev.get pgENC (ENC.TRIB_RX_EN.at c.val) = 0 ∧ s.dev.pget pgENC (ENC.TRIB_TX_EN.at c.val) = 0 ∧ s.dev.pget pgENC (ENC.TRIB_RX_EN.at c.val) = 0) ∧
    (∃ (k : Fin 64) (w : Word) (s : State), s.clocked ∧ w.getLsbD 9 = false ∧ KEYS.CMD_SLOT.ofWord (w ||| 0x100#32).toNat = k.val) ∧
    (∃ (w : Word) (s : State), s.clocked) :=
  ⟨⟨0, st ((mk [(pgENC, ENC.LOG_STAT_OVF, 1)]).encUpdS fun e => { e with log := [⟨1, 2, 3, 4⟩, ⟨1, 2, 3, 5⟩] }), by decide +kernel⟩,
   ⟨47, st Dev.reset, by decide +kernel⟩,
   ⟨63, st Dev.reset, by decide +kernel⟩,
   ⟨31, 0x3f00003f, true, true, st (mk [(pgENC, ENC.TRIB_TX_EN.at 31, 1)]), by decide +kernel⟩,
   ⟨31, 0x3f00003f, true, true, st Dev.reset, by decide +kernel⟩,
   ⟨5, 5, st ((mk [(pgKEYS, KEYS.SLOT_GEN.at 5, 65535)]).encUpdS fun e => { e with keys := [(4, (1, 2)), (5, (1, 2))] }), by decide +kernel⟩,
   ⟨5, st ((mk [(pgKEYS, KEYS.SLOT_GEN.at 5, 65535)]).encUpdS fun e => { e with keys := [(4, (1, 2)), (5, (1, 2))] }), by decide +kernel⟩⟩

/-- The premises of KeystoneMailbox can be met, clause by clause. -/
theorem wit_KeystoneMailbox :
    (∃ (core : Bool) (w : Word) (s : State), s.clocked ∧ w.getLsbD 1 = false ∧ w.getLsbD 2 = false ∧ s.dev.get pgKSMB KSMB.MB_STAT_OWNER = 0) ∧
    (∃ (core : Bool) (w : Word) (s : State), s.clocked ∧ w.getLsbD 1 = false ∧ w.getLsbD 2 = false ∧ s.dev.get pgKSMB KSMB.MB_STAT_OWNER ≠ 0) ∧
    (∃ (core : Bool) (w : Word) (s : State), s.clocked ∧ w.getLsbD 1 = false ∧ w.getLsbD 2 = true ∧ s.dev.get pgKSMB KSMB.MB_STAT_OWNER = 0 ∧ s.dev.get pgKSMB KSMB.MB_STAT_BUSY = 0) ∧
    (∃ (core : Bool) (w : Word) (s : State), s.clocked ∧ w.getLsbD 0 = false ∧ w.getLsbD 2 = false ∧ s.dev.get pgKSMB KSMB.MB_STAT_OWNER = agentCode core) ∧
    (∃ (core : Bool) (w : Word) (s : State), s.clocked ∧ w.getLsbD 0 = false ∧ w.getLsbD 2 = false ∧ s.dev.get pgKSMB KSMB.MB_STAT_OWNER ≠ agentCode core) ∧
    (∃ (s : State), s.clocked ∧ s.dev.get pgKSMB KSMB.MB_STAT_OWNER ≠ 0 ∧ s.dev.get pgKSMB KSMB.MB_STAT_BUSY = 0) ∧
    (∃ (s : State), s.clocked ∧ s.dev.ksWaits 1 0) ∧
    (∃ (chain : List Nat) (s : State), s.clocked ∧ s.dev.ksWaits 2 0 ∧ s.dev.ks.certs = some chain) ∧
    (∃ (s : State), s.clocked ∧ s.dev.ksWaits 2 0 ∧ s.dev.ks.certs = none) ∧
    (∃ (s : State), s.clocked ∧ s.dev.ksWaits 3 33 ∧ s.dev.mbBody.headD 0 < 2) ∧
    (∃ (took : BitVec 384) (s : State), s.clocked ∧ s.dev.ksWaits 4 0 ∧ s.dev.get pgKSMB KSMB.SVN_RT_SVN ≠ s.dev.get pgKSMB KSMB.SVN_IMAGE) ∧
    (∃ (took : BitVec 384) (s : State), s.clocked ∧ s.dev.ksWaits 4 0 ∧ s.dev.get pgKSMB KSMB.SVN_RT_SVN = s.dev.get pgKSMB KSMB.SVN_IMAGE) ∧
    (∃ (r : Nat) (rsp : List Nat) (s : State), s.clocked ∧ s.dev.get pgKSMB KSMB.MB_STAT_BUSY = 1 ∧ s.dev.ks.result = some (r, rsp) ∧ s.dev.ks.perst = false) ∧
    (∃ (r : Nat) (rsp : List Nat) (s : State), s.clocked ∧ s.dev.get pgKSMB KSMB.MB_STAT_BUSY = 1 ∧ s.dev.ks.result = some (r, rsp) ∧ s.dev.ks.perst = true) ∧
    (∃ (agent : Fin 4) (s : State), s.clocked) :=
  ⟨⟨true, 0, st Dev.reset, by decide +kernel⟩,
   ⟨true, 0, st (mk [(pgKSMB, KSMB.MB_STAT_OWNER, 1)]), by decide +kernel⟩,
   ⟨true, 4, st Dev.reset, by decide +kernel⟩,
   ⟨true, 0, st (mk [(pgKSMB, KSMB.MB_STAT_OWNER, 2)]), by decide +kernel⟩,
   ⟨true, 0, st (mk [(pgKSMB, KSMB.MB_STAT_OWNER, 1)]), by decide +kernel⟩,
   ⟨st (mk [(pgKSMB, KSMB.MB_STAT_OWNER, 1)]), by decide +kernel⟩,
   ⟨st (mk [(pgKSMB, KSMB.MB_STAT_BUSY, 1), (pgKSMB, KSMB.REQ_OPCODE, 1), (pgKSMB, KSMB.BOOT_STATE, 6)]), by decide +kernel⟩,
   ⟨[1, 2], st ((mk [(pgKSMB, KSMB.MB_STAT_BUSY, 1), (pgKSMB, KSMB.REQ_OPCODE, 2), (pgKSMB, KSMB.BOOT_STATE, 6)]).ksUpd fun k => { k with certs := some [1, 2] }), by decide +kernel⟩,
   ⟨st (mk [(pgKSMB, KSMB.MB_STAT_BUSY, 1), (pgKSMB, KSMB.REQ_OPCODE, 2), (pgKSMB, KSMB.BOOT_STATE, 6)]), by decide +kernel⟩,
   ⟨st ((mk [(pgKSMB, KSMB.MB_STAT_BUSY, 1), (pgKSMB, KSMB.REQ_OPCODE, 3), (pgKSMB, KSMB.REQ_LEN, 33), (pgKSMB, KSMB.BOOT_STATE, 6)]).ksUpd fun k => { k with req := [(0, 1), (1, 7), (32, 9)] }), by decide +kernel⟩,
   ⟨0x7DB7, st (mk [(pgKSMB, KSMB.MB_STAT_BUSY, 1), (pgKSMB, KSMB.REQ_OPCODE, 4), (pgKSMB, KSMB.SVN_IMAGE, 5), (pgKSMB, KSMB.BOOT_STATE, 6)]), by decide +kernel⟩,
   ⟨0x7DB7, st (mk [(pgKSMB, KSMB.MB_STAT_BUSY, 1), (pgKSMB, KSMB.REQ_OPCODE, 4), (pgKSMB, KSMB.BOOT_STATE, 6)]), by decide +kernel⟩,
   ⟨4, [3, 2, 1], st ((mk [(pgKSMB, KSMB.MB_STAT_BUSY, 1)]).ksUpd fun k => { k with result := some (4, [3, 2, 1]) }), by decide +kernel⟩,
   ⟨4, [3, 2, 1], st ((mk [(pgKSMB, KSMB.MB_STAT_BUSY, 1)]).ksUpd fun k => { k with result := some (4, [3, 2, 1]), perst := true }), by decide +kernel⟩,
   ⟨2, st Dev.reset, by decide +kernel⟩⟩

/-- The premises of KeystoneOwner can be met, clause by clause. -/
theorem wit_KeystoneOwner :
    (∃ (took : BitVec 3) (s : State), s.clocked ∧ s.dev.ksWaits 5 5261 ∧ s.dev.ks.owner = 0 ∧ s.dev.get pgKSMB KSMB.LIFE = 0 ∧ s.dev.get pgKSMB KSMB.LIFE_PROV = 1) ∧
    (∃ (s : State), s.clocked ∧ s.dev.ksWaits 6 5330 ∧ s.dev.ks.owner ≠ 0 ∧ s.dev.ks.anchors = [] ∧ (part s.dev.mbBody 1952 69).headD 0 ≤ 1) ∧
    (∃ (x : KsSession) (s : State), s.clocked ∧ s.dev.ksWaits 8 7 ∧ s.dev.mbBody.headD 0 ≤ 1 ∧ s.dev.mbBody.getD 1 0 ≤ 31 ∧ s.dev.mbBody.getD 2 0 ≤ 63 ∧ AMap.find? s.dev.ks.sessions (s.dev.mbBody.headD 0) = some x ∧ x.epochs = [] ∧ s.dev.slotInUse (s.dev.mbBody.getD 2 0) = false) ∧
    (∃ (s : State), s.clocked ∧ s.dev.ksWaits 9 1 ∧ (s.dev.mbBody.headD 0 = 1 ∨ s.dev.mbBody.headD 0 = 2)) ∧
    (∃ (s : State), s.clocked ∧ s.dev.ksWaits 10 5261 ∧ s.dev.ks.challenge = none) ∧
    (∃ (v : Nat) (s : State), s.clocked ∧ s.dev.ksWaits 10 5261 ∧ s.dev.ks.challenge = some (v, 2)) ∧
    (∃ (v : Nat) (s : State), s.clocked ∧ s.dev.ksWaits 10 5261 ∧ s.dev.ks.challenge = some (v, 1)) ∧
    (∃ (s : State), s.clocked) :=
  ⟨⟨6, st (mk [(pgKSMB, KSMB.MB_STAT_BUSY, 1), (pgKSMB, KSMB.REQ_OPCODE, 5), (pgKSMB, KSMB.REQ_LEN, 5261), (pgKSMB, KSMB.BOOT_STATE, 6), (pgKSMB, KSMB.LIFE_PROV, 1)]), by decide +kernel⟩,
   ⟨st ((mk [(pgKSMB, KSMB.MB_STAT_BUSY, 1), (pgKSMB, KSMB.REQ_OPCODE, 6), (pgKSMB, KSMB.REQ_LEN, 5330), (pgKSMB, KSMB.BOOT_STATE, 6)]).ksUpd fun k => { k with owner := 3 }), by decide +kernel⟩,
   ⟨⟨9, true, 1, 0, []⟩, st ((mk [(pgKSMB, KSMB.MB_STAT_BUSY, 1), (pgKSMB, KSMB.REQ_OPCODE, 8), (pgKSMB, KSMB.REQ_LEN, 7), (pgKSMB, KSMB.BOOT_STATE, 6)]).ksUpd fun k => { k with req := [(1, 31), (2, 63), (6, 1)], sessions := [(0, ⟨9, true, 1, 0, []⟩)] }), by decide +kernel⟩,
   ⟨st ((mk [(pgKSMB, KSMB.MB_STAT_BUSY, 1), (pgKSMB, KSMB.REQ_OPCODE, 9), (pgKSMB, KSMB.REQ_LEN, 1), (pgKSMB, KSMB.BOOT_STATE, 6)]).ksUpd fun k => { k with req := [(0, 2)] }), by decide +kernel⟩,
   ⟨st (mk [(pgKSMB, KSMB.MB_STAT_BUSY, 1), (pgKSMB, KSMB.REQ_OPCODE, 10), (pgKSMB, KSMB.REQ_LEN, 5261), (pgKSMB, KSMB.BOOT_STATE, 6)]), by decide +kernel⟩,
   ⟨7, st ((mk [(pgKSMB, KSMB.MB_STAT_BUSY, 1), (pgKSMB, KSMB.REQ_OPCODE, 10), (pgKSMB, KSMB.REQ_LEN, 5261), (pgKSMB, KSMB.BOOT_STATE, 6)]).ksUpd fun k => { k with owner := 3, challenge := some (7, 2) }), by decide +kernel⟩,
   ⟨7, st ((mk [(pgKSMB, KSMB.MB_STAT_BUSY, 1), (pgKSMB, KSMB.REQ_OPCODE, 10), (pgKSMB, KSMB.REQ_LEN, 5261), (pgKSMB, KSMB.BOOT_STATE, 6)]).ksUpd fun k => { k with owner := 3, challenge := some (7, 1) }), by decide +kernel⟩,
   ⟨st ((mk [(pgKSMB, KSMB.DEBUG_CHAL_VALID, 1)]).ksUpd fun k => { k with challenge := some (7, 1) }), by decide +kernel⟩⟩

/-- The premises of KeyAgreement can be met, clause by clause. -/
theorem wit_KeyAgreement :
    (∃ (s : State), s.clocked ∧ s.dev.ksWaits 7 1 ∧ s.dev.mbBody.headD 0 = 0 ∧ s.dev.sccUp 0 = true ∧ AMap.find? s.dev.ks.exch 0 = none) ∧
    (∃ (p : Port) (msg : List (BitVec 8)) (s : State), s.clocked ∧ msg.length = 6481 ∧ msg.headD 0 = 0x40 ∧ msg.getD 1 0 = 1 ∧ s.dev.sccUp p = true ∧ AMap.find? s.dev.ks.exch p.val = none) ∧
    (∃ (p : Port) (msg : List (BitVec 8)) (x : KsExch) (s : State), s.clocked ∧ AMap.find? s.dev.ks.exch p.val = some x ∧ msg.length = 6385 ∧ msg.headD 0 = 0x41 ∧ msg.getD 1 0 = 1 ∧ x.initiator = true ∧ x.phase = 1 ∧ beVal (part (bytesOf msg) 2 2) = x.session) ∧
    (∃ (p : Port) (msg : List (BitVec 8)) (agreed : Bool) (x : KsExch) (s : State), s.clocked ∧ AMap.find? s.dev.ks.exch p.val = some x ∧ msg.length = 65 ∧ msg.headD 0 = 0x42 ∧ msg.getD 1 0 = 1 ∧ x.respMsg ≠ [] ∧ (x.phase = 2 ∨ x.phase = 3)) ∧
    (∃ (p : Port) (reason : BitVec 8) (session : BitVec 16) (x : KsExch) (s : State), s.clocked ∧ AMap.find? s.dev.ks.exch p.val = some x ∧ x.session = session.toNat) ∧
    (∃ (p : Port) (x : KsExch) (s : State), s.clocked ∧ AMap.find? s.dev.ks.exch p.val = some x ∧ x.initiator = true ∧ x.phase = 1) ∧
    (∃ (p : Port) (x : KsExch) (s : State), s.clocked ∧ AMap.find? s.dev.ks.exch p.val = some x ∧ (x.phase = 2 ∨ x.phase = 3)) ∧
    (∃ (p : Port) (rec : List (BitVec 8)) (agreed : Bool) (x : KsSession) (s : State), s.clocked ∧ AMap.find? s.dev.ks.sessions p.val = some x) :=
  ⟨⟨st (mk [(pgKSMB, KSMB.MB_STAT_BUSY, 1), (pgKSMB, KSMB.REQ_OPCODE, 7), (pgKSMB, KSMB.REQ_LEN, 1), (pgKSMB, KSMB.BOOT_STATE, 6), (pgSCC 0, SCC.STAT_UP, 1)]), by decide +kernel⟩,
   ⟨0, 0x40 :: 1 :: List.replicate 6479 5, st (mk [(pgSCC 0, SCC.STAT_UP, 1)]), by decide +kernel⟩,
   ⟨0, 0x41 :: 1 :: List.replicate 6383 0, ⟨true, 1, 0, 0, [], [], 0, 1⟩, st ((mk []).ksUpd fun k => { k with exch := [(0, ⟨true, 1, 0, 0, [], [], 0, 1⟩)] }), by decide +kernel⟩,
   ⟨0, 0x42 :: 1 :: List.replicate 63 0, true, ⟨true, 3, 1, 0, [], [1], 0, 1⟩, st ((mk []).ksUpd fun k => { k with exch := [(0, ⟨true, 3, 1, 0, [], [1], 0, 1⟩)] }), by decide +kernel⟩,
   ⟨0, 7, 3, ⟨true, 3, 3, 0, [], [1], 0, 1⟩, st ((mk []).ksUpd fun k => { k with exch := [(0, ⟨true, 3, 3, 0, [], [1], 0, 1⟩)] }), by decide +kernel⟩,
   ⟨0, ⟨true, 1, 3, 0, [9], [1], 0, 4⟩, st ((mk []).ksUpd fun k => { k with exch := [(0, ⟨true, 1, 3, 0, [9], [1], 0, 4⟩)] }), by decide +kernel⟩,
   ⟨1, ⟨false, 2, 3, 0, [9], [1], 0, 0⟩, st ((mk []).ksUpd fun k => { k with exch := [(1, ⟨false, 2, 3, 0, [9], [1], 0, 0⟩)] }), by decide +kernel⟩,
   ⟨1, [1, 0], true, ⟨9, true, 1, 0, []⟩, st ((mk []).ksUpd fun k => { k with sessions := [(1, ⟨9, true, 1, 0, []⟩)] }), by decide +kernel⟩⟩

/-- The premises of TamperResponse can be met, clause by clause. -/
theorem wit_TamperResponse :
    (∃ (monitor : Fin 3) (s : State), s.clocked) ∧
    (∃ (monitor : Fin 3) (s : State), s.clocked) ∧
    (∃ (monitor : Fin 3) (s : State), s.clocked) ∧
    (∃ (w : Word) (s : State), s.clocked ∧ s.dev.get pgKSMB KSMB.STATUS_TAMPER = 1 ∧ s.dev.ks.absent = true ∧ w.getLsbD 1 = false) ∧
    (∃ (w : Word) (s : State), s.clocked ∧ s.dev.get pgKSMB KSMB.STATUS_TAMPER = 1 ∧ s.dev.ks.absent = false ∧ w.getLsbD 1 = false) ∧
    (∃ (s : State), s.clocked ∧ s.dev.get pgKSMB KSMB.STATUS_TAMPER = 1 ∧ s.dev.ks.acked = true) ∧
    (∃ (s : State), s.clocked ∧ s.dev.get pgKSMB KSMB.STATUS_TAMPER = 1 ∧ s.dev.ks.acked = false) ∧
    (∃ (w : Word) (s : State), s.clocked ∧ s.dev.get pgKSMB KSMB.BOOT_STATE = 4 ∧ w.getLsbD 0 = false) ∧
    (∃ (w : Word) (s : State), s.clocked ∧ s.dev.get pgKSMB KSMB.BOOT_STATE ≠ 4 ∧ w.getLsbD 0 = false) :=
  ⟨⟨2, st (Dev.reset.ksUpd fun k => { k with warn := [1, 2] }), by decide +kernel⟩,
   ⟨2, st Dev.reset, by decide +kernel⟩,
   ⟨2, st ((mk [(pgKSMB, KSMB.KA_STATE.at 0, 4)]).ksUpd fun k => { k with sessions := [(0, ⟨9, true, 1, 0, []⟩)] }), by decide +kernel⟩,
   ⟨0, st ((mk [(pgKSMB, KSMB.STATUS_TAMPER, 1), (pgKSMB, KSMB.TAMPER_ZERO, 4)]).ksUpd fun k => { k with absent := true }), by decide +kernel⟩,
   ⟨0, st (mk [(pgKSMB, KSMB.STATUS_TAMPER, 1)]), by decide +kernel⟩,
   ⟨st ((mk [(pgKSMB, KSMB.STATUS_TAMPER, 1), (pgKSMB, KSMB.TAMPER_ZERO, 4)]).ksUpd fun k => { k with acked := true }), by decide +kernel⟩,
   ⟨st (mk [(pgKSMB, KSMB.STATUS_TAMPER, 1), (pgKSMB, KSMB.TAMPER_ZERO, 4)]), by decide +kernel⟩,
   ⟨0, st (mk [(pgKSMB, KSMB.BOOT_STATE, 4)]), by decide +kernel⟩,
   ⟨0, st Dev.reset, by decide +kernel⟩⟩

/-- The premises of ReferenceQualification can be met, clause by clause. -/
theorem wit_ReferenceQualification :
    (∃ (r : Fin 8) (s : State), s.clocked ∧ ((4 ≤ r.val → s.dev.refActive r.val = false)) ∧ s.dev.get pgCLK (CLK.QST.at r.val) = 5 ∧ s.dev.get pgCLK (CLK.REF_CFG_PRIO.at r.val) ≠ 0) ∧
    (∃ (r : Fin 8) (s : State), s.clocked ∧ ((4 ≤ r.val → s.dev.refActive r.val = false)) ∧ s.dev.get pgCLK (CLK.QST.at r.val) ≠ 5 ∧ s.dev.clkSel ≠ some r.val ∧ s.dev.get pgCLK (CLK.REF_CFG_PRIO.at r.val) ≠ 0) ∧
    (∃ (r : Fin 8) (s : State), s.clocked ∧ 4 ≤ r.val ∧ s.dev.refActive r.val = true) ∧
    (∃ (r : Fin 8) (freqs : List (Option (BitVec 64 × BitVec 64))) (dpll : BitVec 32) (phase : BitVec 16) (f : BitVec 64 × BitVec 64) (o : Int) (s : State), s.clocked ∧ ((4 ≤ r.val → s.dev.refActive r.val = true)) ∧ freqs.getD r none = some f ∧ f.2 ≠ 0 ∧ (s.dev.refOffset r.val (f.1.toNat, f.2.toNat)).1 = o * (s.dev.refOffset r.val (f.1.toNat, f.2.toNat)).2 ∧ o.natAbs ≤ s.dev.softLim ∧ s.dev.get pgCLK (CLK.QST.at r.val) = 3 ∧ s.dev.get pgCLK (CLK.GOOD.at r.val) = 9 ∧ s.dev.get pgCLK (CLK.REF_CFG_PRIO.at r.val) ≠ 0 ∧ s.dev.get pgCLK CLK.CTL_QLMODE = 0 ∧ s.dev.get pgCLK (CLK.CAND.at r.val) = 0) ∧
    (∃ (r : Fin 8) (freqs : List (Option (BitVec 64 × BitVec 64))) (dpll : BitVec 32) (phase : BitVec 16) (f : BitVec 64 × BitVec 64) (o : Int) (s : State), s.clocked ∧ ((4 ≤ r.val → s.dev.refActive r.val = true)) ∧ freqs.getD r none = some f ∧ f.2 ≠ 0 ∧ (s.dev.refOffset r.val (f.1.toNat, f.2.toNat)).1 = o * (s.dev.refOffset r.val (f.1.toNat, f.2.toNat)).2 ∧ s.dev.softLim < o.natAbs ∧ s.dev.get pgCLK (CLK.QST.at r.val) = 5 ∧ s.dev.get pgCLK (CLK.SOFT1.at r.val) = 1 ∧ s.dev.get pgCLK (CLK.REF_CFG_PRIO.at r.val) ≠ 0) ∧
    (∃ (r : Fin 8) (f : BitVec 64 × BitVec 64) (s : State), s.clocked ∧ f.2 ≠ 0 ∧ s.dev.hardLim * (s.dev.refOffset r.val (f.1.toNat, f.2.toNat)).2.natAbs < (s.dev.refOffset r.val (f.1.toNat, f.2.toNat)).1.natAbs ∧ s.dev.get pgCLK (CLK.QST.at r.val) = 5 ∧ s.dev.get pgCLK (CLK.REF_CFG_PRIO.at r.val) ≠ 0) ∧
    (∃ (r : Fin 8) (f : BitVec 64 × BitVec 64) (s : State), s.clocked ∧ f.2 ≠ 0 ∧ (s.dev.refOffset r.val (f.1.toNat, f.2.toNat)).1.natAbs ≤ s.dev.hardLim * (s.dev.refOffset r.val (f.1.toNat, f.2.toNat)).2.natAbs) ∧
    (∃ (r : Fin 8) (s : State), s.clocked ∧ s.dev.get pgCLK (CLK.QST.at r.val) = 4) ∧
    (∃ (r : Fin 8) (w : Word) (s : State), s.clocked ∧ w.getLsbD r.val = true ∧ s.dev.get pgCLK (CLK.QST.at r.val) = 4) ∧
    (∃ (w : Word) (s : State), s.clocked) ∧
    (∃ (n : Fin 4) (d : Dev), d.get pgCLK (CLK.OUT_EN.at n.val) = 0) ∧
    (∃ (n : Fin 4) (d : Dev), d.get pgCLK (CLK.OUT_SQUELCH.at n.val) ≠ 0 ∧ d.dpll = 0) ∧
    (∃ (n : Fin 4) (d : Dev), d.get pgCLK (CLK.OUT_EN.at n.val) = 1 ∧ d.get pgCLK (CLK.OUT_SQUELCH.at n.val) = 0) :=
  ⟨⟨3, st (mk [(pgCLK, CLK.QST.at 3, 5), (pgCLK, CLK.REF_CFG_PRIO.at 3, 2), (pgCLK, CLK.ACT.at 3, 1)]), by decide +kernel⟩,
   ⟨3, st (mk [(pgCLK, CLK.QST.at 3, 3), (pgCLK, CLK.REF_CFG_PRIO.at 3, 2), (pgCLK, CLK.ACT.at 3, 1)]), by decide +kernel⟩,
   ⟨7, st (mk [(pgCLK, CLK.REF_CFG_LANE.at 7, 0), (pgHLN 0, HLN.STATUS_SIG_DET, 1), (pgHLN 0, HLN.STATUS_CDR_LOCK, 1), (pgHLN 0, HLN.STATUS_ADAPT_DONE, 1)]), by decide +kernel⟩,
   ⟨1, [none, some (1, 100000000)], 3, 4, (1, 100000000), 0, st (mk [(pgCLK, CLK.REFIN_FREQ_HZ.at 1, 10000000), (pgCLK, CLK.QST.at 1, 3), (pgCLK, CLK.REF_CFG_PRIO.at 1, 2), (pgCLK, CLK.GOOD.at 1, 9), (pgCLK, CLK.CTL_QLMODE, 0)]), by decide +kernel⟩,
   ⟨1, [none, some (10000200, 10 ^ 15)], 3, 4, (10000200, 10 ^ 15), 200000, st (mk [(pgCLK, CLK.REFIN_FREQ_HZ.at 1, 10000000), (pgCLK, CLK.QST.at 1, 5), (pgCLK, CLK.SOFT1.at 1, 1), (pgCLK, CLK.REF_CFG_PRIO.at 1, 2), (pgCLK, CLK.MON_LIM_SOFT, 10)]), by decide +kernel⟩,
   ⟨7, (1, 1), st (mk [(pgCLK, CLK.QST.at 7, 5), (pgCLK, CLK.REF_CFG_PRIO.at 7, 2)]), by decide +kernel⟩,
   ⟨1, (1, 100000000), st (mk [(pgCLK, CLK.REFIN_FREQ_HZ.at 1, 10000000), (pgCLK, CLK.QST.at 1, 5), (pgCLK, CLK.REF_CFG_PRIO.at 1, 2)]), by decide +kernel⟩,
   ⟨7, st (mk [(pgCLK, CLK.QST.at 7, 4), (pgCLK, CLK.WAIT.at 7, 9)]), by decide +kernel⟩,
   ⟨7, 0x80, st (mk [(pgCLK, CLK.QST.at 7, 4), (pgCLK, CLK.WAIT.at 7, 9)]), by decide +kernel⟩,
   ⟨0, st { Dev.reset with clkHist := [5] }, by decide +kernel⟩,
   ⟨2, mk [(pgCLK, CLK.DRIVE.at 2, 8000)], by decide +kernel⟩,
   ⟨2, mk [(pgCLK, CLK.DRIVE.at 2, 8000), (pgCLK, CLK.OUT_SQUELCH.at 2, 1)], by decide +kernel⟩,
   ⟨2, mk [(pgCLK, CLK.OUT_EN.at 2, 1), (pgCLK, CLK.OUT_HZ.at 2, 4)], by decide +kernel⟩⟩

/-- The premises of ClockSelection can be met, clause by clause. -/
theorem wit_ClockSelection :
    (∃ (w : Word) (s : State), s.clocked) ∧
    (∃ (r : Fin 8) (w : Word) (s : State), s.clocked) ∧
    (∃ (h : Fin 2) (m : EsmcPdu) (s : State), s.clocked ∧ s.dev.qlSrc (6 + h.val) = 1 ∧ s.dev.esmcOwned (6 + h.val) = true ∧ esmcOk m = true) ∧
    (∃ (h : Fin 2) (m : EsmcPdu) (s : State), s.clocked ∧ s.dev.qlSrc (6 + h.val) = 1 ∧ s.dev.esmcOwned (6 + h.val) = true ∧ esmcOk m = false) ∧
    (∃ (h : Fin 2) (m : EsmcPdu) (s : State), s.clocked ∧ (s.dev.qlSrc (6 + h.val) ≠ 1 ∨ s.dev.esmcOwned (6 + h.val) = false)) ∧
    (∃ (r : Fin 8) (s : State), s.clocked ∧ (s.dev.qlSrc r.val = 1 ∨ (s.dev.qlSrc r.val = 2 ∧ 16 ≤ s.dev.get pgCLK (CLK.QL_MISS.at r.val)))) ∧
    (∃ (p : Port) (ssm : BitVec 4) (essm : BitVec 8) (s : State), s.clocked ∧ s.dev.qlSrc (4 + p.val) = 2 ∧ s.dev.get (pgSCC p) SCC.STAT_UP = 1) ∧
    (∃ (phase : BitVec 16) (s : State), s.clocked ∧ s.dev.dpll = 1) ∧
    (∃ (phase : BitVec 16) (s : State), s.clocked ∧ s.dev.dpll = 2) ∧
    (∃ (phase : BitVec 16) (s : State), s.clocked ∧ s.dev.dpll ≠ 1) ∧
    (∃ (phase : BitVec 16) (s : State), s.clocked ∧ s.dev.dpll ≠ 2) :=
  ⟨⟨0x12345, st Dev.reset, by decide +kernel⟩,
   ⟨5, 0x12345, st Dev.reset, by decide +kernel⟩,
   ⟨0, ⟨0x0180C2000002, 0x8809, 0x0A, 0x0019A7, 1, 1, 4, 0xF2, some (2, 20, 0x21)⟩, st (mk [(pgCLK, CLK.REF_CFG_QL_SRC.at 6, 1), (pgCLK, CLK.REF_CFG_LANE.at 6, 3), (pgCLI 3, CLI.CFG_TYPE, 1)]), by decide +kernel⟩,
   ⟨0, ⟨0x0180C2000002, 0x8809, 0x0A, 0x0019A7, 1, 1, 5, 0xF2, none⟩, st (mk [(pgCLK, CLK.REF_CFG_QL_SRC.at 6, 1), (pgCLK, CLK.REF_CFG_LANE.at 6, 3), (pgCLI 3, CLI.CFG_TYPE, 1)]), by decide +kernel⟩,
   ⟨0, ⟨0x0180C2000002, 0x8809, 0x0A, 0x0019A7, 1, 1, 5, 0xF2, none⟩, st Dev.reset, by decide +kernel⟩,
   ⟨6, st (mk [(pgCLK, CLK.REF_CFG_QL_SRC.at 6, 1)]), by decide +kernel⟩,
   ⟨1, 4, 0xFF, st (mk [(pgCLK, CLK.REF_CFG_QL_SRC.at 5, 2), (pgSCC 1, SCC.STAT_UP, 1)]), by decide +kernel⟩,
   ⟨7, st (mk [(pgCLK, CLK.DPLL_STAT_STATE, 1), (pgCLK, CLK.DPLL_STAT_STAGE, 6)]), by decide +kernel⟩,
   ⟨7, st (mk [(pgCLK, CLK.DPLL_STAT_STATE, 2), (pgCLK, CLK.DPLL_STAT_STAGE, 6)]), by decide +kernel⟩,
   ⟨7, st Dev.reset, by decide +kernel⟩,
   ⟨7, st Dev.reset, by decide +kernel⟩⟩

/-- The premises of TimeBases can be met, clause by clause. -/
theorem wit_TimeBases :
    (∃ (n : Fin 4) (w : Word) (s : State), s.clocked) ∧
    (∃ (n : Fin 4) (w : Word) (s : State), s.clocked) ∧
    (∃ (p : Port) (span : BitVec 8) (ns : BitVec 64) (frac : BitVec 16) (k : Nat) (s : State), s.clocked ∧ s.dev.tlOn p = true ∧ s.dev.rxValid p = true ∧ spanOfByte (s.dev.rxSpan p) span.toNat = some k ∧ AMap.find? (s.dev.link.get p).t1 k = none) ∧
    (∃ (p : Port) (span : BitVec 8) (ns : BitVec 64) (frac : BitVec 16) (k t1 t2 t4 : Nat) (s : State), s.clocked ∧ s.dev.tlOn p = true ∧ s.dev.rxValid p = true ∧ spanOfByte (s.dev.rxSpan p) span.toNat = some k ∧ k ∉ (s.dev.link.get p).sets ∧ AMap.find? (s.dev.link.get p).t1 k = some t1 ∧ AMap.find? (s.dev.link.get p).t2 k = some t2 ∧ AMap.find? (s.dev.link.get p).t4 k = some t4) ∧
    (∃ (p : Port) (span : BitVec 8) (ns : BitVec 64) (frac : BitVec 16) (s : State), s.clocked ∧ (s.dev.tlOn p = false ∨ s.dev.rxValid p = false ∨ spanOfByte (s.dev.rxSpan p) span.toNat = none)) ∧
    (∃ (p : Port) (span : BitVec 8) (ns : BitVec 64) (frac : BitVec 16) (k : Nat) (s : State), s.clocked ∧ s.dev.tlOn p = true ∧ spanOfByte (s.dev.txSpan p) span.toNat = some k ∧ AMap.find? (s.dev.link.get p).t4 k = none) ∧
    (∃ (p : Port) (span : BitVec 8) (ns : BitVec 64) (frac : BitVec 16) (k t1 t3 t4 : Nat) (s : State), s.clocked ∧ s.dev.tlOn p = true ∧ spanOfByte (s.dev.txSpan p) span.toNat = some k ∧ k ∉ (s.dev.link.get p).sets ∧ AMap.find? (s.dev.link.get p).t1 k = some t1 ∧ AMap.find? (s.dev.link.get p).t3 k = some t3 ∧ AMap.find? (s.dev.link.get p).t4 k = some t4) ∧
    (∃ (p : Port) (span : BitVec 8) (ns : BitVec 64) (frac : BitVec 16) (s : State), s.clocked ∧ (s.dev.tlOn p = false ∨ spanOfByte (s.dev.txSpan p) span.toNat = none)) ∧
    (∃ (s : State), s.clocked ∧ s.dev.get pgCLK (CLK.DRIVE.at 3) = 1 ∧ s.dev.get pgTB TB.SECOND = 1) ∧
    (∃ (s : State), s.clocked ∧ s.dev.get pgTB TB.PPS_PIN = 1) ∧
    (∃ (s : State), s.clocked ∧ s.dev.get pgCLK (CLK.REFIN_FREQ_PPS.at 3) = 1) ∧
    (∃ (s : State), s.clocked ∧ s.dev.get pgCLK (CLK.REFIN_FREQ_PPS.at 3) = 0) ∧
    (∃ (c : Fin 32) (m : PtpMsg) (e i : Nat) (s : State), s.clocked ∧ s.dev.ptpFind c (ptpBytes m) = some (e, i) ∧ s.dev.get (pgCLI c) CLI.PTP_TB < 4 ∧ (s.dev.get (pgCLI c) CLI.TS_WR_IN + 256 - s.dev.get (pgCLI c) CLI.TS_RD_IN) % 256 ≠ 32) ∧
    (∃ (c : Fin 32) (m : PtpMsg) (e i : Nat) (s : State), s.clocked ∧ s.dev.ptpFind c (ptpBytes m) = some (e, i) ∧ (s.dev.get (pgCLI c) CLI.TS_WR_IN + 256 - s.dev.get (pgCLI c) CLI.TS_RD_IN) % 256 = 32) ∧
    (∃ (c : Fin 32) (m : PtpMsg) (s : State), s.clocked ∧ s.dev.ptpFind c (ptpBytes m) = none) ∧
    (∃ (c : Fin 32) (m : PtpMsg) (e i : Nat) (s : State), s.clocked ∧ s.dev.ptpFind c (ptpBytes m) = some (e, i) ∧ s.dev.get (pgCLI c) CLI.PTP_TB < 4 ∧ (s.dev.get (pgCLI c) CLI.TS_WR_EG + 256 - s.dev.get (pgCLI c) CLI.TS_RD_EG) % 256 ≠ 32) ∧
    (∃ (c : Fin 32) (m : PtpMsg) (e i : Nat) (s : State), s.clocked ∧ s.dev.ptpFind c (ptpBytes m) = some (e, i) ∧ (s.dev.get (pgCLI c) CLI.TS_WR_EG + 256 - s.dev.get (pgCLI c) CLI.TS_RD_EG) % 256 = 32) ∧
    (∃ (c : Fin 32) (m : PtpMsg) (s : State), s.clocked ∧ s.dev.ptpFind c (ptpBytes m) = none) :=
  ⟨⟨2, 12, st (mk [(pgTB, TB.STEP_NS_LO.at 2, 5), (pgTB, TB.STEP_NS_HI.at 2, 0xFFFFFFFF)]), by decide +kernel⟩,
   ⟨3, 4, st { Dev.reset with tb := [(3, 2 ^ 70 * 45)] }, by decide +kernel⟩,
   ⟨0, 0, 9, 1, 0, st (mk [(pgTB, TB.SCC_CTL_EN, 3), (pgLFR 0, LFR.SPAN_RXPOS_VALID, 1)]), by decide +kernel⟩,
   ⟨0, 0, 9, 1, 0, 5, 6, 8, st { (mk [(pgTB, TB.SCC_CTL_EN, 3), (pgLFR 0, LFR.SPAN_RXPOS_VALID, 1)]) with link := ⟨⟨[(0, 5)], [(0, 6)], [], [(0, 8)], none, []⟩, ⟨[], [], [], [], none, []⟩⟩ }, by decide +kernel⟩,
   ⟨1, 0, 9, 1, st Dev.reset, by decide +kernel⟩,
   ⟨1, 0, 9, 1, 0, st (mk [(pgTB, TB.SCC_CTL_EN, 3)]), by decide +kernel⟩,
   ⟨1, 0, 9, 1, 0, 5, 7, 8, st { (mk [(pgTB, TB.SCC_CTL_EN, 3), (pgLFR 1, LFR.SPAN_RXPOS_VALID, 1)]) with link := ⟨⟨[], [], [], [], none, []⟩, ⟨[(0, 5)], [], [(0, 7)], [(0, 8)], none, []⟩⟩ }, by decide +kernel⟩,
   ⟨1, 0, 9, 1, st Dev.reset, by decide +kernel⟩,
   ⟨st (mk [(pgCLK, CLK.DRIVE.at 3, 1), (pgTB, TB.SECOND, 1)]), by decide +kernel⟩,
   ⟨st (mk [(pgTB, TB.PPS_PIN, 1)]), by decide +kernel⟩,
   ⟨st { (mk [(pgCLK, CLK.REFIN_FREQ_PPS.at 3, 1)]) with tb := [(0, 2 ^ 70 * 45)] }, by decide +kernel⟩,
   ⟨st (mk [(pgCLK, CLK.REFIN_FREQ_PPS.at 3, 0)]), by decide +kernel⟩,
   ⟨9, ⟨List.replicate 12 0 ++ [0x88, 0xF7] ++ List.replicate 40 1, true, 5⟩, 0, 14, st (mk [(pgCLI 9, CLI.CFG_TYPE, 1), (pgCLI 9, CLI.PTP_EN, 1), (pgCLI 9, CLI.PTP_L2, 1), (pgCLI 9, CLI.TS_WR_IN, 31)]), by decide +kernel⟩,
   ⟨9, ⟨List.replicate 12 0 ++ [0x88, 0xF7] ++ List.replicate 40 1, true, 5⟩, 0, 14, st (mk [(pgCLI 9, CLI.CFG_TYPE, 1), (pgCLI 9, CLI.PTP_EN, 1), (pgCLI 9, CLI.PTP_L2, 1), (pgCLI 9, CLI.TS_WR_IN, 32)]), by decide +kernel⟩,
   ⟨9, ⟨[], false, 0⟩, st Dev.reset, by decide +kernel⟩,
   ⟨9, ⟨List.replicate 12 0 ++ [0x88, 0xF7] ++ List.replicate 40 1, true, 5⟩, 0, 14, st (mk [(pgCLI 9, CLI.CFG_TYPE, 1), (pgCLI 9, CLI.PTP_EN, 1), (pgCLI 9, CLI.PTP_L2, 1), (pgCLI 9, CLI.TS_WR_EG, 31)]), by decide +kernel⟩,
   ⟨9, ⟨List.replicate 12 0 ++ [0x88, 0xF7] ++ List.replicate 40 1, true, 5⟩, 0, 14, st (mk [(pgCLI 9, CLI.CFG_TYPE, 1), (pgCLI 9, CLI.PTP_EN, 1), (pgCLI 9, CLI.PTP_L2, 1), (pgCLI 9, CLI.TS_WR_EG, 32)]), by decide +kernel⟩,
   ⟨9, ⟨[], false, 0⟩, st Dev.reset, by decide +kernel⟩⟩

/-- The premises of TimedLaunch can be met, clause by clause. -/
theorem wit_TimedLaunch :
    (∃ (w : Word) (s : State), s.clocked ∧ s.dev.get pgTLQ TLQ.STATUS_ENQ_BUSY = 0) ∧
    (∃ (w : Word) (s : State), s.clocked ∧ w.getLsbD 1 = false ∧ s.dev.get pgTLQ TLQ.STATUS_ENQ_BUSY = 1) ∧
    (∃ (r : TlqReq) (s : State), s.clocked ∧ s.dev.tlqEnq = some r ∧ s.dev.tlqOutcome r = 1 ∧ s.dev.merge = [] ∧ r.addr % 8 = 0 ∧ ((∀ w < r.len, s.dev.wordSyn 2 (r.addr / 8 + w) = 0))) ∧
    (∃ (r : TlqReq) (s : State), s.clocked ∧ s.dev.tlqEnq = some r ∧ s.dev.tlqOutcome r ≠ 1) ∧
    (∃ (w : Word) (s : State), s.clocked ∧ (s.dev.tlq.map (·.idx)).Nodup) ∧
    (∃ (e : BitVec 7) (x : TlqEntry) (s : State), s.clocked ∧ s.dev.tlq.find? (·.idx == e.toNat) = some x ∧ x.launched = none ∧ s.dev.tlqIsDue x = true ∧ s.dev.tlqBlocked x = false ∧ x.req.scc = false ∧ s.dev.get (pgCLI x.req.client) CLI.EG_OPEN = 0 ∧ s.dev.tlqIsLate x = false ∧ s.dev.tlqNoDest x.req = false) ∧
    (∃ (e : BitVec 7) (x : TlqEntry) (s : State), s.clocked ∧ s.dev.tlq.find? (·.idx == e.toNat) = some x ∧ x.launched = none ∧ s.dev.tlqIsDue x = true ∧ s.dev.tlqBlocked x = false ∧ x.req.scc = true ∧ s.dev.tlqIsLate x = false ∧ s.dev.tlqNoDest x.req = false) ∧
    (∃ (e : BitVec 7) (x : TlqEntry) (s : State), s.clocked ∧ s.dev.tlq.find? (·.idx == e.toNat) = some x ∧ x.launched = none ∧ s.dev.tlqIsDue x = true ∧ s.dev.tlqBlocked x = false ∧ s.dev.tlqIsLate x = true ∧ (x.req.scc = true ∨ s.dev.get (pgCLI x.req.client) CLI.EG_OPEN = 0)) ∧
    (∃ (e : BitVec 7) (x : TlqEntry) (s : State), s.clocked ∧ s.dev.tlq.find? (·.idx == e.toNat) = some x ∧ x.launched = none ∧ s.dev.tlqIsDue x = true ∧ s.dev.tlqBlocked x = false ∧ s.dev.tlqIsLate x = false ∧ s.dev.tlqNoDest x.req = true) ∧
    (∃ (e : BitVec 7) (x : TlqEntry) (s : State), s.clocked ∧ s.dev.tlq.find? (·.idx == e.toNat) = some x ∧ (s.dev.tlqIsDue x = false ∨ s.dev.tlqBlocked x = true)) ∧
    (∃ (e : BitVec 7) (lag : BitVec 32) (x : TlqEntry) (t : Nat) (s : State), s.clocked ∧ s.dev.tlq.find? (·.idx == e.toNat) = some x ∧ x.launched = some t ∧ (x.req.scc = false ∨ (s.dev.scc.get x.req.port).tx2.any (·.entry == e.toNat + 1) = false) ∧ (s.dev.get pgTLQ TLQ.DONE_WR_WR + 256 - s.dev.get pgTLQ TLQ.DONE_RD_RD) % 256 ≠ 32) :=
  ⟨⟨0, st (mk [(pgTLQ, TLQ.ENQ_LEN_LEN, 64), (pgTLQ, TLQ.ENQ_TAG_TAG, 7)]), by decide +kernel⟩,
   ⟨0, st (mk [(pgTLQ, TLQ.STATUS_ENQ_BUSY, 1)]), by decide +kernel⟩,
   ⟨⟨8, 5, true, 0, false, 1, 9, 7⟩, st { Dev.reset with tlqEnq := some ⟨8, 5, true, 0, false, 1, 9, 7⟩ }, by decide +kernel⟩,
   ⟨⟨8, 513, true, 0, false, 1, 9, 7⟩, st { Dev.reset with tlqEnq := some ⟨8, 513, true, 0, false, 1, 9, 7⟩ }, by decide +kernel⟩,
   ⟨0, st { Dev.reset with tlq := [⟨4, ⟨8, 5, true, 0, false, 1, 9, 7⟩, [1, 2], none, false, false⟩, ⟨5, ⟨8, 5, true, 0, false, 1, 9, 7⟩, [1, 2], some 3, false, false⟩] }, by decide +kernel⟩,
   ⟨4, ⟨4, ⟨8, 5, false, 3, false, 1, 0, 7⟩, [1, 2], none, false, false⟩, st { (mk [(pgLDSYS 0, LDSYS.STATUS_READY, 1), (pgCLI 3, CLI.STATUS_RX_LIVE, 1), (pgCLI 3, CLI.CFG_TYPE, 1)]) with tlq := [⟨4, ⟨8, 5, false, 3, false, 1, 0, 7⟩, [1, 2], none, false, false⟩] }, by decide +kernel⟩,
   ⟨4, ⟨4, ⟨8, 5, true, 0, false, 1, 0, 7⟩, [1, 2], none, false, false⟩, st { (mk [(pgLDSYS 0, LDSYS.STATUS_READY, 1), (pgSCC 0, SCC.STAT_UP, 1)]) with tlq := [⟨4, ⟨8, 5, true, 0, false, 1, 0, 7⟩, [1, 2], none, false, false⟩] }, by decide +kernel⟩,
   ⟨4, ⟨4, ⟨8, 5, false, 3, false, 1, 0, 7⟩, [1, 2], none, false, false⟩, st { Dev.reset with tb := [(1, 2 ^ 50 * tbParts)], tlq := [⟨4, ⟨8, 5, false, 3, false, 1, 0, 7⟩, [1, 2], none, false, false⟩] }, by decide +kernel⟩,
   ⟨4, ⟨4, ⟨8, 5, false, 3, false, 1, 0, 7⟩, [1, 2], none, false, false⟩, st { Dev.reset with tlq := [⟨4, ⟨8, 5, false, 3, false, 1, 0, 7⟩, [1, 2], none, false, false⟩] }, by decide +kernel⟩,
   ⟨4, ⟨4, ⟨8, 5, false, 3, false, 1, 9, 7⟩, [1, 2], none, false, false⟩, st { Dev.reset with tlq := [⟨4, ⟨8, 5, false, 3, false, 1, 9, 7⟩, [1, 2], none, false, false⟩] }, by decide +kernel⟩,
   ⟨4, 3, ⟨4, ⟨8, 5, false, 3, true, 1, 0, 7⟩, [1, 2], some 99, false, false⟩, 99, st { Dev.reset with tlq := [⟨4, ⟨8, 5, false, 3, true, 1, 0, 7⟩, [1, 2], some 99, false, false⟩] }, by decide +kernel⟩⟩

/-- The premises of HangerReception can be met, clause by clause. -/
theorem wit_HangerReception :
    (∃ (n : Fin 4) (corr : BitVec 9) (peak : BitVec 32) (line : List EchoSample) (s : State), s.clocked ∧ s.dev.hgLink n.val ≠ 0 ∧ s.dev.get (pgHG n.val) HGL.DET_CTL_THR ≤ corr.toNat ∧ (s.dev.hgs n.val).rx ≠ 2) ∧
    (∃ (n : Fin 4) (corr : BitVec 9) (peak : BitVec 32) (line : List EchoSample) (s : State), s.clocked ∧ s.dev.hgLink n.val ≠ 0 ∧ corr.toNat < s.dev.get (pgHG n.val) HGL.DET_CTL_THR) ∧
    (∃ (mu : Nat) (e : HgEcho × Bool) (x : EchoSample), True) ∧
    (∃ (mu : Nat) (freeze : Bool) (e : HgEcho × Bool) (x : EchoSample), x.far = true) ∧
    (∃ (n : Fin 4) (corr : BitVec 9) (peak : BitVec 32) (line : List EchoSample) (s : State), s.clocked ∧ s.dev.hgLink n.val ≠ 0 ∧ s.dev.get (pgHG n.val) HGL.DET_CTL_THR ≤ corr.toNat ∧ (s.dev.hgs n.val).rx = 2) ∧
    (∃ (n : Fin 4) (corr : BitVec 9) (peak : BitVec 32) (line : List EchoSample) (s : State), s.clocked ∧ s.dev.hgLink n.val = 0) ∧
    (∃ (n : Fin 4) (w : BitVec 32) (s : State), s.clocked ∧ (s.dev.hgs n.val).rx = 1) ∧
    (∃ (n : Fin 4) (w : BitVec 32) (s : State), s.clocked ∧ (s.dev.hgs n.val).rx ≠ 1) ∧
    (∃ (n : Fin 4) (words : List (List Int)) (s : State), s.clocked ∧ (s.dev.hgs n.val).rx = 2) ∧
    (∃ (n : Fin 4) (words : List (List Int)) (typ seq : Nat) (s : State), s.clocked ∧ (s.dev.hgs n.val).rx = 2 ∧ 2 ≤ s.dev.hgLink n.val ∧ typ = bitsOf (s.dev.hgs n.val).rxHdr 28 4 ∧ seq = bitsOf (s.dev.hgs n.val).rxHdr 8 16 ∧ typ ≤ 7 ∧ ((hgReliable typ = true → (s.dev.hgs n.val).lastRel ≠ some seq)) ∧ (s.dev.hgs n.val).rel = none ∧ (s.dev.hgs n.val).queue = []) ∧
    (∃ (n : Fin 4) (tag : BitVec 16) (lo hi : Word) (s : State), s.clocked ∧ (s.dev.hgs n.val).idTag = some tag.toNat ∧ s.dev.hgSerial n.val HGL.ID_EXP_LO_SERIAL HGL.ID_EXP_HI_SERIAL = lo.toNat + 2 ^ 32 * hi.toNat) ∧
    (∃ (n : Fin 4) (tag : BitVec 16) (lo hi : Word) (s : State), s.clocked ∧ (s.dev.hgs n.val).idTag = some tag.toNat ∧ s.dev.hgSerial n.val HGL.ID_EXP_LO_SERIAL HGL.ID_EXP_HI_SERIAL ≠ 0 ∧ s.dev.hgSerial n.val HGL.ID_EXP_LO_SERIAL HGL.ID_EXP_HI_SERIAL ≠ lo.toNat + 2 ^ 32 * hi.toNat) ∧
    (∃ (n : Fin 4) (tag : BitVec 16) (status : BitVec 8) (words : List Word) (r : HgReq) (s : State), s.clocked ∧ (s.dev.hgs n.val).idTag ≠ some tag.toNat ∧ (s.dev.hgs n.val).reqs.find? (·.tag == tag.toNat) = some r ∧ r.secure = false ∧ r.count ≤ 16) ∧
    (∃ (n : Fin 4) (tag : BitVec 16) (status : BitVec 8) (words : List Word) (r : HgReq) (s : State), s.clocked ∧ (s.dev.hgs n.val).idTag ≠ some tag.toNat ∧ (s.dev.hgs n.val).reqs.find? (·.tag == tag.toNat) = some r ∧ r.secure = true) ∧
    (∃ (n : Fin 4) (tag : BitVec 16) (status : BitVec 8) (words : List Word) (s : State), s.clocked ∧ (s.dev.hgs n.val).idTag ≠ some tag.toNat ∧ (s.dev.hgs n.val).reqs.find? (·.tag == tag.toNat) = none) ∧
    (∃ (n : Fin 4) (seq : BitVec 16) (body : List (BitVec 8)) (a b : Nat) (s : State), s.clocked ∧ s.dev.merge = [] ∧ (s.dev.get (pgHG n.val) HGL.STAT_TEL_WR + 256 - s.dev.get (pgHG n.val) HGL.TEL_RD_RD) % 256 ≠ 16 ∧ b = (s.dev.get (pgHG n.val) HGL.TEL_BASE_ADDR / 4096 * 4096 + 1024 * (s.dev.get (pgHG n.val) HGL.STAT_TEL_WR % 16)) % 2 ^ 26) ∧
    (∃ (n : Fin 4) (seq : BitVec 16) (body : List (BitVec 8)) (s : State), s.clocked ∧ (s.dev.get (pgHG n.val) HGL.STAT_TEL_WR + 256 - s.dev.get (pgHG n.val) HGL.TEL_RD_RD) % 256 = 16) ∧
    (∃ (n : Fin 4) (h : Fin 16) (st : BitVec 8) (t : HgTimed) (s : State), s.clocked ∧ AMap.find? (s.dev.hgs n.val).timed h.val = some t ∧ t.fired = true ∧ s.dev.tmdState n.val h.val = 2) ∧
    (∃ (n : Fin 4) (code b1 b2 : BitVec 8) (s : State), s.clocked ∧ code.toNat < 0x10 ∧ code ≠ 3) ∧
    (∃ (n : Fin 4) (code b1 b2 : BitVec 8) (s : State), s.clocked ∧ 0x10 ≤ code.toNat) :=
  ⟨⟨3, 511, 9, [⟨5, some 3, false⟩, ⟨7, none, true⟩], st (mk [(pgHG 3, HGL.STATUS_LINK, 1)]), by decide +kernel⟩,
   ⟨3, 0, 9, [⟨5, some 3, false⟩, ⟨7, none, true⟩], st (mk [(pgHG 3, HGL.STATUS_LINK, 1), (pgHG 3, HGL.DET_CTL_THR, 300)]), by decide +kernel⟩,
   ⟨4, (HgEcho.reset, true), ⟨5, some 3, false⟩, by decide +kernel⟩,
   ⟨4, false, (HgEcho.reset, true), ⟨5, some 3, true⟩, by decide +kernel⟩,
   ⟨3, 511, 9, [], st ((mk [(pgHG 3, HGL.STATUS_LINK, 1)]).hgUpd 3 fun h => { h with rx := 2, peak := 2 }), by decide +kernel⟩,
   ⟨3, 511, 9, [], st Dev.reset, by decide +kernel⟩,
   ⟨3, 0x00000107, st ((mk []).hgUpd 3 fun h => { h with rx := 1 }), by decide +kernel⟩,
   ⟨3, 0x00000107, st Dev.reset, by decide +kernel⟩,
   ⟨3, [-1 :: List.replicate 1023 0], st ((mk []).hgUpd 3 fun h => { h with rx := 2 }), by decide +kernel⟩,
   ⟨3, [(hangerCode.encode (([0, 0, 0, 0, 0, 2, 8, 9] ++ List.replicate 88 0).flatMap fun v => bitsMsb 8 v)).map fun b => if b then -5 else 5], 4, 77, st ((mk [(pgHG 3, HGL.STATUS_LINK, 4)]).hgUpd 3 fun h => { h with rx := 2, rxHdr := hgHeader 4 1 false 77 }), by decide +kernel⟩,
   ⟨3, 5, 1, 2, st ((mk [(pgHG 3, HGL.STATUS_LINK, 2), (pgHG 3, HGL.ID_EXP_LO_SERIAL, 1), (pgHG 3, HGL.ID_EXP_HI_SERIAL, 2)]).hgUpd 3 fun h => { h with idTag := some 5 }), by decide +kernel⟩,
   ⟨3, 5, 1, 2, st ((mk [(pgHG 3, HGL.STATUS_LINK, 2), (pgHG 3, HGL.ID_EXP_LO_SERIAL, 3)]).hgUpd 3 fun h => { h with idTag := some 5 }), by decide +kernel⟩,
   ⟨3, 5, 0, [9], ⟨5, false, true, 1, none⟩, st ((mk [(pgHG 3, HGL.STATUS_REQ_BUSY, 1)]).hgUpd 3 fun h => { h with reqs := [⟨5, false, true, 1, none⟩] }), by decide +kernel⟩,
   ⟨3, 5, 0, [9], ⟨5, true, true, 1, none⟩, st ((mk [(pgHG 3, HGL.STATUS_REQ_BUSY, 1)]).hgUpd 3 fun h => { h with reqs := [⟨5, true, true, 1, none⟩] }), by decide +kernel⟩,
   ⟨3, 5, 0, [9], st Dev.reset, by decide +kernel⟩,
   ⟨3, 0x1234, [7, 0, 9, 1, 2], 0, 15360, st (mk [(pgHG 3, HGL.STAT_TEL_WR, 15)]), by decide +kernel⟩,
   ⟨3, 0x1234, [7], st (mk [(pgHG 3, HGL.STAT_TEL_WR, 16)]), by decide +kernel⟩,
   ⟨3, 15, 0, ⟨1, 2, 0, false, 3, true⟩, st ((mk [(pgHG 3, HGL.TMD_STAT_STATE.at 15, 2)]).hgUpd 3 fun h => { h with timed := [(15, ⟨1, 2, 0, false, 3, true⟩)] }), by decide +kernel⟩,
   ⟨3, 1, 0xFF, 1, st Dev.reset, by decide +kernel⟩,
   ⟨3, 0x10, 0xFF, 1, st Dev.reset, by decide +kernel⟩⟩

/-- The premises of HangerLink can be met, clause by clause. -/
theorem wit_HangerLink :
    (∃ (n : Fin 4) (w : Word) (s : State), s.clocked ∧ HGL.CTL_EN.ofWord w.toNat = 1 ∧ s.dev.hgLink n.val = 0) ∧
    (∃ (n : Fin 4) (w : Word) (s : State), s.clocked ∧ HGL.CTL_EN.ofWord w.toNat = 1 ∧ s.dev.hgLink n.val ≠ 0) ∧
    (∃ (n : Fin 4) (w : Word) (s : State), s.clocked ∧ HGL.CTL_EN.ofWord w.toNat = 0) ∧
    (∃ (n : Fin 4) (r : HgRel) (s : State), s.clocked ∧ (s.dev.hgs n.val).rel = some r ∧ r.sends < 4 ∧ s.dev.hgLink n.val ≠ 0 ∧ (s.dev.hgs n.val).resv = false) ∧
    (∃ (n : Fin 4) (r : HgRel) (s : State), s.clocked ∧ (s.dev.hgs n.val).rel = some r ∧ 4 ≤ r.sends ∧ s.dev.hgLink n.val ≠ 0) ∧
    (∃ (n : Fin 4) (s : State), s.clocked ∧ ((s.dev.hgs n.val).rel = none ∨ s.dev.hgLink n.val = 0)) ∧
    (∃ (n : Fin 4) (k : Nat) (s : State), s.clocked ∧ (s.dev.hgs n.val).ackDue = some k ∧ s.dev.hgLink n.val ≠ 0 ∧ (s.dev.hgs n.val).resv = false) ∧
    (∃ (n : Fin 4) (s : State), s.clocked ∧ ((s.dev.hgs n.val).ackDue = none ∨ s.dev.hgLink n.val = 0)) ∧
    (∃ (n : Fin 4) (s : State), s.clocked ∧ s.dev.hgLink n.val = 1 ∧ (s.dev.hgs n.val).resv = false) ∧
    (∃ (n : Fin 4) (s : State), s.clocked ∧ s.dev.hgLink n.val ≠ 1) ∧
    (∃ (n : Fin 4) (s : State), s.clocked ∧ 2 ≤ s.dev.hgLink n.val) ∧
    (∃ (n : Fin 4) (s : State), s.clocked ∧ s.dev.hgLink n.val < 2) ∧
    (∃ (n : Fin 4) (w : Word) (s : State), s.clocked ∧ w.getLsbD 0 = false ∧ 2 ≤ s.dev.hgLink n.val) ∧
    (∃ (n : Fin 4) (w : Word) (s : State), s.clocked ∧ w.getLsbD 1 = false ∧ s.dev.hgLink n.val = 3 ∧ AMap.find? s.dev.ks.hgExch n.val = none) ∧
    (∃ (n : Fin 4) (w : Word) (s : State), s.clocked) ∧
    (∃ (n : Fin 4) (power : BitVec 32) (s : State), s.clocked ∧ s.dev.get (pgHG n.val) HGL.GAPS < 255) ∧
    (∃ (n : Fin 4) (power : BitVec 32) (s : State), s.clocked ∧ s.dev.get (pgHG n.val) HGL.GAPS = 255) ∧
    (∃ (n : Fin 4) (w : Word) (s : State), s.clocked) ∧
    (∃ (sample : Int) (sent : List Int), True) :=
  ⟨⟨3, 1, st ((mk []).hgUpd 3 fun h => { h with seq := 2 }), by decide +kernel⟩,
   ⟨3, 1, st (mk [(pgHG 3, HGL.STATUS_LINK, 2)]), by decide +kernel⟩,
   ⟨3, 2, st (mk [(pgHG 3, HGL.STATUS_LINK, 4)]), by decide +kernel⟩,
   ⟨3, ⟨⟨0, [1], 6, 1, 7⟩, 5, 3, false⟩, st ((mk [(pgHG 3, HGL.STATUS_LINK, 4)]).hgUpd 3 fun h => { h with rel := some ⟨⟨0, [1], 6, 1, 7⟩, 5, 3, false⟩ }), by decide +kernel⟩,
   ⟨3, ⟨⟨0, [1], 6, 1, 5⟩, 5, 4, false⟩, st ((mk [(pgHG 3, HGL.STATUS_LINK, 4)]).hgUpd 3 fun h => { h with rel := some ⟨⟨0, [1], 6, 1, 5⟩, 5, 4, false⟩, reqs := [⟨5, false, true, 1, none⟩] }), by decide +kernel⟩,
   ⟨3, st Dev.reset, by decide +kernel⟩,
   ⟨3, 9, st ((mk [(pgHG 3, HGL.STATUS_LINK, 4)]).hgUpd 3 fun h => { h with ackDue := some 9, seq := 65535 }), by decide +kernel⟩,
   ⟨3, st Dev.reset, by decide +kernel⟩,
   ⟨3, st (mk [(pgHG 3, HGL.STATUS_LINK, 1)]), by decide +kernel⟩,
   ⟨3, st Dev.reset, by decide +kernel⟩,
   ⟨3, st (mk [(pgHG 3, HGL.STATUS_LINK, 4)]), by decide +kernel⟩,
   ⟨3, st Dev.reset, by decide +kernel⟩,
   ⟨3, 0, st (mk [(pgHG 3, HGL.STATUS_LINK, 3)]), by decide +kernel⟩,
   ⟨3, 0, st (mk [(pgHG 3, HGL.STATUS_LINK, 3), (pgHG 3, HGL.ID_SEEN_LO_SERIAL, 9)]), by decide +kernel⟩,
   ⟨3, 0, st (mk [(pgHG 3, HGL.GAPS, 3)]), by decide +kernel⟩,
   ⟨3, 77, st (mk [(pgHG 3, HGL.GAPS, 254)]), by decide +kernel⟩,
   ⟨3, 77, st (mk [(pgHG 3, HGL.GAPS, 255)]), by decide +kernel⟩,
   ⟨3, 7, st ((mk []).hgUpd 3 fun h => { h with echo := { h.echo with taps := [4] } }), by decide +kernel⟩,
   ⟨5, [3], by decide +kernel⟩⟩

/-- The premises of HangerCommands can be met, clause by clause. -/
theorem wit_HangerCommands :
    (∃ (n : Fin 4) (w : Word) (s : State), s.clocked ∧ s.dev.hgLink n.val = 4 ∧ s.dev.get (pgHG n.val) HGL.CTL_SEC_REQ = 0 ∧ s.dev.get (pgHG n.val) HGL.STATUS_REQ_BUSY = 0 ∧ (HGL.REQ_CTL_OP.ofWord w.toNat = 1 ∨ HGL.REQ_CTL_OP.ofWord w.toNat = 2) ∧ (s.dev.hgs n.val).rel = none ∧ (s.dev.hgs n.val).queue = [] ∧ (s.dev.hgs n.val).resv = false) ∧
    (∃ (n : Fin 4) (w : Word) (q : PierReq) (s : State), s.clocked ∧ s.dev.hgLink n.val = 4 ∧ s.dev.get (pgHG n.val) HGL.CTL_SEC_REQ = 0 ∧ (s.dev.hgs n.val).rel = none ∧ (s.dev.hgs n.val).queue = [] ∧ (s.dev.hgs n.val).resv = false) ∧
    (∃ (n : Fin 4) (w : Word) (q : PierReq) (s : State), s.clocked ∧ (s.dev.hgLink n.val ≤ 1 ∨ (s.dev.hgLink n.val = 3 ∧ q.read = false))) ∧
    (∃ (n : Fin 4) (w : Word) (s : State), s.clocked ∧ s.dev.hgLink n.val ≤ 1 ∧ s.dev.get (pgHG n.val) HGL.STATUS_REQ_BUSY = 0 ∧ (HGL.REQ_CTL_OP.ofWord w.toNat = 1 ∨ HGL.REQ_CTL_OP.ofWord w.toNat = 2)) ∧
    (∃ (n : Fin 4) (w : Word) (s : State), s.clocked ∧ s.dev.hgLink n.val = 3 ∧ s.dev.get (pgHG n.val) HGL.STATUS_REQ_BUSY = 0 ∧ HGL.REQ_CTL_OP.ofWord w.toNat = 2) ∧
    (∃ (n : Fin 4) (w : Word) (s : State), s.clocked ∧ s.dev.hgLink n.val = 4 ∧ s.dev.get (pgHG n.val) HGL.STATUS_REQ_BUSY = 0 ∧ (HGL.REQ_CTL_OP.ofWord w.toNat = 1 ∨ HGL.REQ_CTL_OP.ofWord w.toNat = 2) ∧ s.dev.get (pgHG n.val) HGL.CTL_SEC_REQ = 1 ∧ s.dev.hgSession n.val = none) ∧
    (∃ (n : Fin 4) (w : Word) (pos : FramePos) (t : HgTimed) (s : State), s.clocked ∧ t = ⟨s.dev.getLH (pgHG n.val) HGL.TMD_SPAN_LO_SPAN HGL.TMD_SPAN_HI_SPAN, s.dev.get (pgHG n.val) HGL.TMD_SPAN_HI_FRAME, if s.dev.flag (pgHG n.val) HGL.TMD_SPAN_HI_PORT then 1 else 0, s.dev.flag (pgHG n.val) HGL.TMD_SPAN_HI_CNT, max 1 (HGL.TMD_CTL_LEAD.ofWord (w ||| 0x80000000#32).toNat), false⟩ ∧ s.dev.tmdRefusal n.val (HGL.TMD_CTL_HANDLE.ofWord w.toNat) pos t = 0 ∧ s.dev.get (pgHG n.val) HGL.CTL_SEC_REQ = 0) ∧
    (∃ (n : Fin 4) (w : Word) (pos : FramePos) (s : State), s.clocked ∧ s.dev.hgLink n.val = 3 ∧ s.dev.tmdState n.val (HGL.TMD_CTL_HANDLE.ofWord w.toNat) = 0) ∧
    (∃ (n : Fin 4) (pos : FramePos) (due : List Nat) (s : State), s.clocked ∧ due = s.dev.trigDue n.val pos 34048 (fun st => st == 1 || st == 2)) ∧
    (∃ (n : Fin 4) (pos : FramePos) (due : List Nat) (s : State), s.clocked ∧ due = s.dev.trigDue n.val pos 0 (fun st => st == 2) ∧ due ≠ [] ∧ s.dev.hgLink n.val ≠ 0 ∧ (s.dev.hgs n.val).rel = none ∧ (s.dev.hgs n.val).queue = []) ∧
    (∃ (n : Fin 4) (pos : FramePos) (s : State), s.clocked ∧ s.dev.trigDue n.val pos 0 (fun st => st == 2) = [] ∧ (s.dev.hgs n.val).rel = none ∧ (s.dev.hgs n.val).queue = []) ∧
    (∃ (n : Fin 4) (h : Fin 16) (t : HgTimed) (s : State), s.clocked ∧ s.dev.tmdState n.val h.val = 2 ∧ AMap.find? (s.dev.hgs n.val).timed h.val = some t ∧ t.fired = true) ∧
    (∃ (s : State), s.clocked ∧ s.dev.ksWaits 11 1 ∧ s.dev.mbBody.headD 0 ≤ 3 ∧ AMap.find? s.dev.ks.hgExch (s.dev.mbBody.headD 0) = none ∧ s.dev.hgLink (s.dev.mbBody.headD 0) = 4) ∧
    (∃ (n : Fin 4) (rest : List (BitVec 8)) (agreed : Bool) (x : KsHgExch) (s : State), s.clocked ∧ AMap.find? s.dev.ks.hgExch n.val = some x ∧ x.phase = 1 ∧ x.frags = []) ∧
    (∃ (n : Fin 4) (reason : BitVec 8) (agreed : Bool) (x : KsHgExch) (s : State), s.clocked ∧ AMap.find? s.dev.ks.hgExch n.val = some x) ∧
    (∃ (n : Fin 4) (x : KsHgExch) (s : State), s.clocked ∧ AMap.find? s.dev.ks.hgExch n.val = some x) ∧
    (∃ (n : Fin 4) (record : List (BitVec 8)) (agreed : Bool) (s : State), s.clocked ∧ (s.dev.hgSession n.val = none ∨ record.headD 0 ≠ 3)) ∧
    (∃ (n : Fin 4) (record : List (BitVec 8)) (agreed : Bool) (k : KsHanger) (s : State), s.clocked ∧ s.dev.hgSession n.val = some k ∧ record.headD 0 = 3) :=
  ⟨⟨3, 1, st (mk [(pgHG 3, HGL.STATUS_LINK, 4)]), by decide +kernel⟩,
   ⟨3, 1, ⟨190, true, 2, 64, []⟩, st (mk [(pgHG 3, HGL.STATUS_LINK, 4)]), by decide +kernel⟩,
   ⟨3, 1, ⟨190, false, 2, 64, []⟩, st (mk [(pgHG 3, HGL.STATUS_LINK, 3)]), by decide +kernel⟩,
   ⟨3, 2, st (mk [(pgHG 3, HGL.STATUS_LINK, 1)]), by decide +kernel⟩,
   ⟨3, 2, st (mk [(pgHG 3, HGL.STATUS_LINK, 3)]), by decide +kernel⟩,
   ⟨3, 2, st (mk [(pgHG 3, HGL.STATUS_LINK, 4), (pgHG 3, HGL.CTL_SEC_REQ, 1)]), by decide +kernel⟩,
   ⟨3, 5, ⟨0, 0, 0, 0⟩, ⟨1000, 0, 0, false, 1, false⟩, st (mk [(pgHG 3, HGL.STATUS_LINK, 4), (pgHG 3, HGL.TMD_SPAN_LO_SPAN, 1000), (pgLDSYS 0, LDSYS.STATUS_READY, 1), (pgLFR 0, LFR.SPAN_TXPOS_RUN, 1)]), by decide +kernel⟩,
   ⟨3, 5, ⟨0, 0, 0, 0⟩, st (mk [(pgHG 3, HGL.STATUS_LINK, 3)]), by decide +kernel⟩,
   ⟨3, ⟨0, 0, 0, 0⟩, [15], st ((mk [(pgHG 3, HGL.TMD_STAT_STATE.at 15, 2)]).hgUpd 3 fun h => { h with timed := [(15, ⟨0, 0, 0, false, 3, false⟩)] }), by decide +kernel⟩,
   ⟨3, ⟨0, 0, 0, 0⟩, [15], st ((mk [(pgHG 3, HGL.STATUS_LINK, 4), (pgHG 3, HGL.TMD_STAT_STATE.at 15, 2)]).hgUpd 3 fun h => { h with timed := [(15, ⟨0, 0, 0, false, 3, false⟩)], resv := true }), by decide +kernel⟩,
   ⟨3, ⟨0, 0, 0, 0⟩, st Dev.reset, by decide +kernel⟩,
   ⟨3, 15, ⟨1, 2, 0, false, 3, true⟩, st ((mk [(pgHG 3, HGL.TMD_STAT_STATE.at 15, 2)]).hgUpd 3 fun h => { h with timed := [(15, ⟨1, 2, 0, false, 3, true⟩)] }), by decide +kernel⟩,
   ⟨st ((mk [(pgKSMB, KSMB.MB_STAT_BUSY, 1), (pgKSMB, KSMB.REQ_OPCODE, 11), (pgKSMB, KSMB.REQ_LEN, 1), (pgKSMB, KSMB.BOOT_STATE, 6), (pgHG 2, HGL.STATUS_LINK, 4)]).ksUpd fun k => { k with req := [(0, 2)] }), by decide +kernel⟩,
   ⟨3, [5], true, ⟨1, [1], [], 0⟩, st ((mk []).ksUpd fun k => { k with hgExch := [(3, ⟨1, [1], [], 0⟩)] }), by decide +kernel⟩,
   ⟨3, 5, true, ⟨1, [1], [], 0⟩, st ((mk []).ksUpd fun k => { k with hgExch := [(3, ⟨1, [1], [], 0⟩)] }), by decide +kernel⟩,
   ⟨3, ⟨1, [1], [], 0⟩, st ((mk []).ksUpd fun k => { k with hgExch := [(3, ⟨1, [1], [], 0⟩)] }), by decide +kernel⟩,
   ⟨3, [3, 0], true, st ((mk []).hgUpd 3 fun h => { h with reqs := [⟨5, true, true, 1, none⟩] }), by decide +kernel⟩,
   ⟨3, [3, 0], true, ⟨1, 2, 3, 4⟩, st ((mk []).ksUpd fun x => { x with hangers := [(3, ⟨1, 2, 3, 4⟩)] }), by decide +kernel⟩⟩

/-- The premises of TelemetryConverter can be met, clause by clause. -/
theorem wit_TelemetryConverter :
    (∃ (w : Word) (s : State), s.clocked ∧ w.getLsbD 0 = true ∧ w.getLsbD 16 = false ∧ w.getLsbD 17 = false ∧ TCV.CTL_SCAN_EN.ofWord w.toNat = s.dev.get pgTCV TCV.CTL_SCAN_EN) ∧
    (∃ (w : Word) (s : State), s.clocked ∧ w.getLsbD 0 = false ∧ s.dev.get pgTCV TCV.CTL_REF_EN = 1 ∧ w.getLsbD 16 = false ∧ w.getLsbD 17 = false ∧ TCV.CTL_SCAN_EN.ofWord w.toNat = s.dev.get pgTCV TCV.CTL_SCAN_EN) ∧
    (∃ (s : State), s.clocked ∧ s.dev.get pgTCV TCV.CTL_REF_EN = 1 ∧ s.dev.get pgTCV TCV.STATUS_REF_READY = 0) ∧
    (∃ (s : State), s.clocked ∧ (s.dev.get pgTCV TCV.CTL_REF_EN = 0 ∨ s.dev.get pgTCV TCV.STATUS_REF_READY = 1)) ∧
    (∃ (w : Word) (s : State), s.clocked ∧ w.getLsbD 0 = true ∧ w.getLsbD 1 = true ∧ w.getLsbD 16 = false ∧ w.getLsbD 17 = false ∧ s.dev.get pgTCV TCV.CTL_SCAN_EN = 0 ∧ s.dev.get pgTCV TCV.STATUS_REF_READY = 1 ∧ s.dev.tcv.cal = 0 ∧ s.dev.tcv.inj = 0) ∧
    (∃ (w : Word) (s : State), s.clocked ∧ w.getLsbD 0 = true ∧ w.getLsbD 1 = true ∧ w.getLsbD 16 = false ∧ w.getLsbD 17 = false ∧ s.dev.get pgTCV TCV.CTL_SCAN_EN = 0 ∧ s.dev.get pgTCV TCV.STATUS_REF_READY = 0) ∧
    (∃ (w : Word) (s : State), s.clocked ∧ w.getLsbD 0 = true ∧ w.getLsbD 1 = false ∧ w.getLsbD 16 = false ∧ w.getLsbD 17 = false ∧ s.dev.get pgTCV TCV.CTL_SCAN_EN = 1 ∧ s.dev.tcv.cal = 0) ∧
    (∃ (s : State), s.clocked ∧ s.dev.tcv.inj ≠ 1 ∧ s.dev.tcv.phase = 1) ∧
    (∃ (s : State), s.clocked ∧ s.dev.tcv.inj = 1) ∧
    (∃ (s : State), s.clocked ∧ s.dev.tcv.inj ≠ 1 ∧ s.dev.tcv.phase ≠ 1) ∧
    (∃ (raw : TcvRaw) (x : TcvSample) (s : State), s.clocked ∧ s.dev.tcv.inj ≠ 2 ∧ s.dev.tcv.phase = 2 ∧ s.dev.tcv.cal = 0 ∧ s.dev.tcv.cur = some x ∧ 2 ≤ s.dev.tcv.left ∧ x.scs = true ∧ x.dec = 4 ∧ x.shSinc = 0 ∧ s.dev.tcv.chain = TcvChain.reset ∧ raw.samples.length = 12 ∧ raw.ground.length = 12 ∧ s.dev.tcv.queue.length < 512 ∧ raw.ovr = some true) ∧
    (∃ (raw : TcvRaw) (x : TcvSample) (s : State), s.clocked ∧ s.dev.tcv.inj ≠ 2 ∧ s.dev.tcv.phase = 2 ∧ s.dev.tcv.cal = 0 ∧ s.dev.tcv.cur = some x ∧ 2 ≤ s.dev.tcv.left ∧ x.scs = true ∧ x.dec = 4 ∧ x.shSinc = 0 ∧ s.dev.tcv.chain = TcvChain.reset ∧ raw.samples.length = 12 ∧ raw.ground.length = 12 ∧ raw.ovr = none ∧ s.dev.tcv.ovrRun = none ∧ s.dev.tcv.since = 0) ∧
    (∃ (raw : TcvRaw) (x : TcvSample) (s : State), s.clocked ∧ s.dev.tcv.inj = 2 ∧ s.dev.tcv.injCur = some x ∧ raw.ovr = none ∧ s.dev.tcv.ovrRun = none ∧ s.dev.tcv.queue.length < 512 ∧ x.scs = true ∧ x.dec = 4 ∧ x.shSinc = 0 ∧ s.dev.tcv.chain = TcvChain.reset ∧ raw.samples.length = 12 ∧ raw.ground.length = 12) ∧
    (∃ (raw : TcvRaw) (s : State), s.clocked ∧ raw.ovr = none ∧ raw.stale = false ∧ raw.samples = [] ∧ raw.ground = []) ∧
    (∃ (raw : TcvRaw) (s : State), s.clocked ∧ s.dev.tcv.inj ≠ 2 ∧ s.dev.tcv.phase ≠ 2) ∧
    (∃ (s : State), s.clocked ∧ s.dev.tcv.phase = 3 ∧ s.dev.tcv.cal = 0 ∧ s.dev.tcv.inj = 0 ∧ s.dev.get pgTCV TCV.STATUS_REF_READY = 1) ∧
    (∃ (s : State), s.clocked ∧ s.dev.tcv.phase = 3 ∧ s.dev.tcv.cal = 0 ∧ s.dev.tcv.inj ≠ 0) ∧
    (∃ (w : Word) (s : State), s.clocked ∧ s.dev.tcvIdle = true ∧ s.dev.tcv.calConv = false) ∧
    (∃ (w : Word) (s : State), s.clocked ∧ (s.dev.tcvIdle = false ∨ s.dev.tcv.calConv = true)) ∧
    (∃ (s : State), s.clocked) ∧
    (∃ (w : Word) (s : State), s.clocked ∧ ((w.getLsbD 0 = false → s.dev.get pgTCV TCV.CTL_REF_EN = 0)) ∧ w.getLsbD 16 = false ∧ TCV.CTL_SCAN_EN.ofWord w.toNat = s.dev.get pgTCV TCV.CTL_SCAN_EN) ∧
    (∃ (w : Word) (s : State), s.clocked) :=
  ⟨⟨0x31, st Dev.reset, by decide +kernel⟩,
   ⟨0x30, st ((mk [(pgTCV, TCV.CTL_REF_EN, 1), (pgTCV, TCV.STATUS_REF_READY, 1)]).tcvUpd fun t => { t with inj := 2 }), by decide +kernel⟩,
   ⟨st (mk [(pgTCV, TCV.CTL_REF_EN, 1)]), by decide +kernel⟩,
   ⟨st Dev.reset, by decide +kernel⟩,
   ⟨0x33, st (mk [(pgTCV, TCV.CTL_REF_EN, 1), (pgTCV, TCV.STATUS_REF_READY, 1), (pgTCV, TCV.SCAN_CH.at 0, 9)]), by decide +kernel⟩,
   ⟨0x33, st (mk [(pgTCV, TCV.CTL_REF_EN, 1)]), by decide +kernel⟩,
   ⟨1, st ((mk [(pgTCV, TCV.CTL_REF_EN, 1), (pgTCV, TCV.CTL_SCAN_EN, 1)]).tcvUpd fun t => { t with phase := 2 }), by decide +kernel⟩,
   ⟨st ((mk []).tcvUpd fun t => { t with phase := 1 }), by decide +kernel⟩,
   ⟨st ((mk []).tcvUpd fun t => { t with inj := 1 }), by decide +kernel⟩,
   ⟨st Dev.reset, by decide +kernel⟩,
   ⟨⟨List.replicate 12 5, List.replicate 12 0, some true, false⟩, { (mk []).tcvSample 9 0 1 0 with dec := 4, scs := true }, st ((mk []).tcvUpd fun t => { t with phase := 2, left := 3, cur := some { (mk []).tcvSample 9 0 1 0 with dec := 4, scs := true } }), by decide +kernel⟩,
   ⟨⟨List.replicate 12 640, List.replicate 12 0, none, false⟩, { (mk []).tcvSample 9 0 1 0 with dec := 4, scs := true }, st ((mk []).tcvUpd fun t => { t with phase := 2, left := 3, cur := some { (mk []).tcvSample 9 0 1 0 with dec := 4, scs := true } }), by decide +kernel⟩,
   ⟨⟨List.replicate 12 640, List.replicate 12 0, none, false⟩, { (mk []).tcvSample 9 0 1 0 with dec := 4, scs := true }, st ((mk []).tcvUpd fun t => { t with inj := 2, injCur := some { (mk []).tcvSample 9 0 1 0 with dec := 4, scs := true } }), by decide +kernel⟩,
   ⟨⟨[], [], none, false⟩, st ((mk []).tcvUpd fun t => { t with inj := 2, injCur := some ((mk []).tcvSample 9 0 1 0) }), by decide +kernel⟩,
   ⟨⟨[], [], none, true⟩, st Dev.reset, by decide +kernel⟩,
   ⟨st ((mk [(pgTCV, TCV.STATUS_REF_READY, 1), (pgTCV, TCV.CTL_LAST, 31), (pgTCV, TCV.STATUS_ENTRY, 30)]).tcvUpd fun t => { t with phase := 3 }), by decide +kernel⟩,
   ⟨st ((mk [(pgTCV, TCV.STATUS_REF_READY, 1), (pgTCV, TCV.CTL_LAST, 31), (pgTCV, TCV.STATUS_ENTRY, 30)]).tcvUpd fun t => { t with phase := 3, inj := 1 }), by decide +kernel⟩,
   ⟨0x305, st (mk [(pgTCV, TCV.STATUS_REF_READY, 1)]), by decide +kernel⟩,
   ⟨0x305, st Dev.reset, by decide +kernel⟩,
   ⟨st ((mk []).tcvUpd fun t => { t with queue := [7, 8] }), by decide +kernel⟩,
   ⟨1, st ((mk []).tcvUpd fun t => { t with queue := [7, 8] }), by decide +kernel⟩,
   ⟨0x10002, st ((mk []).tcvUpd fun t => { t with queue := [7, 8] }), by decide +kernel⟩⟩

/-- The premises of ConverterCalibration can be met, clause by clause. -/
theorem wit_ConverterCalibration :
    (∃ (w : Word) (s : State), s.clocked ∧ ((w.getLsbD 0 = false → s.dev.get pgTCV TCV.CTL_REF_EN = 0)) ∧ w.getLsbD 17 = false ∧ TCV.CTL_SCAN_EN.ofWord w.toNat = s.dev.get pgTCV TCV.CTL_SCAN_EN ∧ s.dev.get pgTCV TCV.STATUS_CAL_BUSY = 0 ∧ s.dev.tcv.inj = 0 ∧ s.dev.tcv.phase = 0) ∧
    (∃ (o1 o2 g1 g2 : BitVec 16) (s : State), s.clocked ∧ s.dev.tcv.cal = 2 ∧ (o1.toInt - o2.toInt).natAbs ≤ 2 ∧ ((g1.toNat : Int) - (g2.toNat : Int)).natAbs * 10000 ≤ g1.toNat + g2.toNat) ∧
    (∃ (o1 o2 g1 g2 : BitVec 16) (s : State), s.clocked ∧ s.dev.tcv.cal = 2 ∧ s.dev.tcv.calOwn = false ∧ (2 < (o1.toInt - o2.toInt).natAbs ∨ g1.toNat + g2.toNat < ((g1.toNat : Int) - (g2.toNat : Int)).natAbs * 10000)) ∧
    (∃ (s : State), s.clocked ∧ s.dev.get pgCAL CAL.CTL_TCV_AUTO = 1 ∧ s.dev.get pgCAL CAL.STATUS_VREF_OK = 1 ∧ s.dev.get pgCAL CAL.STATUS_TCV_BUSY = 0 ∧ clampN 1 60 (s.dev.get pgCAL CAL.CTL_TCV_AGE) * 60000 ≤ s.dev.get pgCAL CAL.TCV_AGE_MS ∧ s.dev.get pgCAL CAL.CTL_TCV_IDLE_ONLY = 1 ∧ s.dev.tcv.phase ≠ 0) ∧
    (∃ (s : State), s.clocked ∧ (s.dev.get pgCAL CAL.CTL_TCV_AUTO = 0 ∨ s.dev.get pgCAL CAL.STATUS_VREF_OK = 0 ∨ s.dev.get pgCAL CAL.TCV_AGE_MS < clampN 1 60 (s.dev.get pgCAL CAL.CTL_TCV_AGE) * 60000)) ∧
    (∃ (w : Word) (s : State), s.clocked ∧ s.dev.get pgCAL CAL.STATUS_VREF_OK = 1 ∧ s.dev.get pgCAL CAL.STATUS_TCV_BUSY = 0 ∧ s.dev.get pgCAL CAL.CTL_TCV_IDLE_ONLY = 1 ∧ s.dev.tcv.phase ≠ 0) ∧
    (∃ (w : Word) (s : State), s.clocked ∧ s.dev.get pgCAL CAL.STATUS_VREF_OK = 1 ∧ s.dev.get pgCAL CAL.STATUS_TCV_BUSY = 0 ∧ s.dev.get pgTCV TCV.STATUS_CAL_BUSY = 0 ∧ s.dev.tcv.phase = 0 ∧ s.dev.tcv.inj = 0 ∧ s.dev.get pgTCV TCV.STATUS_REF_READY = 1) ∧
    (∃ (s : State), s.clocked ∧ s.dev.get pgCAL CAL.STATUS_VREF_OK = 0) ∧
    (∃ (s : State), s.clocked ∧ s.dev.get pgCAL CAL.TCV_WAIT = 1 ∧ s.dev.get pgTCV TCV.STATUS_CAL_BUSY = 0) ∧
    (∃ (s : State), s.clocked ∧ s.dev.get pgCAL CAL.TCV_WAIT = 0) ∧
    (∃ (value : BitVec 16) (s : State), s.clocked ∧ s.dev.tcvIdle = true) ∧
    (∃ (value : BitVec 16) (s : State), s.clocked ∧ s.dev.tcvIdle = true ∧ s.dev.get pgCAL CAL.TCV_HAD = 0) ∧
    (∃ (value : BitVec 16) (s : State), s.clocked ∧ s.dev.tcvIdle = true ∧ s.dev.get pgCAL CAL.TCV_HAD = 1 ∧ s.dev.get pgCAL CAL.CTL_TCV_AUTO = 0 ∧ 16 * clampN 5 100 (s.dev.get pgCAL CAL.CTL_TCV_DT) < 10 * (value.toInt - sOf 16 (s.dev.get pgCAL CAL.TCV_LAST_TEMP)).natAbs) ∧
    (∃ (vref : Bool) (value : BitVec 16) (s : State), s.clocked ∧ s.dev.tcvIdle = false) ∧
    (∃ (band : BitVec 16) (s : State), s.clocked ∧ s.dev.get pgCAL CAL.CTL_VREF_CHK = 1 ∧ s.dev.get pgCAL CAL.STATUS_VREF_OK = 1 ∧ s.dev.get pgCAL CAL.VREF_NEW = 1 ∧ band ≠ 0 ∧ 2 * band.toNat < 100 * ((s.dev.get pgCAL CAL.VREF_CODE : Int) - (band.toNat : Int)).natAbs) ∧
    (∃ (band : BitVec 16) (s : State), s.clocked ∧ s.dev.get pgCAL CAL.CTL_VREF_CHK = 1 ∧ s.dev.get pgCAL CAL.VREF_NEW = 1 ∧ s.dev.get pgCAL CAL.VREF_CODE = band.toNat ∧ band ≠ 0) ∧
    (∃ (band : BitVec 16) (s : State), s.clocked ∧ s.dev.get pgCAL CAL.CTL_VREF_CHK = 0) ∧
    (∃ (w : Word) (s : State), s.clocked ∧ w.getLsbD 0 = false) ∧
    (∃ (n : Fin 4) (echo : BitVec 12) (s : State), s.clocked ∧ s.dev.get pgCAL CAL.CTL_HG_AUTO = 1 ∧ AMap.find? s.dev.hgCal n.val = none ∧ (sOf 12 (s.dev.get pgCAL CAL.HG_CTL_THR) < echo.toInt ∨ clampN 1 60 (s.dev.get pgCAL CAL.HG_CTL_AGE) * 60000 ≤ s.dev.get pgCAL (CAL.HG_AGE_MS.at n.val))) ∧
    (∃ (n : Fin 4) (echo : BitVec 12) (s : State), s.clocked ∧ (s.dev.get pgCAL CAL.CTL_HG_AUTO = 0 ∨ (AMap.find? s.dev.hgCal n.val).isSome = true ∨ (echo.toInt ≤ sOf 12 (s.dev.get pgCAL CAL.HG_CTL_THR) ∧ s.dev.get pgCAL (CAL.HG_AGE_MS.at n.val) < clampN 1 60 (s.dev.get pgCAL CAL.HG_CTL_AGE) * 60000))) ∧
    (∃ (n : Fin 4) (s : State), s.clocked ∧ s.dev.get pgCAL (CAL.HG_PEND.at n.val) = 1 ∧ 2 ≤ s.dev.hgLink n.val) ∧
    (∃ (n : Fin 4) (s : State), s.clocked ∧ (s.dev.get pgCAL (CAL.HG_PEND.at n.val) = 0 ∨ s.dev.hgLink n.val < 2)) ∧
    (∃ (n : Fin 4) (echo : BitVec 12) (f : Nat) (sums : List Int) (s : State), s.clocked ∧ AMap.find? s.dev.hgCal n.val = some ⟨f, none, sums⟩) ∧
    (∃ (n : Fin 4) (echo : BitVec 12) (f : Nat) (a : Int) (sums : List Int) (s : State), s.clocked ∧ AMap.find? s.dev.hgCal n.val = some ⟨f, some a, sums⟩ ∧ (a - echo.toInt).natAbs ≤ 5 ∧ sums.length < 7) ∧
    (∃ (n : Fin 4) (echo : BitVec 12) (f : Nat) (a : Int) (sums : List Int) (s : State), s.clocked ∧ AMap.find? s.dev.hgCal n.val = some ⟨f, some a, sums⟩ ∧ 5 < (a - echo.toInt).natAbs) ∧
    (∃ (n : Fin 4) (echo : BitVec 12) (f : Nat) (a : Int) (sums : List Int) (s : State), s.clocked ∧ AMap.find? s.dev.hgCal n.val = some ⟨f, some a, sums⟩ ∧ (a - echo.toInt).natAbs ≤ 5 ∧ 7 ≤ sums.length) ∧
    (∃ (n : Fin 4) (echo : BitVec 12) (s : State), s.clocked ∧ AMap.find? s.dev.hgCal n.val = none) :=
  ⟨⟨1, st (mk [(pgTCV, TCV.STATUS_REF_READY, 1)]), by decide +kernel⟩,
   ⟨0xFFF0, 0xFFF1, 0x8001, 0x8001, st ((mk [(pgTCV, TCV.STATUS_CAL_BUSY, 1)]).tcvUpd fun t => { t with cal := 2 }), by decide +kernel⟩,
   ⟨0xFFFE, 1, 5, 5, st ((mk [(pgTCV, TCV.STATUS_CAL_BUSY, 1)]).tcvUpd fun t => { t with cal := 2 }), by decide +kernel⟩,
   ⟨st ((mk [(pgCAL, CAL.CTL_TCV_AUTO, 1), (pgCAL, CAL.STATUS_VREF_OK, 1), (pgCAL, CAL.CTL_TCV_IDLE_ONLY, 1), (pgCAL, CAL.TCV_AGE_MS, 3600000)]).tcvUpd fun t => { t with phase := 2 }), by decide +kernel⟩,
   ⟨st Dev.reset, by decide +kernel⟩,
   ⟨0, st ((mk [(pgCAL, CAL.STATUS_VREF_OK, 1), (pgCAL, CAL.CTL_TCV_IDLE_ONLY, 1)]).tcvUpd fun t => { t with phase := 2 }), by decide +kernel⟩,
   ⟨0, st (mk [(pgCAL, CAL.STATUS_VREF_OK, 1), (pgTCV, TCV.STATUS_REF_READY, 1)]), by decide +kernel⟩,
   ⟨st (mk [(pgCAL, CAL.STATUS_VREF_OK, 0)]), by decide +kernel⟩,
   ⟨st (mk [(pgCAL, CAL.TCV_WAIT, 1)]), by decide +kernel⟩,
   ⟨st Dev.reset, by decide +kernel⟩,
   ⟨0xFFFF, st (mk [(pgTCV, TCV.STATUS_REF_READY, 1)]), by decide +kernel⟩,
   ⟨0xFFFF, st (mk [(pgTCV, TCV.STATUS_REF_READY, 1)]), by decide +kernel⟩,
   ⟨0xFFFF, st (mk [(pgTCV, TCV.STATUS_REF_READY, 1), (pgCAL, CAL.TCV_HAD, 1), (pgCAL, CAL.TCV_LAST_TEMP, 0x7FFF), (pgCAL, CAL.CTL_TCV_AUTO, 0)]), by decide +kernel⟩,
   ⟨true, 0xFFFF, st Dev.reset, by decide +kernel⟩,
   ⟨0x7000, st (mk [(pgCAL, CAL.CTL_VREF_CHK, 1), (pgCAL, CAL.STATUS_VREF_OK, 1), (pgCAL, CAL.VREF_NEW, 1), (pgCAL, CAL.VREF_CODE, 0x7400)]), by decide +kernel⟩,
   ⟨0x7000, st (mk [(pgCAL, CAL.CTL_VREF_CHK, 1), (pgCAL, CAL.STATUS_VREF_OK, 0), (pgCAL, CAL.VREF_GOOD, 3), (pgCAL, CAL.VREF_NEW, 1), (pgCAL, CAL.VREF_CODE, 0x7000)]), by decide +kernel⟩,
   ⟨0x7000, st (mk [(pgCAL, CAL.CTL_VREF_CHK, 0)]), by decide +kernel⟩,
   ⟨0x1E, st Dev.reset, by decide +kernel⟩,
   ⟨3, 0x7FF, st (mk [(pgCAL, CAL.CTL_HG_AUTO, 1)]), by decide +kernel⟩,
   ⟨3, 0x7FF, st (mk [(pgCAL, CAL.CTL_HG_AUTO, 0)]), by decide +kernel⟩,
   ⟨3, st (mk [(pgCAL, CAL.HG_PEND.at 3, 1), (pgCAL, CAL.HG_NEXT.at 3, 5), (pgHG 3, HGL.STATUS_LINK, 4)]), by decide +kernel⟩,
   ⟨3, st Dev.reset, by decide +kernel⟩,
   ⟨3, 0xFF0, 1, [-60], st ((mk []).hgCalSet 3 ⟨1, none, [-60]⟩), by decide +kernel⟩,
   ⟨3, 0xFF0, 1, -11, [-60], st ((mk []).hgCalSet 3 ⟨1, some (-11), [-60]⟩), by decide +kernel⟩,
   ⟨3, 0xFF0, 3, 11, [-60], st ((mk []).hgCalSet 3 ⟨3, some 11, [-60]⟩), by decide +kernel⟩,
   ⟨3, 0xFF0, 1, -11, [0, -600, 0, 0, 0, 0, 0], st ((mk []).hgCalSet 3 ⟨1, some (-11), [0, -600, 0, 0, 0, 0, 0]⟩), by decide +kernel⟩,
   ⟨3, 0xFF0, st Dev.reset, by decide +kernel⟩⟩

/-- The premises of ManagementCores can be met, clause by clause. -/
theorem wit_ManagementCores :
    (∃ (core : Fin 4) (s : State), s.clocked ∧ bitOf (s.dev.get pgMGMT MGMT.STATUS_CORE_RUN) core.val = true) ∧
    (∃ (core : Fin 4) (s : State), s.clocked ∧ bitOf (s.dev.get pgMGMT MGMT.STATUS_CORE_RUN) core.val = false) ∧
    (∃ (w : Word) (s : State), s.clocked ∧ s.dev.get pgMGMT MGMT.HEARTBEAT_COUNT ≠ w.toNat ∧ s.dev.get pgMGMT MGMT.STATUS_RT_ALIVE = 0) ∧
    (∃ (w : Word) (s : State), s.clocked ∧ (s.dev.get pgMGMT MGMT.HEARTBEAT_COUNT = w.toNat ∨ s.dev.get pgMGMT MGMT.STATUS_RT_ALIVE = 1)) ∧
    (∃ (s : State), s.clocked ∧ s.dev.get pgMGMT MGMT.STATUS_RT_ALIVE = 0) ∧
    (∃ (s : State), s.clocked ∧ s.dev.get pgMGMT MGMT.STATUS_RT_ALIVE = 1) ∧
    (∃ (cluster : Fin 12) (w : Word) (pc : BitVec 14) (k : Nat) (s : State), s.clocked ∧ k = 16 * cluster.val + PIER.CMD_ENG.ofWord w.toNat ∧ w.getLsbD 9 = false ∧ w.getLsbD 10 = false ∧ (s.dev.engState k = 1 ∨ s.dev.engState k = 4) ∧ s.dev.checksOff = false) ∧
    (∃ (cluster : Fin 12) (w : Word) (pc : BitVec 14) (k : Nat) (s : State), s.clocked ∧ k = 16 * cluster.val + PIER.CMD_ENG.ofWord w.toNat ∧ w.getLsbD 9 = false ∧ w.getLsbD 10 = false ∧ (s.dev.engState k = 1 ∨ s.dev.engState k = 4) ∧ s.dev.checksOff = true) ∧
    (∃ (cluster : Fin 12) (w : Word) (pc : BitVec 14) (k : Nat) (s : State), s.clocked ∧ k = 16 * cluster.val + PIER.CMD_ENG.ofWord w.toNat) ∧
    (∃ (cluster : Fin 12) (w : Word) (pc : BitVec 14) (k : Nat) (s : State), s.clocked ∧ k = 16 * cluster.val + PIER.CMD_ENG.ofWord w.toNat ∧ w.getLsbD 8 = false ∧ w.getLsbD 10 = false ∧ s.dev.engState k = 3) ∧
    (∃ (cluster : Fin 12) (w : Word) (pc : BitVec 14) (k : Nat) (s : State), s.clocked ∧ k = 16 * cluster.val + PIER.CMD_ENG.ofWord w.toNat ∧ w.getLsbD 8 = false ∧ w.getLsbD 9 = false ∧ s.dev.get (pgPIER cluster.val) PIER.CLUSTER_POWERED = 1 ∧ s.dev.evt.route = []) ∧
    (∃ (k : Fin 192) (t : List Nat) (s : State), s.clocked ∧ s.dev.mgmt.checks = k.val :: t ∧ s.dev.checksOff = false ∧ s.dev.recipe (s.dev.get (engPage k.val) (PIER.ENG1_RECIPE.at (k.val % 16))) = none) ∧
    (∃ (k : Fin 192) (t : List Nat) (r : Recipe) (s : State), s.clocked ∧ s.dev.mgmt.checks = k.val :: t ∧ s.dev.checksOff = false ∧ s.dev.recipe (s.dev.get (engPage k.val) (PIER.ENG1_RECIPE.at (k.val % 16))) = some r) ∧
    (∃ (s : State), s.clocked ∧ s.dev.mgmt.checks = []) ∧
    (∃ (engine : Fin 192) (cause : EngineFault) (pc : BitVec 14) (s : State), s.clocked ∧ (s.dev.engState engine.val ≠ 3 ∨ (cause = .wdt ∧ s.dev.get (engPage engine.val) PIER.CTL_WDT = 0))) ∧
    (∃ (engine : Fin 192) (cause : EngineFault) (pc : BitVec 14) (s : State), s.clocked ∧ s.dev.engState engine.val = 3 ∧ ((cause = .wdt → s.dev.get (engPage engine.val) PIER.CTL_WDT ≠ 0))) :=
  ⟨⟨3, st (mk [(pgMGMT, MGMT.STATUS_CORE_RUN, 15)]), by decide +kernel⟩,
   ⟨3, st (mk [(pgMGMT, MGMT.STATUS_CORE_RUN, 7)]), by decide +kernel⟩,
   ⟨3, st Dev.reset, by decide +kernel⟩,
   ⟨3, st (mk [(pgMGMT, MGMT.STATUS_RT_ALIVE, 1)]), by decide +kernel⟩,
   ⟨st Dev.reset, by decide +kernel⟩,
   ⟨st (mk [(pgMGMT, MGMT.STATUS_RT_ALIVE, 1)]), by decide +kernel⟩,
   ⟨11, 15, 0, 191, st (mk [(pgPIER 11, PIER.ENG_STATE.at 15, 1)]), by decide +kernel⟩,
   ⟨11, 15, 0, 191, st (mk [(pgPIER 11, PIER.ENG_STATE.at 15, 4), (pgKSMB, KSMB.DEBUG_SCOPE, 1)]), by decide +kernel⟩,
   ⟨11, 15, 0, 191, st (mk [(pgPIER 11, PIER.CLUSTER_POWERED, 0)]), by decide +kernel⟩,
   ⟨11, 15, 0x3FFF, 191, st (mk [(pgPIER 11, PIER.ENG_STATE.at 15, 3), (pgPIER 11, PIER.STATUS_RUN, 0xFFFF)]), by decide +kernel⟩,
   ⟨11, 15, 0x3FFF, 191, st { (mk [(pgPIER 11, PIER.CLUSTER_POWERED, 1)]) with evt := { Dev.reset.evt with evq := [(191, [4])], route := [] } }, by decide +kernel⟩,
   ⟨191, [], st ((mk [(pgPIER 11, PIER.ENG_STATE.at 15, 2)]).mgmtUpd fun m => { m with checks := [191] }), by decide +kernel⟩,
   ⟨191, [], ⟨0, 5, 3⟩, st ((mk [(pgPIER 11, PIER.ENG_STATE.at 15, 2)]).mgmtUpd fun m => { m with checks := [191], recipes := [⟨0, 5, 3⟩] }), by decide +kernel⟩,
   ⟨st Dev.reset, by decide +kernel⟩,
   ⟨191, .bus, 9, st (mk [(pgPIER 11, PIER.ENG_STATE.at 15, 1)]), by decide +kernel⟩,
   ⟨191, .wdt, 9, st (mk [(pgPIER 11, PIER.ENG_STATE.at 15, 3)]), by decide +kernel⟩⟩

/-- The premises of HostRings can be met, clause by clause. -/
theorem wit_HostRings :
    (∃ (w : Word) (s : State), s.clocked ∧ 0 ≤ diff16 (MBX.CMD_DB_TAIL.ofWord w.toNat) (s.dev.get pgMBX MBX.CMD_CONSUMED_SEQ) ∧ diff16 (MBX.CMD_DB_TAIL.ofWord w.toNat) (s.dev.get pgMBX MBX.CMD_CONSUMED_SEQ) ≤ 256) ∧
    (∃ (w : Word) (s : State), s.clocked ∧ s.dev.get pgMBX MBX.STATUS_CMD_STALL = 0 ∧ ((diff16 (MBX.CMD_DB_TAIL.ofWord w.toNat) (s.dev.get pgMBX MBX.CMD_CONSUMED_SEQ) < 0 ∨ 256 < diff16 (MBX.CMD_DB_TAIL.ofWord w.toNat) (s.dev.get pgMBX MBX.CMD_CONSUMED_SEQ)))) ∧
    (∃ (w : Word) (s : State), s.clocked ∧ s.dev.get pgMBX MBX.STATUS_CMD_STALL = 1) ∧
    (∃ (headErr : Bool) (s : State), s.clocked ∧ s.dev.fetching = true) ∧
    (∃ (entry : Option (List Byte)) (headErr : Bool) (s : State), s.clocked ∧ s.dev.fetching = false) ∧
    (∃ (entry : List Byte) (r : Nat) (s : State), s.clocked ∧ s.dev.fetching = true ∧ s.dev.mgmt.cmds = [] ∧ pay16 (bytesOf entry) 0 = (s.dev.get pgMBX MBX.CMD_CONSUMED_SEQ + 1) % 2 ^ 16 ∧ cmdPreset (pay16 (bytesOf entry) 2) (pay16 (bytesOf entry) 4) = some r) ∧
    (∃ (entry : List Byte) (s : State), s.clocked ∧ s.dev.fetching = true ∧ s.dev.mgmt.cmds = [] ∧ pay16 (bytesOf entry) 0 = (s.dev.get pgMBX MBX.CMD_CONSUMED_SEQ + 1) % 2 ^ 16 ∧ cmdPreset (pay16 (bytesOf entry) 2) (pay16 (bytesOf entry) 4) = none) ∧
    (∃ (entry : List Byte) (headErr : Bool) (s : State), s.clocked ∧ s.dev.fetching = true ∧ pay16 (bytesOf entry) 0 ≠ (s.dev.get pgMBX MBX.CMD_CONSUMED_SEQ + 1) % 2 ^ 16) ∧
    (∃ (c : RingCmd) (s : State), s.clocked ∧ s.dev.mgmt.cmds = [c] ∧ c.op = 1 ∧ c.started = false) ∧
    (∃ (c : RingCmd) (s : State), s.clocked ∧ s.dev.mgmt.cmds = [c] ∧ c.op = 4 ∧ c.started = false ∧ pay16 c.payload 0 < 192 ∧ s.dev.engState (pay16 c.payload 0) = 1 ∧ s.dev.checksOff = false) ∧
    (∃ (c : RingCmd) (s : State), s.clocked ∧ s.dev.mgmt.cmds = [c] ∧ c.op = 4 ∧ c.started = false ∧ pay16 c.payload 0 < 192 ∧ s.dev.engState (pay16 c.payload 0) ≠ 1 ∧ s.dev.engState (pay16 c.payload 0) ≠ 2 ∧ s.dev.engState (pay16 c.payload 0) ≠ 4) ∧
    (∃ (pc : BitVec 14) (c : RingCmd) (s : State), s.clocked ∧ s.dev.mgmt.cmds = [c] ∧ c.started = false ∧ 192 ≤ pay16 c.payload 0) ∧
    (∃ (pc : BitVec 14) (c : RingCmd) (s : State), s.clocked ∧ s.dev.mgmt.cmds = [c] ∧ c.op = 5 ∧ c.started = false ∧ pay16 c.payload 0 < 192 ∧ s.dev.engState (pay16 c.payload 0) ≠ 3) ∧
    (∃ (pc : BitVec 14) (s : State), s.clocked) ∧
    (∃ (pc : BitVec 14) (c : RingCmd) (s : State), s.clocked ∧ s.dev.mgmt.cmds = [c] ∧ c.op = 5 ∧ c.started = false ∧ pay16 c.payload 0 < 192 ∧ s.dev.engState (pay16 c.payload 0) = 3) ∧
    (∃ (c : RingCmd) (s : State), s.clocked ∧ s.dev.mgmt.cmds = [c] ∧ c.op = 6 ∧ c.started = false) ∧
    (∃ (n : Ntf) (t : List Ntf) (s : State), s.clocked ∧ s.dev.mgmt.ntf = n :: t ∧ s.dev.mgmt.lost = 0 ∧ s.dev.mgmt.retry = 0 ∧ s.dev.mgmt.groups = 0 ∧ s.dev.ntfRoom ≠ 0) ∧
    (∃ (s : State), s.clocked ∧ s.dev.mgmt.lost ≠ 0 ∧ s.dev.mgmt.lost < 2 ^ 16 ∧ s.dev.mgmt.retry = 0 ∧ s.dev.mgmt.groups = 0 ∧ s.dev.ntfRoom ≠ 0) ∧
    (∃ (s : State), s.clocked ∧ (s.dev.mgmt.lost ≠ 0 ∨ s.dev.mgmt.ntf ≠ []) ∧ s.dev.mgmt.retry = 0 ∧ s.dev.ntfRoom ≠ 0) ∧
    (∃ (s : State), s.clocked ∧ s.dev.mgmt.ntf ≠ [] ∧ s.dev.mgmt.lost = 0 ∧ s.dev.mgmt.retry = 0 ∧ s.dev.ntfRoom ≠ 0 ∧ s.dev.get pgMBX MBX.CTL_EN = 1) ∧
    (∃ (err : RingErr) (s : State), s.clocked ∧ (s.dev.ntfRoom = 0 ∨ s.dev.mgmt.retry ≠ 0 ∨ (s.dev.mgmt.lost = 0 ∧ s.dev.mgmt.ntf = []))) ∧
    (∃ (w : Word) (s : State), s.clocked) ∧
    (∃ (w : Word) (s : State), s.clocked ∧ s.dev.get pgMBX MBX.STATUS_RESYNC_BUSY = 0) ∧
    (∃ (w : Word) (s : State), s.clocked ∧ s.dev.get pgMBX MBX.STATUS_RESYNC_BUSY = 1) ∧
    (∃ (a : Nat) (s : State), s.clocked ∧ s.dev.mgmt.resync = some a ∧ s.dev.executing = false) ∧
    (∃ (ok : Bool) (s : State), s.clocked ∧ (s.dev.mgmt.resync = none ∨ s.dev.executing = true)) ∧
    (∃ (a : Nat) (s : State), s.clocked ∧ s.dev.mgmt.resync = some a ∧ s.dev.executing = false) ∧
    (∃ (w : Word) (s : State), s.clocked) ∧
    (∃ (entry : List Byte) (headErr : Bool) (s : State), s.clocked ∧ s.dev.mgmt.retry ≠ 0) ∧
    (∃ (ok : Bool) (entry : List Byte) (headErr : Bool) (s : State), s.clocked ∧ s.dev.mgmt.retry = 0) ∧
    (∃ (entry : List Byte) (headErr : Bool) (s : State), s.clocked ∧ s.dev.mgmt.retry = 1 ∧ s.dev.get pgMBX MBX.STATUS_RUN = 1 ∧ s.dev.mgmt.cmds = [] ∧ pay16 (bytesOf entry) 0 = (s.dev.get pgMBX MBX.CMD_CONSUMED_SEQ + 1) % 2 ^ 16) ∧
    (∃ (entry : List Byte) (headErr : Bool) (n : Ntf) (t : List Ntf) (s : State), s.clocked ∧ s.dev.mgmt.retry = 2 ∧ s.dev.get pgMBX MBX.CTL_EN = 1 ∧ s.dev.mgmt.ntf = n :: t ∧ s.dev.mgmt.lost = 0 ∧ s.dev.mgmt.groups = 0) ∧
    (∃ (entry : List Byte) (headErr : Bool) (s : State), s.clocked ∧ s.dev.mgmt.retry = 3 ∧ s.dev.get pgMBX MBX.CTL_EN = 1) :=
  ⟨⟨256, st Dev.reset, by decide +kernel⟩,
   ⟨257, st Dev.reset, by decide +kernel⟩,
   ⟨257, st (mk [(pgMBX, MBX.STATUS_CMD_STALL, 1)]), by decide +kernel⟩,
   ⟨false, st (mk [(pgMBX, MBX.STATUS_RUN, 1), (pgMBX, MBX.CTL_EN, 1), (pgMGMT, MGMT.STATUS_RT_ALIVE, 1), (pgMBX, MBX.CMD_DB_TAIL, 2)]), by decide +kernel⟩,
   ⟨none, false, st Dev.reset, by decide +kernel⟩,
   ⟨[1, 0, 9, 0, 0, 0, 0, 0], 1, st (mk [(pgMBX, MBX.STATUS_RUN, 1), (pgMBX, MBX.CTL_EN, 1), (pgMGMT, MGMT.STATUS_RT_ALIVE, 1), (pgMBX, MBX.CMD_DB_TAIL, 2)]), by decide +kernel⟩,
   ⟨[1, 0, 1, 0, 0, 0, 0, 0], st (mk [(pgMBX, MBX.STATUS_RUN, 1), (pgMBX, MBX.CTL_EN, 1), (pgMGMT, MGMT.STATUS_RT_ALIVE, 1), (pgMBX, MBX.CMD_DB_TAIL, 2)]), by decide +kernel⟩,
   ⟨[2, 0, 1, 0, 0, 0, 0, 0], false, st (mk [(pgMBX, MBX.STATUS_RUN, 1), (pgMBX, MBX.CTL_EN, 1), (pgMGMT, MGMT.STATUS_RT_ALIVE, 1), (pgMBX, MBX.CMD_DB_TAIL, 2)]), by decide +kernel⟩,
   ⟨⟨5, 1, [], none, false⟩, st ((mk []).mgmtUpd fun m => { m with cmds := [⟨5, 1, [], none, false⟩] }), by decide +kernel⟩,
   ⟨⟨5, 4, [191, 0, 7, 1], none, false⟩, st ((mk [(pgPIER 11, PIER.ENG_STATE.at 15, 1)]).mgmtUpd fun m => { m with cmds := [⟨5, 4, [191, 0, 7, 1], none, false⟩] }), by decide +kernel⟩,
   ⟨⟨5, 4, [191, 0, 7, 1], none, false⟩, st ((mk [(pgPIER 11, PIER.ENG_STATE.at 15, 3)]).mgmtUpd fun m => { m with cmds := [⟨5, 4, [191, 0, 7, 1], none, false⟩] }), by decide +kernel⟩,
   ⟨7, ⟨5, 4, [192, 0, 7, 1], none, false⟩, st ((mk []).mgmtUpd fun m => { m with cmds := [⟨5, 4, [192, 0, 7, 1], none, false⟩] }), by decide +kernel⟩,
   ⟨7, ⟨5, 5, [191, 0], none, false⟩, st ((mk [(pgPIER 11, PIER.ENG_STATE.at 15, 1)]).mgmtUpd fun m => { m with cmds := [⟨5, 5, [191, 0], none, false⟩] }), by decide +kernel⟩,
   ⟨7, st ((mk []).mgmtUpd fun m => { m with cmds := [⟨5, 2, [191, 0], none, false⟩] }), by decide +kernel⟩,
   ⟨7, ⟨5, 5, [191, 0], none, false⟩, st ((mk [(pgPIER 11, PIER.ENG_STATE.at 15, 3)]).mgmtUpd fun m => { m with cmds := [⟨5, 5, [191, 0], none, false⟩] }), by decide +kernel⟩,
   ⟨⟨5, 6, [1, 0, 0, 0, 15, 0, 0, 0], none, false⟩, st ((mk []).mgmtUpd fun m => { m with cmds := [⟨5, 6, [1, 0, 0, 0, 15, 0, 0, 0], none, false⟩] }), by decide +kernel⟩,
   ⟨⟨1, 9, 0, []⟩, [], st ((mk [(pgMBX, MBX.CTL_EN, 1), (pgMBX, MBX.NTF_BASE_LO_BASE, 5)]).mgmtUpd fun m => { m with ntf := [⟨1, 9, 0, []⟩] }), by decide +kernel⟩,
   ⟨st ((mk [(pgMBX, MBX.CTL_EN, 1), (pgMBX, MBX.NTF_BASE_LO_BASE, 5)]).mgmtUpd fun m => { m with ntf := [⟨1, 9, 0, []⟩], lost := 7 }), by decide +kernel⟩,
   ⟨st ((mk [(pgMBX, MBX.CTL_EN, 1)]).mgmtUpd fun m => { m with ntf := [⟨1, 9, 0, []⟩] }), by decide +kernel⟩,
   ⟨st ((mk [(pgMBX, MBX.CTL_EN, 1)]).mgmtUpd fun m => { m with ntf := [⟨1, 9, 0, []⟩] }), by decide +kernel⟩,
   ⟨.none, st ((mk [(pgMBX, MBX.CTL_EN, 1)]).mgmtUpd fun m => { m with ntf := [⟨1, 9, 0, []⟩], retry := 2 }), by decide +kernel⟩,
   ⟨0x12345, st Dev.reset, by decide +kernel⟩,
   ⟨0, st (mk [(pgMBX, MBX.RESYNC_ADDR_LO_ADDR, 77)]), by decide +kernel⟩,
   ⟨0, st (mk [(pgMBX, MBX.STATUS_RESYNC_BUSY, 1)]), by decide +kernel⟩,
   ⟨5, st ((mk [(pgMBX, MBX.STATUS_RESYNC_BUSY, 1)]).mgmtUpd fun m => { m with resync := some 5 }), by decide +kernel⟩,
   ⟨true, st Dev.reset, by decide +kernel⟩,
   ⟨5, st ((mk [(pgMBX, MBX.STATUS_RESYNC_BUSY, 1)]).mgmtUpd fun m => { m with resync := some 5 }), by decide +kernel⟩,
   ⟨0x12346, st Dev.reset, by decide +kernel⟩,
   ⟨[], false, st ((mk [(pgMBX, MBX.CTL_EN, 1)]).mgmtUpd fun m => { m with retry := 2 }), by decide +kernel⟩,
   ⟨true, [], false, st Dev.reset, by decide +kernel⟩,
   ⟨[1, 0, 1, 0, 0, 0, 0, 0], false, st ((mk [(pgMBX, MBX.STATUS_RUN, 1), (pgMBX, MBX.CTL_EN, 1)]).mgmtUpd fun m => { m with retry := 1 }), by decide +kernel⟩,
   ⟨[], false, ⟨1, 9, 0, []⟩, [], st ((mk [(pgMBX, MBX.CTL_EN, 1)]).mgmtUpd fun m => { m with ntf := [⟨1, 9, 0, []⟩], retry := 2 }), by decide +kernel⟩,
   ⟨[], false, st ((mk [(pgMBX, MBX.CTL_EN, 1)]).mgmtUpd fun m => { m with retry := 3 }), by decide +kernel⟩⟩

/-- The premises of MemoryControllers can be met, clause by clause. -/
theorem wit_MemoryControllers :
    (∃ (q : Fin 2) (ok : Bool) (s : State), s.clocked) ∧
    (∃ (s : State), s.clocked ∧ s.dev.get pgECC ECC.STATUS_FILL_DONE = 0) ∧
    (∃ (s : State), s.clocked ∧ s.dev.get pgECC ECC.STATUS_FILL_DONE = 1) ∧
    (∃ (p : Port) (s : State), s.clocked ∧ (s.dev.flag (pgLDSYS p) LDSYS.GATED = true ∨ s.dev.flag (pgLDSYS p) LDSYS.HELD = true)) ∧
    (∃ (p : Port) (s : State), s.clocked ∧ s.dev.flag (pgLDSYS p) LDSYS.GATED = false ∧ s.dev.flag (pgLDSYS p) LDSYS.HELD = false ∧ s.dev.get (pgTRS p) TRS.STATUS_LINK_UP = 1 ∧ s.dev.online p = false) ∧
    (∃ (p : Port) (s : State), s.clocked ∧ s.dev.flag (pgLDSYS p) LDSYS.GATED = false ∧ s.dev.flag (pgLDSYS p) LDSYS.HELD = false ∧ s.dev.get (pgTRS p) TRS.STATUS_LINK_UP = 0) ∧
    (∃ (ctrl : Fin 3) (s : State), s.clocked ∧ ((s.dev.merge.filter fun e => e.ctrl == ctrl.val) = [])) ∧
    (∃ (ctrl : Fin 3) (e : MergeEntry) (t : List MergeEntry) (s : State), s.clocked ∧ ((s.dev.merge.filter fun e => e.ctrl == ctrl.val) = e :: t) ∧ e.mask = 0xFF ∧ e.data < 2 ^ 64) ∧
    (∃ (ctrl : Fin 3) (e : MergeEntry) (t : List MergeEntry) (s : State), s.clocked ∧ ((s.dev.merge.filter fun e => e.ctrl == ctrl.val) = e :: t) ∧ e.mask ≠ 0xFF ∧ s.dev.wordSyn (ctrlMem ctrl.val) e.word = 0) ∧
    (∃ (b : Fin 13) (word : BitVec 23) (last : Bool) (w : Nat) (s : State), s.clocked ∧ (w = (if b.val = 1 ∨ b.val = 2 then s.dev.get (eccPort b.val).pg QMC.SCRUB_POS_WORD else word.toNat)) ∧ (s.dev.get pgECC (if b.val = 1 ∨ b.val = 2 then ECC.CTL_QDR_SCRUB else ECC.CTL_SRAM_SCRUB) ≠ 0) ∧ ((5 ≤ b.val → s.dev.online (if b.val < 9 then 0 else 1) = true)) ∧ s.dev.wordSyn (bucketWord b.val w).1 (bucketWord b.val w).2 = 0) ∧
    (∃ (b : Fin 13) (word : BitVec 23) (x : Upset) (last : Bool) (s : State), s.clocked ∧ (s.dev.get pgECC (if b.val = 1 ∨ b.val = 2 then ECC.CTL_QDR_SCRUB else ECC.CTL_SRAM_SCRUB) = 0 ∨ (5 ≤ b.val ∧ s.dev.online (if b.val < 9 then 0 else 1) = false))) ∧
    (∃ (word : BitVec 23) (last : Bool) (s : State), s.clocked ∧ s.dev.get pgECC ECC.CTL_SRAM_SCRUB ≠ 0 ∧ s.dev.wordSyn 2 word.toNat = 0) ∧
    (∃ (word : BitVec 23) (x : BitVec 72) (i : Fin 64) (last : Bool) (s : State), s.clocked ∧ s.dev.get pgECC ECC.CTL_SRAM_SCRUB ≠ 0 ∧ s.dev.wordSyn 2 word.toNat = 0 ∧ s.dev.wordData 2 word.toNat < 2 ^ 64 ∧ x.toNat = 2 ^ i.val) ∧
    (∃ (word : BitVec 23) (x : BitVec 72) (last : Bool) (s : State), s.clocked ∧ s.dev.get pgECC ECC.CTL_SRAM_SCRUB ≠ 0 ∧ s.dev.wordSyn 2 word.toNat = 0 ∧ eccClass (flipSyn x.toNat) = 3) ∧
    (∃ (b : Fin 13) (s : State), s.clocked) ∧
    (∃ (q : Fin 2) (s : State), s.clocked) ∧
    (∃ (q : Fin 2) (w : Word) (s : State), s.clocked) :=
  ⟨⟨1, false, st Dev.reset, by decide +kernel⟩,
   ⟨st (mk [(pgQMC 0, QMC.STATUS_TRAINED, 1)]), by decide +kernel⟩,
   ⟨st (mk [(pgECC, ECC.STATUS_FILL_DONE, 1)]), by decide +kernel⟩,
   ⟨1, st (mk [(pgLDSYS 1, LDSYS.GATED, 1)]), by decide +kernel⟩,
   ⟨1, st (mk [(pgTRS 1, TRS.STATUS_LINK_UP, 1)]), by decide +kernel⟩,
   ⟨1, st (mk []), by decide +kernel⟩,
   ⟨2, st { (mk []) with merge := [⟨0, 3, 0xFF, 5, 0⟩] }, by decide +kernel⟩,
   ⟨2, ⟨2, 3, 0xFF, 0x1122334455667788, 0⟩, [], st { (mk []) with merge := [⟨0, 3, 0xFF, 5, 0⟩, ⟨2, 3, 0xFF, 0x1122334455667788, 0⟩] }, by decide +kernel⟩,
   ⟨2, ⟨2, 3, 0x0F, 0x1122334455667788, 0⟩, [], st { (mk []) with merge := [⟨0, 3, 0xFF, 5, 0⟩, ⟨2, 3, 0x0F, 0x1122334455667788, 0⟩], mem := memWriteN [] 8 (wordAddr 1 3) 0xF00000000000000F }, by decide +kernel⟩,
   ⟨2, 5, true, 0x1FFFFF, st (mk [(0x21, QMC.SCRUB_POS_WORD, 0x1FFFFF)]), by decide +kernel⟩,
   ⟨12, 5, ⟨1, 0, 0⟩, true, st (mk []), by decide +kernel⟩,
   ⟨5, true, st (mk []), by decide +kernel⟩,
   ⟨5, 0x8000000000000000, 63, true, st { (mk []) with mem := memWriteN [] 8 (wordAddr 2 5) 0xF00000000000000F }, by decide +kernel⟩,
   ⟨5, 3, true, st { (mk []) with mem := memWriteN [] 8 (wordAddr 2 5) 0xF00000000000000F }, by decide +kernel⟩,
   ⟨12, st (mk [(pgECC, ECC.BKT_LEVEL.at 12, 16)]), by decide +kernel⟩,
   ⟨1, st (mk [(pgQMC 1, QMC.LINK_ERR, 17)]), by decide +kernel⟩,
   ⟨1, 0xFFFFFFFF, st (mk [(pgQMC 1, QMC.STATUS_TRAINED, 1)]), by decide +kernel⟩⟩

/-- The premises of MemoryWindows can be met, clause by clause. -/
theorem wit_MemoryWindows :
    (∃ (off : BitVec 26) (wide : Bool) (x : Upset) (s : State), s.clocked ∧ s.dev.merge = [] ∧ s.dev.bar2Place off.toNat = none) ∧
    (∃ (off : BitVec 26) (wide : Bool) (x : Upset) (m a : Nat) (s : State), s.clocked ∧ s.dev.bar2Place off.toNat = some (m, a) ∧ s.dev.filled m a = false ∧ s.dev.qmOffline m = false ∧ s.dev.merge = []) ∧
    (∃ (off : BitVec 26) (wide : Bool) (m a : Nat) (s : State), s.clocked ∧ s.dev.bar2Place off.toNat = some (m, a) ∧ s.dev.filled m a = true ∧ s.dev.qmOffline m = false ∧ s.dev.merge = [] ∧ s.dev.wordSyn m (a / 8) = 0) ∧
    (∃ (off : BitVec 26) (be : BitVec 8) (data : BitVec 64) (wide : Bool) (x : Upset) (m a : Nat) (s : State), s.clocked ∧ s.dev.bar2Place off.toNat = some (m, a) ∧ s.dev.qmOffline m = true) ∧
    (∃ (off : BitVec 26) (be : BitVec 8) (data : BitVec 64) (a : Nat) (s : State), s.clocked ∧ s.dev.bar2Place off.toNat = some (2, a) ∧ s.dev.filled 2 a = true ∧ s.dev.get pgKSMB KSMB.BOOT_STATE = 5) ∧
    (∃ (off : BitVec 26) (wide : Bool) (a : Nat) (s : State), s.clocked ∧ s.dev.bar2Place off.toNat = some (2, a) ∧ s.dev.filled 2 a = true ∧ s.dev.merge = [] ∧ s.dev.wordSyn 2 (a / 8) = 0xFF) ∧
    (∃ (off : BitVec 26) (be : BitVec 8) (data : BitVec 64) (s : State), s.clocked ∧ s.dev.bar2Place off.toNat = none) ∧
    (∃ (off : BitVec 26) (be : BitVec 8) (data : BitVec 64) (m a : Nat) (s : State), s.clocked ∧ s.dev.bar2Place off.toNat = some (m, a) ∧ s.dev.filled m a = false ∧ s.dev.qmOffline m = false) ∧
    (∃ (off : BitVec 26) (data : BitVec 64) (m a : Nat) (s : State), s.clocked ∧ s.dev.bar2Place off.toNat = some (m, a) ∧ m < 3 ∧ s.dev.filled m a = true ∧ s.dev.qmOffline m = false ∧ s.dev.get pgKSMB KSMB.BOOT_STATE ≠ 5 ∧ ((∀ e ∈ s.dev.merge, ¬(ctrlMem e.ctrl = m ∧ e.word = a / 8)))) ∧
    (∃ (off : BitVec 26) (be : BitVec 8) (data : BitVec 64) (m a c : Nat) (s : State), s.clocked ∧ s.dev.bar2Place off.toNat = some (m, a) ∧ memCtrl m = some c ∧ s.dev.filled m a = true ∧ s.dev.qmOffline m = false ∧ ((m = 2 → s.dev.get pgKSMB KSMB.BOOT_STATE ≠ 5)) ∧ be ≠ 0 ∧ be ≠ 0xFF ∧ ((s.dev.merge.filter fun e => e.ctrl == c).length < 8) ∧ ((∀ e ∈ s.dev.merge, ¬(e.ctrl = c ∧ e.word = a / 8)))) ∧
    (∃ (off : BitVec 26) (be : BitVec 8) (data : BitVec 64) (m a c : Nat) (e : MergeEntry) (s : State), s.clocked ∧ s.dev.bar2Place off.toNat = some (m, a) ∧ memCtrl m = some c ∧ s.dev.filled m a = true ∧ s.dev.qmOffline m = false ∧ ((m = 2 → s.dev.get pgKSMB KSMB.BOOT_STATE ≠ 5)) ∧ be ≠ 0 ∧ be ≠ 0xFF ∧ s.dev.merge = [e] ∧ e.ctrl = c ∧ e.word = a / 8) ∧
    (∃ (off : BitVec 26) (be : BitVec 8) (data : BitVec 64) (a : Nat) (s : State), s.clocked ∧ s.dev.bar2Place off.toNat = some (3, a) ∧ s.dev.filled 3 a = true ∧ be ≠ 0 ∧ s.dev.engState (a / 32768) ≠ 2 ∧ s.dev.engState (a / 32768) ≠ 3 ∧ s.dev.wordSyn 3 (a / 8) = 0) ∧
    (∃ (off : BitVec 26) (be : BitVec 8) (data : BitVec 64) (a : Nat) (s : State), s.clocked ∧ s.dev.bar2Place off.toNat = some (3, a) ∧ s.dev.filled 3 a = true ∧ be ≠ 0 ∧ a / 8 % 4096 < 2048 ∧ s.dev.engState (a / 32768) = 3) ∧
    (∃ (w : Word) (a : Nat) (s : State), s.clocked ∧ w.getLsbD 1 = false ∧ s.dev.get pgECC ECC.TEST_ADDR_MEM = 0 ∧ s.dev.merge = [] ∧ a = s.dev.get pgECC ECC.TEST_ADDR_WORD % 2 ^ 23) ∧
    (∃ (w : Word) (m a : Nat) (s : State), s.clocked ∧ w.getLsbD 1 = false ∧ s.dev.get pgECC ECC.TEST_ADDR_MEM = m + 1 ∧ m < 2 ∧ s.dev.merge = [] ∧ a = s.dev.get pgECC ECC.TEST_ADDR_WORD % 2 ^ 21) ∧
    (∃ (w : Word) (m a : Nat) (s : State), s.clocked ∧ w.getLsbD 0 = false ∧ s.dev.get pgECC ECC.TEST_ADDR_MEM = m + 1 ∧ m < 2 ∧ s.dev.merge = [] ∧ a = s.dev.get pgECC ECC.TEST_ADDR_WORD % 2 ^ 21 ∧ s.dev.wordSyn m a < 2 ^ 8) ∧
    (∃ (w : Word) (s : State), s.clocked ∧ s.dev.get pgECC ECC.TEST_ADDR_MEM = 3) ∧
    (∃ (w : Word) (a : Nat) (s : State), s.clocked ∧ w.getLsbD 0 = false ∧ s.dev.get pgECC ECC.TEST_ADDR_MEM = 0 ∧ s.dev.merge = [] ∧ a = s.dev.get pgECC ECC.TEST_ADDR_WORD % 2 ^ 23 ∧ s.dev.wordSyn 2 a < 2 ^ 8) :=
  ⟨⟨0x3600000, true, ⟨1, 2, 3⟩, st Dev.reset, by decide +kernel⟩,
   ⟨0x2FFFFFF, true, ⟨1, 2, 3⟩, 2, 0xFFFFFF, st Dev.reset, by decide +kernel⟩,
   ⟨0x2C, false, 0, 0x2C, st { (mk [(0x20, QMC.STATUS_FILL_DONE, 1)]) with mem := memWriteN [] 8 (wordAddr 0 5) 0xF00000000000000F }, by decide +kernel⟩,
   ⟨0x2C, 0xFF, 5, false, ⟨1, 2, 3⟩, 0, 0x2C, st (mk [(0x20, QMC.STATUS_OFFLINE, 1)]), by decide +kernel⟩,
   ⟨0x200002C, 0xFF, 5, 0x2C, st (mk [(pgECC, ECC.STATUS_FILL_DONE, 1), (pgKSMB, KSMB.BOOT_STATE, 5)]), by decide +kernel⟩,
   ⟨0x200002C, false, 0x2C, st { (mk [(pgECC, ECC.STATUS_FILL_DONE, 1)]) with syn := [(wordAddr 2 5 / 8, 0xFF)] }, by decide +kernel⟩,
   ⟨0x3600000, 0xFF, 5, st Dev.reset, by decide +kernel⟩,
   ⟨0x2FFFFFF, 0xFF, 5, 2, 0xFFFFFF, st Dev.reset, by decide +kernel⟩,
   ⟨0xFFFFF8, 0xF00000000000000F, 0, 0xFFFFF8, st { (mk [(pgQMC 0, QMC.STATUS_FILL_DONE, 1)]) with merge := [⟨1, 3, 1, 1, 0⟩] }, by decide +kernel⟩,
   ⟨0x28, 0x0F, 0xF00000000000000F, 0, 0x28, 1, st { (mk [(0x20, QMC.STATUS_FILL_DONE, 1)]) with merge := [⟨1, 6, 1, 1, 0⟩] }, by decide +kernel⟩,
   ⟨0x28, 0x0F, 0xF00000000000000F, 0, 0x28, 1, ⟨1, 5, 0x30, 1, 0⟩, st { (mk [(0x20, QMC.STATUS_FILL_DONE, 1)]) with merge := [⟨1, 5, 0x30, 1, 0⟩] }, by decide +kernel⟩,
   ⟨0x3000028, 0x0F, 0xF00000000000000F, 0x28, st (mk [(pgLDSYS 0, LDSYS.STATUS_FILL_DONE, 1)]), by decide +kernel⟩,
   ⟨0x3000028, 0x0F, 0xF00000000000000F, 0x28, st (mk [(pgLDSYS 0, LDSYS.STATUS_FILL_DONE, 1), (pgPIER 0, PIER.ENG_STATE.at 0, 3)]), by decide +kernel⟩,
   ⟨0, 5, st (mk [(pgECC, ECC.TEST_ADDR_WORD, 5), (pgECC, ECC.TEST_DATA_LO_DATA, 7), (pgECC, ECC.TEST_CHK_CHK, 9)]), by decide +kernel⟩,
   ⟨0, 1, 5, st (mk [(pgECC, ECC.TEST_ADDR_MEM, 2), (pgECC, ECC.TEST_ADDR_WORD, 5), (pgECC, ECC.TEST_DATA_LO_DATA, 7), (pgECC, ECC.TEST_CHK_CHK, 9)]), by decide +kernel⟩,
   ⟨2, 1, 5, st { (mk [(pgECC, ECC.TEST_ADDR_MEM, 2), (pgECC, ECC.TEST_ADDR_WORD, 5)]) with mem := memWriteN [] 8 (wordAddr 1 5) 0xF00000000000000F }, by decide +kernel⟩,
   ⟨3, st (mk [(pgECC, ECC.TEST_ADDR_MEM, 3)]), by decide +kernel⟩,
   ⟨2, 5, st { (mk [(pgECC, ECC.TEST_ADDR_WORD, 5)]) with mem := memWriteN [] 8 (wordAddr 2 5) 0xF00000000000000F, syn := [(wordAddr 2 5 / 8, 0xFF)] }, by decide +kernel⟩⟩

/-- The premises of TrussLinks can be met, clause by clause. -/
theorem wit_TrussLinks :
    (∃ (p : Port) (toLine : Bool) (m : Fin 3) (g : Nat) (s : State), s.clocked ∧ g = (if toLine then pgTRSL p else pgTRS p) ∧ s.dev.get g (TRS.MOD_STATE.at m.val) = 2) ∧
    (∃ (p : Port) (toLine : Bool) (m : Fin 3) (g : Nat) (s : State), s.clocked ∧ g = (if toLine then pgTRSL p else pgTRS p) ∧ s.dev.get g (TRS.MOD_STATE.at m.val) = 2 ∧ s.dev.get g (TRS.streak m.val) < 3) ∧
    (∃ (p : Port) (toLine : Bool) (m : Fin 3) (bad : Option FlitFault) (s : State), s.clocked ∧ s.dev.get (if toLine then pgTRSL p else pgTRS p) (TRS.MOD_STATE.at m.val) ≠ 2) ∧
    (∃ (p : Port) (toLine : Bool) (m : Fin 3) (g : Nat) (s : State), s.clocked ∧ g = (if toLine then pgTRSL p else pgTRS p) ∧ s.dev.get g (TRS.MOD_STATE.at m.val) = 2 ∧ s.dev.get g (TRS.streak m.val) < 3) ∧
    (∃ (p : Port) (m : Fin 3) (bad : FlitFault) (s : State), s.clocked ∧ s.dev.get (pgTRS p) (TRS.MOD_STATE.at m.val) = 2 ∧ s.dev.get (pgTRS p) (TRS.streak m.val) = 3) ∧
    (∃ (p : Port) (m : Fin 3) (bad : FlitFault) (s : State), s.clocked ∧ s.dev.get (pgTRSL p) (TRS.MOD_STATE.at m.val) = 2 ∧ s.dev.get (pgTRS p) (TRS.MOD_STATE.at m.val) = 2 ∧ s.dev.get (pgTRSL p) (TRS.streak m.val) = 3) ∧
    (∃ (p : Port) (toLine : Bool) (m : Fin 3) (worst total : BitVec 32) (g : Nat) (s : State), s.clocked ∧ g = (if toLine then pgTRSL p else pgTRS p) ∧ m ≠ 0 ∧ worst.toNat ≤ s.dev.get g TRS.CTL_LANE_THR) ∧
    (∃ (p : Port) (toLine : Bool) (m : Fin 3) (worst total : BitVec 32) (s : State), s.clocked ∧ m ≠ 0 ∧ s.dev.get (pgTRS p) (TRS.MOD_STATE.at m.val) = 2 ∧ s.dev.get (if toLine then pgTRSL p else pgTRS p) TRS.CTL_LANE_THR < worst.toNat) ∧
    (∃ (p : Port) (m : Fin 3) (s : State), s.clocked ∧ s.dev.get (pgTRS p) (TRS.MOD_STATE.at m.val) < 2 ∧ s.dev.flag (pgLDSYS p) LDSYS.GATED = false ∧ s.dev.flag (pgLDSYS p) LDSYS.HELD = false ∧ s.dev.get (pgTRS p) (TRS.MOD_REP_LO.at m.val) ≤ 2 ∧ s.dev.get (pgTRS p) (TRS.MOD_REP_HI.at m.val) ≤ 2 ∧ s.dev.get (pgTRSL p) (TRS.MOD_REP_LO.at m.val) ≤ 2 ∧ s.dev.get (pgTRSL p) (TRS.MOD_REP_HI.at m.val) ≤ 2) ∧
    (∃ (p : Port) (m : Fin 3) (hub line : BitVec 4) (s : State), s.clocked ∧ s.dev.get (pgTRS p) (TRS.MOD_STATE.at m.val) < 2 ∧ s.dev.flag (pgLDSYS p) LDSYS.GATED = false ∧ s.dev.flag (pgLDSYS p) LDSYS.HELD = false ∧ s.dev.get (pgTRS p) TRS.CTL_AUTO_REPAIR = 1 ∧ s.dev.get (pgTRSL p) TRS.CTL_AUTO_REPAIR = 1 ∧ s.dev.get (pgTRS p) (TRS.MOD_REP_LO.at m.val) = 0 ∧ s.dev.get (pgTRS p) (TRS.MOD_REP_HI.at m.val) = 0 ∧ s.dev.get (pgTRSL p) (TRS.MOD_REP_LO.at m.val) = 0 ∧ s.dev.get (pgTRSL p) (TRS.MOD_REP_HI.at m.val) = 0) ∧
    (∃ (p : Port) (m : Fin 3) (ok : Bool) (hub line : BitVec 4) (s : State), s.clocked ∧ (2 ≤ s.dev.get (pgTRS p) (TRS.MOD_STATE.at m.val) ∨ s.dev.flag (pgLDSYS p) LDSYS.GATED = true ∨ s.dev.flag (pgLDSYS p) LDSYS.HELD = true)) ∧
    (∃ (p : Port) (m : Fin 3) (hub line : BitVec 4) (s : State), s.clocked ∧ s.dev.get (pgTRS p) (TRS.MOD_STATE.at m.val) < 2 ∧ s.dev.flag (pgLDSYS p) LDSYS.GATED = false ∧ s.dev.flag (pgLDSYS p) LDSYS.HELD = false) ∧
    (∃ (p : Port) (w : Word) (s : State), s.clocked ∧ w.getLsbD 20 = false ∧ w.getLsbD 21 = true ∧ w.getLsbD 22 = false ∧ s.dev.get (pgTRS p) (TRS.MOD_STATE.at 1) = 3 ∧ s.dev.flag (pgLDSYS p) LDSYS.GATED = false ∧ s.dev.flag (pgLDSYS p) LDSYS.HELD = false) ∧
    (∃ (p : Port) (w : Word) (s : State), s.clocked ∧ s.dev.online p = true ∧ w.getLsbD 20 = false ∧ w.getLsbD 21 = true ∧ w.getLsbD 22 = false ∧ s.dev.get (pgTRSL p) (TRS.MOD_STATE.at 1) = 2 ∧ s.dev.get (pgTRS p) (TRS.MOD_STATE.at 1) = 2) :=
  ⟨⟨1, true, 2, pgTRSL 1, st (mk [(pgTRSL 1, TRS.MOD_STATE.at 2, 2)]), by decide +kernel⟩,
   ⟨1, true, 2, pgTRSL 1, st (mk [(pgTRSL 1, TRS.MOD_STATE.at 2, 2), (pgTRSL 1, TRS.streak 2, 2)]), by decide +kernel⟩,
   ⟨1, true, 2, none, st (mk []), by decide +kernel⟩,
   ⟨1, false, 2, pgTRS 1, st (mk [(pgTRS 1, TRS.MOD_STATE.at 2, 2), (pgTRS 1, TRS.streak 2, 2)]), by decide +kernel⟩,
   ⟨1, 2, .crc, st (mk [(pgTRS 1, TRS.MOD_STATE.at 2, 2), (pgTRSL 1, TRS.MOD_STATE.at 2, 2), (pgTRS 1, TRS.streak 2, 3)]), by decide +kernel⟩,
   ⟨1, 2, .crc, st (mk [(pgTRS 1, TRS.MOD_STATE.at 2, 2), (pgTRSL 1, TRS.MOD_STATE.at 2, 2), (pgTRSL 1, TRS.streak 2, 3)]), by decide +kernel⟩,
   ⟨1, true, 2, 16, 40, pgTRSL 1, st (mk []), by decide +kernel⟩,
   ⟨1, true, 2, 17, 40, st (mk [(pgTRS 1, TRS.MOD_STATE.at 2, 2), (pgTRSL 1, TRS.MOD_STATE.at 2, 2)]), by decide +kernel⟩,
   ⟨1, 2, st (mk []), by decide +kernel⟩,
   ⟨1, 2, 9, 2, st (mk []), by decide +kernel⟩,
   ⟨1, 2, true, 3, 4, st (mk [(pgTRS 1, TRS.MOD_STATE.at 2, 2)]), by decide +kernel⟩,
   ⟨1, 2, 3, 4, st (mk []), by decide +kernel⟩,
   ⟨1, 0x200A05, st (mk [(pgTRS 1, TRS.MOD_STATE.at 1, 3)]), by decide +kernel⟩,
   ⟨1, 0x200A05, st (mk [(pgLDSYS 1, LDSYS.STATUS_READY, 1), (pgTRS 1, TRS.MOD_STATE.at 1, 2), (pgTRSL 1, TRS.MOD_STATE.at 1, 2)]), by decide +kernel⟩⟩

/-- The premises of DmaControl can be met, clause by clause. -/
theorem wit_DmaControl :
    (∃ (c : Fin 8) (w : Word) (s : State), s.clocked ∧ w.getLsbD 1 = false ∧ w.getLsbD 2 = false ∧ w.getLsbD 3 = false ∧ w.getLsbD 8 = false ∧ s.dev.get pgECC ECC.STATUS_FILL_DONE = 1 ∧ s.dev.dmaGet c.val DMA.STAT_STATE = 0 ∧ (s.dev.dmaSet c.val).refuse = 0 ∧ s.dev.flag pgDMA DMA.RST_PEND = false) ∧
    (∃ (c : Fin 8) (w : Word) (s : State), s.clocked ∧ w.getLsbD 1 = false ∧ w.getLsbD 2 = false ∧ w.getLsbD 3 = false ∧ w.getLsbD 8 = false ∧ s.dev.get pgECC ECC.STATUS_FILL_DONE = 1 ∧ s.dev.dmaGet c.val DMA.STAT_STATE = 0 ∧ (s.dev.dmaSet c.val).refuse ≠ 0 ∧ s.dev.flag pgDMA DMA.RST_PEND = false) ∧
    (∃ (c : Fin 8) (w : Word) (s : State), s.clocked ∧ w.getLsbD 1 = false ∧ w.getLsbD 2 = false ∧ w.getLsbD 3 = false ∧ w.getLsbD 8 = false ∧ s.dev.dmaGet c.val DMA.STAT_STATE ≠ 0 ∧ s.dev.flag pgDMA DMA.RST_PEND = false) ∧
    (∃ (c : Fin 8) (w : Word) (s : State), s.clocked ∧ w.getLsbD 1 = false ∧ w.getLsbD 2 = false ∧ w.getLsbD 3 = false ∧ w.getLsbD 8 = false ∧ s.dev.get pgECC ECC.STATUS_FILL_DONE = 0 ∧ s.dev.flag pgDMA DMA.RST_PEND = false) ∧
    (∃ (c : Fin 8) (w : Word) (s : State), s.clocked ∧ w.getLsbD 0 = false ∧ w.getLsbD 2 = false ∧ w.getLsbD 3 = false ∧ w.getLsbD 8 = false ∧ (s.dev.dmaGet c.val DMA.STAT_STATE ≠ 0 ∨ s.dev.dmaGet c.val DMA.CTL_SHD_ARM = 0) ∧ s.dev.flag pgDMA DMA.RST_PEND = false) ∧
    (∃ (c : Fin 8) (w : Word) (s : State), s.clocked ∧ w.getLsbD 0 = false ∧ w.getLsbD 1 = false ∧ w.getLsbD 3 = false ∧ w.getLsbD 8 = false ∧ s.dev.dmaGet c.val DMA.STAT_STATE ≠ 1 ∧ s.dev.dmaGet c.val DMA.STAT_STATE ≠ 4 ∧ s.dev.flag pgDMA DMA.RST_PEND = false) ∧
    (∃ (c : Fin 8) (w : Word) (s : State), s.clocked ∧ w.getLsbD 0 = false ∧ w.getLsbD 2 = false ∧ w.getLsbD 3 = false ∧ w.getLsbD 8 = false ∧ s.dev.get pgECC ECC.STATUS_FILL_DONE = 1 ∧ s.dev.dmaGet c.val DMA.STAT_STATE = 0 ∧ s.dev.dmaGet c.val DMA.CTL_SHD_ARM = 1 ∧ s.dev.flag pgDMA DMA.RST_PEND = false) ∧
    (∃ (c : Fin 8) (w : Word) (s : State), s.clocked ∧ w.getLsbD 0 = false ∧ w.getLsbD 1 = false ∧ w.getLsbD 3 = false ∧ w.getLsbD 8 = false ∧ s.dev.dmaGet c.val DMA.STAT_STATE = 1 ∧ s.dev.flag pgDMA DMA.RST_PEND = false) ∧
    (∃ (c : Fin 8) (w : Word) (s : State), s.clocked ∧ w.getLsbD 0 = false ∧ w.getLsbD 1 = false ∧ w.getLsbD 3 = false ∧ w.getLsbD 8 = false ∧ s.dev.dmaGet c.val DMA.STAT_STATE = 4 ∧ s.dev.flag pgDMA DMA.RST_PEND = false) ∧
    (∃ (c : Fin 8) (w : Word) (s : State), s.clocked ∧ w.getLsbD 0 = false ∧ w.getLsbD 1 = false ∧ w.getLsbD 2 = false ∧ w.getLsbD 8 = false ∧ s.dev.flag pgDMA DMA.RST_PEND = false) ∧
    (∃ (c : Fin 8) (w : Word) (s : State), s.clocked ∧ w.getLsbD 0 = false ∧ w.getLsbD 1 = false ∧ w.getLsbD 2 = false ∧ w.getLsbD 3 = false ∧ s.dev.flag pgDMA DMA.RST_PEND = false) ∧
    (∃ (c : Fin 8) (r : Fin 11) (w : Word) (fs : List Fld × List Fld) (s : State), s.clocked ∧ dmaFields[r.val]? = some fs ∧ s.dev.dmaGet c.val DMA.STAT_STATE = 0) ∧
    (∃ (c : Fin 8) (r : Fin 11) (w : Word) (fs : List Fld × List Fld) (s : State), s.clocked ∧ dmaFields[r.val]? = some fs ∧ s.dev.dmaGet c.val DMA.CTL_SHD_ARM = 0) ∧
    (∃ (c : Fin 8) (r : Fin 11) (w : Word) (s : State), s.clocked ∧ s.dev.dmaGet c.val DMA.STAT_STATE ≠ 0) ∧
    (∃ (c : Fin 8) (r : Fin 11) (w : Word) (s : State), s.clocked ∧ s.dev.dmaGet c.val DMA.CTL_SHD_ARM = 1) ∧
    (∃ (c : Fin 8) (s : State), s.clocked ∧ s.dev.dmaGet c.val DMA.STAT_STATE ≠ 2) ∧
    (∃ (c : Fin 8) (s : State), s.clocked ∧ s.dev.dmaGet c.val DMA.STAT_STATE = 2 ∧ s.dev.flag pgDMA DMA.RST_PEND = false) ∧
    (∃ (s : State), s.clocked ∧ s.dev.get pgDMA DMA.STATUS_BUSY = 0 ∧ ((∀ c : Fin 8, s.dev.dmaGet c.val DMA.STAT_STATE = 0))) ∧
    (∃ (c : Fin 8) (s : State), s.clocked ∧ s.dev.dmaGet c.val DMA.STAT_STATE = 1 ∧ bitOf (s.dev.get pgDMA DMA.STATUS_BUSY) c.val = true) :=
  ⟨⟨7, 1, st (mk [(pgECC, ECC.STATUS_FILL_DONE, 1), (pgDMA, DMA.DST_LO_ADDR.at 7, 0x1000)]), by decide +kernel⟩,
   ⟨7, 1, st (mk [(pgECC, ECC.STATUS_FILL_DONE, 1)]), by decide +kernel⟩,
   ⟨7, 1, st (mk [(pgECC, ECC.STATUS_FILL_DONE, 1), (pgDMA, DMA.STAT_STATE.at 7, 4)]), by decide +kernel⟩,
   ⟨7, 1, st (mk []), by decide +kernel⟩,
   ⟨7, 2, st (mk [(pgECC, ECC.STATUS_FILL_DONE, 1)]), by decide +kernel⟩,
   ⟨7, 4, st (mk [(pgDMA, DMA.STAT_STATE.at 7, 2)]), by decide +kernel⟩,
   ⟨7, 2, st (mk [(pgECC, ECC.STATUS_FILL_DONE, 1), (pgDMA, DMA.SHD_DST_LO_ADDR.at 7, 0x1000), (pgDMA, DMA.CTL_SHD_ARM.at 7, 1)]), by decide +kernel⟩,
   ⟨7, 4, st (mk [(pgDMA, DMA.STAT_STATE.at 7, 1)]), by decide +kernel⟩,
   ⟨7, 4, st (mk [(pgDMA, DMA.STAT_STATE.at 7, 4), (pgDMA, DMA.STATUS_HALTED, 128)]), by decide +kernel⟩,
   ⟨7, 8, st (mk [(pgDMA, DMA.CTL_SHD_ARM.at 7, 1)]), by decide +kernel⟩,
   ⟨7, 256, st (mk []), by decide +kernel⟩,
   ⟨7, 10, 0x712, ([DMA.CFG_SRC_SP, DMA.CFG_DST_SP, DMA.CFG_RETRY_MAX], [DMA.SHD_CFG_SRC_SP, DMA.SHD_CFG_DST_SP, DMA.SHD_CFG_RETRY_MAX]), st (mk []), by decide +kernel⟩,
   ⟨7, 10, 0x712, ([DMA.CFG_SRC_SP, DMA.CFG_DST_SP, DMA.CFG_RETRY_MAX], [DMA.SHD_CFG_SRC_SP, DMA.SHD_CFG_DST_SP, DMA.SHD_CFG_RETRY_MAX]), st (mk []), by decide +kernel⟩,
   ⟨7, 10, 0x712, st (mk [(pgDMA, DMA.STAT_STATE.at 7, 1)]), by decide +kernel⟩,
   ⟨7, 10, 0x712, st (mk [(pgDMA, DMA.CTL_SHD_ARM.at 7, 1)]), by decide +kernel⟩,
   ⟨7, st (mk [(pgDMA, DMA.STAT_STATE.at 7, 1)]), by decide +kernel⟩,
   ⟨7, st (mk [(pgDMA, DMA.STAT_STATE.at 7, 2)]), by decide +kernel⟩,
   ⟨st (mk [(pgDMA, DMA.SRC_LO_ADDR.at 7, 4)]), by decide +kernel⟩,
   ⟨7, st (mk [(pgDMA, DMA.STAT_STATE.at 7, 1), (pgDMA, DMA.STATUS_BUSY, 128), (pgDMA, DMA.SRC_LO_ADDR.at 7, 4)]), by decide +kernel⟩⟩

/-- The premises of DmaTransfer can be met, clause by clause. -/
theorem wit_DmaTransfer :
    (∃ (c : Fin 8) (l : List Byte) (x : List Upset) (e : HostEnv) (t : DmaSet) (k n : Nat) (s : State), s.clocked ∧ s.dev.dmaGet c.val DMA.STAT_STATE = 1 ∧ s.dev.flag pgDMA (DMA.waiting c.val) = false ∧ t = s.dev.dmaSet c.val ∧ k = s.dev.dmaPos c.val ∧ AMap.find? s.dev.dmaBuf c.val = none ∧ n = t.chunk k ∧ t.ssp = 0 ∧ t.dsp = 0 ∧ t.dlines = 1 ∧ t.total = t.dlen ∧ k + n < t.total ∧ l.length = n ∧ (t.dst + k) % 4096 + n ≤ 4096) ∧
    (∃ (c : Fin 8) (l : List Byte) (x : List Upset) (e : HostEnv) (t : DmaSet) (k n : Nat) (s : State), s.clocked ∧ s.dev.dmaGet c.val DMA.STAT_STATE = 1 ∧ s.dev.flag pgDMA (DMA.waiting c.val) = false ∧ t = s.dev.dmaSet c.val ∧ k = s.dev.dmaPos c.val ∧ AMap.find? s.dev.dmaBuf c.val = none ∧ n = t.chunk k ∧ t.ssp = 0 ∧ t.dsp = 0 ∧ t.dlines = 1 ∧ t.total = t.dlen ∧ k + n < t.total ∧ l.length = n ∧ 4096 < (t.dst + k) % 4096 + n) ∧
    (∃ (c : Fin 8) (l : List Byte) (x : List Upset) (e : HostEnv) (keep : BitVec 16) (t : DmaSet) (k n : Nat) (s : State), s.clocked ∧ s.dev.dmaGet c.val DMA.STAT_STATE = 1 ∧ s.dev.flag pgDMA (DMA.waiting c.val) = false ∧ t = s.dev.dmaSet c.val ∧ k = s.dev.dmaPos c.val ∧ AMap.find? s.dev.dmaBuf c.val = none ∧ n = t.chunk k ∧ t.ssp = 0 ∧ t.dsp = 0 ∧ t.dlines = 1 ∧ t.total = t.dlen ∧ k + n < t.total ∧ l.length = n) ∧
    (∃ (c : Fin 8) (l : List Byte) (x : List Upset) (e : HostEnv) (t : DmaSet) (s : State), s.clocked ∧ s.dev.dmaGet c.val DMA.STAT_STATE = 1 ∧ s.dev.flag pgDMA (DMA.waiting c.val) = false ∧ t = s.dev.dmaSet c.val ∧ s.dev.dmaPos c.val = 0 ∧ AMap.find? s.dev.dmaBuf c.val = none ∧ t.chunk 0 = 8 ∧ t.ssp = 0 ∧ t.dsp = 1 ∧ t.dlines = 1 ∧ t.total = 8 ∧ t.dlen = 8 ∧ t.dst % 8 = 0 ∧ t.dst < 0x4000000 ∧ s.dev.flag pgECC ECC.STATUS_FILL_DONE = true ∧ s.dev.merge = [] ∧ l.length = 8) ∧
    (∃ (c : Fin 8) (x : List Upset) (e : HostEnv) (t : DmaSet) (s : State), s.clocked ∧ s.dev.dmaGet c.val DMA.STAT_STATE = 1 ∧ s.dev.flag pgDMA (DMA.waiting c.val) = false ∧ t = s.dev.dmaSet c.val ∧ t.ssp = 0 ∧ t.dsp = 0 ∧ s.dev.dmaRd c.val < t.total ∧ s.dev.dmaGet c.val DMA.STAT_RETRIES < s.dev.dmaGet c.val DMA.CFG_RETRY_MAX) ∧
    (∃ (c : Fin 8) (x : List Upset) (e : HostEnv) (t : DmaSet) (s : State), s.clocked ∧ s.dev.dmaGet c.val DMA.STAT_STATE = 1 ∧ s.dev.flag pgDMA (DMA.waiting c.val) = false ∧ t = s.dev.dmaSet c.val ∧ t.ssp = 0 ∧ t.dsp = 0 ∧ s.dev.dmaRd c.val < t.total ∧ s.dev.flag pgDMA DMA.RST_PEND = false ∧ s.dev.dmaGet c.val DMA.STAT_RETRIES = s.dev.dmaGet c.val DMA.CFG_RETRY_MAX) ∧
    (∃ (c : Fin 8) (s : State), s.clocked ∧ s.dev.flag pgDMA (DMA.waiting c.val) = true) ∧
    (∃ (c : Fin 8) (x : Upset) (s : State), s.clocked ∧ s.dev.dmaGet c.val DMA.STAT_STATE = 3 ∧ s.dev.flag pgDMA (DMA.waiting c.val) = false ∧ s.dev.dmaGet c.val DMA.CFG_DST_SP = 0 ∧ s.dev.flag pgDMA DMA.RST_PEND = false ∧ s.dev.dmaGet c.val DMA.CTL_SHD_ARM = 0) ∧
    (∃ (c : Fin 8) (s : State), s.clocked ∧ s.dev.dmaGet c.val DMA.STAT_STATE = 1 ∧ s.dev.flag pgDMA (DMA.waiting c.val) = false ∧ s.dev.dmaGet c.val DMA.CFG_SRC_SP = 0 ∧ s.dev.flag pgDMA DMA.RST_PEND = false ∧ s.dev.dmaGet c.val DMA.STAT_RETRIES = s.dev.dmaGet c.val DMA.CFG_RETRY_MAX) ∧
    (∃ (c : Fin 8) (host : Option (List Byte)) (x : List Upset) (e : HostEnv) (t : DmaSet) (s : State), s.clocked ∧ s.dev.dmaGet c.val DMA.STAT_STATE = 1 ∧ s.dev.flag pgDMA (DMA.waiting c.val) = false ∧ t = s.dev.dmaSet c.val ∧ s.dev.dmaPos c.val = 0 ∧ AMap.find? s.dev.dmaBuf c.val = none ∧ t.ssp = 1 ∧ t.dsp = 0 ∧ t.dlines = 1 ∧ t.total = 8 ∧ t.slen = 8 ∧ t.dlen = 8 ∧ t.src % 8 = 0 ∧ t.src < 0x4000000 ∧ t.dst % 4096 ≤ 4088 ∧ s.dev.flag pgECC ECC.STATUS_FILL_DONE = true ∧ s.dev.merge = [] ∧ s.dev.wordSyn 2 (t.src / 8) = 0 ∧ x = []) ∧
    (∃ (c : Fin 8) (host : Option (List Byte)) (x : List Upset) (e : HostEnv) (t : DmaSet) (s : State), s.clocked ∧ s.dev.dmaGet c.val DMA.STAT_STATE = 1 ∧ s.dev.flag pgDMA (DMA.waiting c.val) = false ∧ t = s.dev.dmaSet c.val ∧ s.dev.dmaPos c.val = 0 ∧ AMap.find? s.dev.dmaBuf c.val = none ∧ t.ssp = 2 ∧ t.dsp = 0 ∧ t.dlines = 1 ∧ t.total = 4 ∧ t.slen = 4 ∧ t.dlen = 4 ∧ t.dst % 4096 ≤ 4092) ∧
    (∃ (c : Fin 8) (l : List Byte) (x : List Upset) (e : HostEnv) (t : DmaSet) (s : State), s.clocked ∧ s.dev.dmaGet c.val DMA.STAT_STATE = 1 ∧ s.dev.flag pgDMA (DMA.waiting c.val) = false ∧ t = s.dev.dmaSet c.val ∧ s.dev.dmaPos c.val = 0 ∧ AMap.find? s.dev.dmaBuf c.val = none ∧ t.ssp = 0 ∧ t.dsp = 2 ∧ t.dlines = 1 ∧ t.total = 4 ∧ t.slen = 4 ∧ t.dlen = 4 ∧ t.src % 4096 ≤ 4092 ∧ t.dst = pgSYS * 4096 + 0x100 ∧ l.length = 4) ∧
    (∃ (c : Fin 8) (l : List Byte) (x : List Upset) (e : HostEnv) (t : DmaSet) (s : State), s.clocked ∧ s.dev.dmaGet c.val DMA.STAT_STATE = 1 ∧ s.dev.flag pgDMA (DMA.waiting c.val) = false ∧ t = s.dev.dmaSet c.val ∧ s.dev.dmaPos c.val < t.total ∧ AMap.find? s.dev.dmaBuf c.val = none ∧ t.ssp = 0 ∧ t.dsp = 1 ∧ s.dev.devOff (t.dstAt (s.dev.dmaPos c.val)) = true ∧ s.dev.flag pgDMA DMA.RST_PEND = false ∧ s.dev.dmaGet c.val DMA.STAT_RETRIES = s.dev.dmaGet c.val DMA.CFG_RETRY_MAX) ∧
    (∃ (c : Fin 8) (hostOk : Bool) (x : Upset) (s : State), s.clocked ∧ s.dev.dmaGet c.val DMA.STAT_STATE = 3 ∧ s.dev.flag pgDMA (DMA.waiting c.val) = false ∧ s.dev.dmaGet c.val DMA.CFG_DST_SP = 2 ∧ s.dev.flag pgDMA DMA.RST_PEND = false ∧ s.dev.dmaGet c.val DMA.CTL_SHD_ARM = 0) ∧
    (∃ (c : Fin 8) (hostOk : Bool) (t : DmaSet) (s : State), s.clocked ∧ s.dev.dmaGet c.val DMA.STAT_STATE = 3 ∧ s.dev.flag pgDMA (DMA.waiting c.val) = false ∧ t = s.dev.dmaSet c.val ∧ t.dsp = 1 ∧ t.dstAt (t.total - 1) < 0x4000000 ∧ s.dev.flag pgECC ECC.STATUS_FILL_DONE = true ∧ s.dev.merge = [] ∧ s.dev.wordSyn 2 (t.dstAt (t.total - 1) / 8) = 0 ∧ s.dev.flag pgDMA DMA.RST_PEND = false ∧ s.dev.dmaGet c.val DMA.CTL_SHD_ARM = 0) ∧
    (∃ (c : Fin 8) (x : Upset) (s : State), s.clocked ∧ s.dev.dmaGet c.val DMA.STAT_STATE = 3 ∧ s.dev.flag pgDMA (DMA.waiting c.val) = false ∧ s.dev.dmaGet c.val DMA.CFG_DST_SP = 0 ∧ s.dev.dmaGet c.val DMA.STAT_RETRIES < s.dev.dmaGet c.val DMA.CFG_RETRY_MAX) ∧
    (∃ (c : Fin 8) (x : Upset) (s : State), s.clocked ∧ s.dev.dmaGet c.val DMA.STAT_STATE = 3 ∧ s.dev.flag pgDMA (DMA.waiting c.val) = false ∧ s.dev.dmaGet c.val DMA.CFG_DST_SP = 0 ∧ s.dev.dmaGet c.val DMA.STAT_RETRIES = s.dev.dmaGet c.val DMA.CFG_RETRY_MAX ∧ s.dev.flag pgDMA DMA.RST_PEND = false) ∧
    (∃ (c : Fin 8) (x : Upset) (s : State), s.clocked ∧ s.dev.dmaGet c.val DMA.STAT_STATE = 3 ∧ s.dev.flag pgDMA (DMA.waiting c.val) = false ∧ s.dev.dmaGet c.val DMA.CFG_DST_SP = 0 ∧ s.dev.flag pgDMA DMA.RST_PEND = false ∧ s.dev.dmaGet c.val DMA.CTL_SHD_ARM = 1 ∧ s.dev.get pgECC ECC.STATUS_FILL_DONE = 1) ∧
    (∃ (c : Fin 8) (s : State), s.clocked ∧ s.dev.dmaGet c.val DMA.STAT_STATE = 1 ∧ s.dev.flag pgDMA (DMA.waiting c.val) = false ∧ s.dev.dmaGet c.val DMA.CFG_SRC_SP = 0 ∧ s.dev.dmaGet c.val DMA.STAT_RETRIES < s.dev.dmaGet c.val DMA.CFG_RETRY_MAX) ∧
    (∃ (c : Fin 8) (host : Option (List Byte)) (hostOk : Bool) (xs : List Upset) (x : Upset) (e : HostEnv) (keep : BitVec 16) (s : State), s.clocked ∧ s.dev.dmaOut c.val = false) :=
  ⟨⟨7, List.replicate 2 5, [], ⟨false, false, [], ⟨0, 0, 0, 0⟩, [], 0, 0, [], []⟩, ⟨0xFFE, 0x1000, 4, 0, 1, 4, 0, 1, 0, 0, 3⟩, 0, 2, st (mk [(pgDMA, DMA.STAT_STATE.at 7, 1), (pgDMA, DMA.DST_LO_ADDR.at 7, 0x1000), (pgDMA, DMA.SRC_LO_ADDR.at 7, 0xFFE), (pgDMA, DMA.SRC_LEN_LEN.at 7, 3), (pgDMA, DMA.DST_LEN_LEN.at 7, 3)]), by decide +kernel⟩,
   ⟨7, List.replicate 2 5, [], ⟨false, false, [], ⟨0, 0, 0, 0⟩, [], 0, 0, [], []⟩, ⟨0xFFE, 0x1FFF, 4, 0, 1, 4, 0, 1, 0, 0, 3⟩, 0, 2, st (mk [(pgDMA, DMA.STAT_STATE.at 7, 1), (pgDMA, DMA.DST_LO_ADDR.at 7, 0x1FFF), (pgDMA, DMA.SRC_LO_ADDR.at 7, 0xFFE), (pgDMA, DMA.SRC_LEN_LEN.at 7, 3), (pgDMA, DMA.DST_LEN_LEN.at 7, 3)]), by decide +kernel⟩,
   ⟨7, List.replicate 2 5, [], ⟨false, false, [], ⟨0, 0, 0, 0⟩, [], 0, 0, [], []⟩, 1, ⟨0xFFE, 0x1000, 4, 0, 1, 4, 0, 1, 0, 0, 3⟩, 0, 2, st (mk [(pgDMA, DMA.STAT_STATE.at 7, 1), (pgDMA, DMA.DST_LO_ADDR.at 7, 0x1000), (pgDMA, DMA.SRC_LO_ADDR.at 7, 0xFFE), (pgDMA, DMA.SRC_LEN_LEN.at 7, 3), (pgDMA, DMA.DST_LEN_LEN.at 7, 3)]), by decide +kernel⟩,
   ⟨7, [1, 2, 3, 4, 5, 6, 7, 8], [], ⟨false, false, [], ⟨0, 0, 0, 0⟩, [], 0, 0, [], []⟩, ⟨0xFF8, 0x20, 8, 0, 1, 8, 0, 1, 0, 1, 3⟩, st (mk [(pgECC, ECC.STATUS_FILL_DONE, 1), (pgDMA, DMA.STAT_STATE.at 7, 1), (pgDMA, DMA.DST_LO_ADDR.at 7, 0x20), (pgDMA, DMA.SRC_LO_ADDR.at 7, 0xFF8), (pgDMA, DMA.SRC_LEN_LEN.at 7, 7), (pgDMA, DMA.DST_LEN_LEN.at 7, 7), (pgDMA, DMA.CFG_DST_SP.at 7, 1)]), by decide +kernel⟩,
   ⟨7, [], ⟨false, false, [], ⟨0, 0, 0, 0⟩, [], 0, 0, [], []⟩, ⟨0xFF8, 0x20, 1, 0, 1, 1, 0, 1, 0, 0, 3⟩, st (mk [(pgDMA, DMA.STAT_STATE.at 7, 1), (pgDMA, DMA.DST_LO_ADDR.at 7, 0x20), (pgDMA, DMA.SRC_LO_ADDR.at 7, 0xFF8)]), by decide +kernel⟩,
   ⟨7, [], ⟨false, false, [], ⟨0, 0, 0, 0⟩, [], 0, 0, [], []⟩, ⟨0xFF8, 0x20, 1, 0, 1, 1, 0, 1, 0, 0, 3⟩, st (mk [(pgDMA, DMA.STAT_STATE.at 7, 1), (pgDMA, DMA.STAT_RETRIES.at 7, 3), (pgDMA, DMA.DST_LO_ADDR.at 7, 0x20), (pgDMA, DMA.SRC_LO_ADDR.at 7, 0xFF8)]), by decide +kernel⟩,
   ⟨7, st (mk [(pgDMA, DMA.waiting 7, 1)]), by decide +kernel⟩,
   ⟨7, ⟨0, 0, 0⟩, st (mk [(pgDMA, DMA.STAT_STATE.at 7, 3), (pgDMA, DMA.STATUS_BUSY, 128)]), by decide +kernel⟩,
   ⟨7, st (mk [(pgDMA, DMA.STAT_STATE.at 7, 1), (pgDMA, DMA.STAT_RETRIES.at 7, 3)]), by decide +kernel⟩,
   ⟨7, none, [], ⟨false, false, [], ⟨0, 0, 0, 0⟩, [], 0, 0, [], []⟩, ⟨0x20, 0xFF8, 8, 0, 1, 8, 0, 1, 1, 0, 3⟩, st { (mk [(pgECC, ECC.STATUS_FILL_DONE, 1), (pgDMA, DMA.STAT_STATE.at 7, 1), (pgDMA, DMA.SRC_LO_ADDR.at 7, 0x20), (pgDMA, DMA.DST_LO_ADDR.at 7, 0xFF8), (pgDMA, DMA.SRC_LEN_LEN.at 7, 7), (pgDMA, DMA.DST_LEN_LEN.at 7, 7), (pgDMA, DMA.CFG_SRC_SP.at 7, 1)]) with mem := memWriteN [] 8 (wordAddr 2 4) 0xF00000000000000F }, by decide +kernel⟩,
   ⟨7, none, [], ⟨false, false, [], ⟨0, 0, 0, 0⟩, [], 0, 0, [], []⟩, ⟨0, 0xFF8, 4, 0, 1, 4, 0, 1, 2, 0, 3⟩, st (mk [(pgDMA, DMA.STAT_STATE.at 7, 1), (pgDMA, DMA.DST_LO_ADDR.at 7, 0xFF8), (pgDMA, DMA.SRC_LEN_LEN.at 7, 3), (pgDMA, DMA.DST_LEN_LEN.at 7, 3), (pgDMA, DMA.CFG_SRC_SP.at 7, 2)]), by decide +kernel⟩,
   ⟨7, [3, 1, 1, 1], [], ⟨false, false, [], ⟨0, 0, 0, 0⟩, [], 0, 0, [], []⟩, ⟨0xFF8, 0x100, 4, 0, 1, 4, 0, 1, 0, 2, 3⟩, st (mk [(pgDMA, DMA.STAT_STATE.at 7, 1), (pgDMA, DMA.SRC_LO_ADDR.at 7, 0xFF8), (pgDMA, DMA.DST_LO_ADDR.at 7, 0x100), (pgDMA, DMA.SRC_LEN_LEN.at 7, 3), (pgDMA, DMA.DST_LEN_LEN.at 7, 3), (pgDMA, DMA.CFG_DST_SP.at 7, 2)]), by decide +kernel⟩,
   ⟨7, [3, 1, 1, 1], [], ⟨false, false, [], ⟨0, 0, 0, 0⟩, [], 0, 0, [], []⟩, ⟨0xFF8, 0x4000000, 1, 0, 1, 1, 0, 1, 0, 1, 3⟩, st (mk [(0x20, QMC.STATUS_OFFLINE, 1), (pgDMA, DMA.STAT_STATE.at 7, 1), (pgDMA, DMA.STAT_RETRIES.at 7, 3), (pgDMA, DMA.SRC_LO_ADDR.at 7, 0xFF8), (pgDMA, DMA.DST_LO_ADDR.at 7, 0x4000000), (pgDMA, DMA.CFG_DST_SP.at 7, 1)]), by decide +kernel⟩,
   ⟨7, false, ⟨0, 0, 0⟩, st (mk [(pgDMA, DMA.STAT_STATE.at 7, 3), (pgDMA, DMA.CFG_DST_SP.at 7, 2), (pgDMA, DMA.STATUS_BUSY, 128)]), by decide +kernel⟩,
   ⟨7, false, ⟨0, 0x20, 1, 0, 1, 1, 0, 1, 0, 1, 3⟩, st (mk [(pgECC, ECC.STATUS_FILL_DONE, 1), (pgDMA, DMA.STAT_STATE.at 7, 3), (pgDMA, DMA.DST_LO_ADDR.at 7, 0x20), (pgDMA, DMA.CFG_DST_SP.at 7, 1), (pgDMA, DMA.STATUS_BUSY, 128)]), by decide +kernel⟩,
   ⟨7, ⟨0, 0, 0⟩, st (mk [(pgDMA, DMA.STAT_STATE.at 7, 3), (pgDMA, DMA.STATUS_BUSY, 128)]), by decide +kernel⟩,
   ⟨7, ⟨0, 0, 0⟩, st (mk [(pgDMA, DMA.STAT_STATE.at 7, 3), (pgDMA, DMA.STAT_RETRIES.at 7, 3), (pgDMA, DMA.STATUS_BUSY, 128)]), by decide +kernel⟩,
   ⟨7, ⟨0, 0, 0⟩, st (mk [(pgECC, ECC.STATUS_FILL_DONE, 1), (pgDMA, DMA.STAT_STATE.at 7, 3), (pgDMA, DMA.CTL_SHD_ARM.at 7, 1), (pgDMA, DMA.SHD_DST_LO_ADDR.at 7, 0x1000), (pgDMA, DMA.STATUS_BUSY, 128)]), by decide +kernel⟩,
   ⟨7, st (mk [(pgDMA, DMA.STAT_STATE.at 7, 1)]), by decide +kernel⟩,
   ⟨7, none, true, [], ⟨0, 0, 0⟩, ⟨false, false, [], ⟨0, 0, 0, 0⟩, [], 0, 0, [], []⟩, 5, st (mk []), by decide +kernel⟩⟩

/-- The premises of PerformanceCounters can be met, clause by clause. -/
theorem wit_PerformanceCounters :
    (∃ (i : Fin 32) (w : Word) (s : State), s.clocked) ∧
    (∃ (w : Word) (s : State), s.clocked ∧ s.dev.flag pgPERFW PERFW.STATUS_SNAP_BUSY = false) ∧
    (∃ (w : Word) (s : State), s.clocked ∧ s.dev.flag pgPERFW PERFW.STATUS_SNAP_BUSY = true) ∧
    (∃ (s : State), s.clocked ∧ s.dev.flag pgPERFW PERFW.STATUS_SNAP_BUSY = true) ∧
    (∃ (s : State), s.clocked ∧ s.dev.flag pgPERFW PERFW.STATUS_SNAP_BUSY = false) ∧
    (∃ (bits : List (BitVec 64 × BitVec 64)) (m : Nat) (s : State), s.clocked ∧ m = 1000 * clampN 1 1000 (s.dev.get pgPERFW PERFW.BW_CTL_WIN)) ∧
    (∃ (w : Word) (bits : List (BitVec 64 × BitVec 64)) (clocks : BitVec 32) (s : State), s.clocked ∧ s.dev.get pgPERFW PERFW.GATED = 0 ∧ clocks ≠ 0) ∧
    (∃ (i : Fin 32) (s : State), s.clocked ∧ s.dev.get pgPERFW (PERFW.CNT.at i.val) = 2 ^ 48 - 1 ∧ s.dev.perfBusy = false) ∧
    (∃ (i : Fin 31) (s : State), s.clocked ∧ s.dev.get pgPERFW (PERFW.CNT.at i.val) = 2 ^ 48 - 1 ∧ s.dev.get pgPERFW (PERFW.CNT.at (i.val + 1)) < 2 ^ 48 - 1 ∧ s.dev.get pgPERFW (PERFW.SEL_CHAIN.at i.val) = 1 ∧ ((∀ j : Fin 32, s.dev.get pgPERFW (PERFW.SEL_KIND.at j.val) = 0))) ∧
    (∃ (i : Fin 32) (s : State), s.clocked ∧ s.dev.get pgPERFW (PERFW.CNT.at i.val) ≠ 2 ^ 48 - 1) ∧
    (∃ (off : BitVec 20) (wide : Bool) (s : State), s.clocked ∧ s.dev.flag pgSYS SYS.PERF_USER_EN_EN = false) ∧
    (∃ (off : BitVec 20) (v : Nat) (s : State), s.clocked ∧ s.dev.flag pgSYS SYS.PERF_USER_EN_EN = true ∧ off.toNat % 8 = 0 ∧ s.dev.bar4Pair off.toNat = some v ∧ v < 2 ^ 64) ∧
    (∃ (off : BitVec 20) (v : Nat) (s : State), s.clocked ∧ s.dev.flag pgSYS SYS.PERF_USER_EN_EN = true ∧ off.toNat % 8 = 0 ∧ s.dev.bar4Pair off.toNat = some v ∧ v < 2 ^ 64) ∧
    (∃ (off : BitVec 20) (v h : Nat) (s : State), s.clocked ∧ s.dev.flag pgSYS SYS.PERF_USER_EN_EN = true ∧ off.toNat % 8 = 4 ∧ s.dev.bar4Pair (off.toNat - 4) = some v ∧ AMap.find? s.dev.hiCap (0x400000 + off.toNat) = some h) ∧
    (∃ (j : Fin 39) (s : State), s.clocked ∧ s.dev.flag pgSYS SYS.PERF_USER_EN_EN = true) ∧
    (∃ (off : BitVec 20) (s : State), s.clocked ∧ s.dev.flag pgSYS SYS.PERF_USER_EN_EN = true ∧ 0x404 ≤ off.toNat ∧ s.dev.bar4Pair (off.toNat / 8 * 8) = none) ∧
    (∃ (s : State), s.clocked) :=
  ⟨⟨31, 0x81234567, st (mk []), by decide +kernel⟩,
   ⟨1, st (mk [(pgPERFW, PERFW.CNT.at 31, 77)]), by decide +kernel⟩,
   ⟨1, st (mk [(pgPERFW, PERFW.STATUS_SNAP_BUSY, 1)]), by decide +kernel⟩,
   ⟨st (mk [(pgPERFW, PERFW.STATUS_SNAP_BUSY, 1), (pgPERFW, PERFW.SEQ_SNAP_SEQ, 0xFFFF)]), by decide +kernel⟩,
   ⟨st (mk []), by decide +kernel⟩,
   ⟨[(999999, 100000)], 100000, st (mk [(pgPERFW, PERFW.CNT.at 31, 77), (pgPERFW, PERFW.bits true 34, 999999), (pgPERFW, PERFW.bits false 37, 300000), (pgPERFW, PERFW.GATED, 2)]), by decide +kernel⟩,
   ⟨0xFFFFFFFF, [(999999, 100000)], 1, st (mk [(pgPERFW, PERFW.CNT.at 31, 77), (pgPERFW, PERFW.bits true 34, 999999)]), by decide +kernel⟩,
   ⟨31, st (mk [(pgPERFW, PERFW.CNT.at 31, 0xFFFFFFFFFFFF)]), by decide +kernel⟩,
   ⟨30, st (mk [(pgPERFW, PERFW.CNT.at 30, 0xFFFFFFFFFFFF), (pgPERFW, PERFW.SEL_CHAIN.at 30, 1), (pgPERFW, PERFW.CNT.at 31, 5)]), by decide +kernel⟩,
   ⟨31, st (mk [(pgPERFW, PERFW.CNT.at 31, 0xFFFFFFFFFFFE)]), by decide +kernel⟩,
   ⟨8, true, st (mk []), by decide +kernel⟩,
   ⟨8, 77, st (mk [(pgSYS, SYS.PERF_USER_EN_EN, 1), (pgPERFW, PERFW.CNT.at 1, 77)]), by decide +kernel⟩,
   ⟨8, 0x100000007, st (mk [(pgSYS, SYS.PERF_USER_EN_EN, 1), (pgPERFW, PERFW.CNT.at 1, 0x100000007)]), by decide +kernel⟩,
   ⟨12, 0x100000007, 3, st { (mk [(pgSYS, SYS.PERF_USER_EN_EN, 1), (pgPERFW, PERFW.CNT.at 1, 0x100000007)]) with hiCap := [(0x40000C, 3)] }, by decide +kernel⟩,
   ⟨38, st (mk [(pgSYS, SYS.PERF_USER_EN_EN, 1), (pgPERFW, PERFW.BWO_OUT.at 38, 9), (pgPERFW, PERFW.SEQ_BW_SEQ, 7)]), by decide +kernel⟩,
   ⟨0xF0000, st (mk [(pgSYS, SYS.PERF_USER_EN_EN, 1)]), by decide +kernel⟩,
   ⟨st (mk [(pgPERFW, PERFW.CNT.at 31, 77), (pgPERFW, PERFW.SEL_KIND.at 31, 1)]), by decide +kernel⟩⟩

/-- The premises of Resets can be met, clause by clause. -/
theorem wit_Resets :
    (∃ (straps : BitVec 3) (s : State), True) ∧
    (∃ (s : State), True) ∧
    (∃ (which : Fin 3) (s : State), s.clocked) ∧
    (∃ (s : State), s.clocked ∧ s.dev.get pgKSMB KSMB.MB_STAT_OWNER ≠ 1 ∧ ((∀ c : Fin 8, s.dev.dmaOut c.val = false))) ∧
    (∃ (s : State), s.clocked ∧ s.dev.get pgKSMB KSMB.MB_STAT_OWNER = 1 ∧ s.dev.get pgKSMB KSMB.MB_STAT_BUSY = 0 ∧ ((∀ c : Fin 8, s.dev.dmaOut c.val = false))) ∧
    (∃ (s : State), s.clocked ∧ s.dev.get pgKSMB KSMB.MB_STAT_OWNER = 1 ∧ s.dev.get pgKSMB KSMB.MB_STAT_BUSY = 1 ∧ ((∀ c : Fin 8, s.dev.dmaOut c.val = false))) ∧
    (∃ (c : Fin 8) (s : State), s.clocked ∧ s.dev.dmaGet c.val DMA.STAT_STATE = 1 ∧ s.dev.flag pgDMA (DMA.waiting c.val) = false ∧ s.dev.dmaGet c.val DMA.CFG_SRC_SP = 0 ∧ s.dev.flag pgDMA DMA.RST_PEND = false ∧ s.dev.dmaGet c.val DMA.STAT_RETRIES = s.dev.dmaGet c.val DMA.CFG_RETRY_MAX) ∧
    (∃ (f : Flash) (dir : List (BitVec 16 × BitVec 16 × BitVec 256)) (s : State), s.clocked ∧ s.dev.get pgKSMB KSMB.BOOT_STATE = 0) ∧
    (∃ (f : Flash) (dir : List (BitVec 16 × BitVec 16 × BitVec 256)) (s : State), s.clocked ∧ s.dev.get pgKSMB KSMB.BOOT_STATE = 0) ∧
    (∃ (f : Flash) (st : Bool) (dir : List (BitVec 16 × BitVec 16 × BitVec 256)) (r : Option (List Nat)) (x : KsImage) (s : State), s.clocked ∧ s.dev.get pgKSMB KSMB.BOOT_STATE = 1 ∧ r = f.patch.map bytesOf ∧ x = imageOf (r.getD [])) ∧
    (∃ (f : Flash) (st : Bool) (dir : List (BitVec 16 × BitVec 16 × BitVec 256)) (r : Option (List Nat)) (s : State), s.clocked ∧ (s.dev.get pgKSMB KSMB.BOOT_STATE = 2 ∨ s.dev.get pgKSMB KSMB.BOOT_STATE = 3) ∧ r = (if s.dev.get pgKSMB KSMB.BOOT_STATE = 2 then f.slotA else f.slotB).map bytesOf ∧ (s.dev.get pgKSMB KSMB.BOOT_SLOT = (if s.dev.get pgKSMB KSMB.BOOT_STATE = 2 then 0 else 1))) ∧
    (∃ (f : Flash) (st : Bool) (dir : List (BitVec 16 × BitVec 16 × BitVec 256)) (x : KsImage) (s : State), s.clocked ∧ s.dev.get pgKSMB KSMB.BOOT_STATE = 5 ∧ s.dev.ks.image = some x ∧ s.dev.get pgKSMB KSMB.BOOT_SLOT ≤ 1) ∧
    (∃ (f : Flash) (st : Bool) (dir : List (BitVec 16 × BitVec 16 × BitVec 256)) (x : KsImage) (b : List Nat) (s : State), s.clocked ∧ s.dev.get pgKSMB KSMB.BOOT_STATE = 5 ∧ s.dev.ks.image = none ∧ b = s.dev.pushed.2 ∧ x = imageOf b) ∧
    (∃ (f : Flash) (st : Bool) (dir : List (BitVec 16 × BitVec 16 × BitVec 256)) (s : State), s.clocked ∧ (s.dev.get pgKSMB KSMB.BOOT_STATE = 4 ∨ 6 ≤ s.dev.get pgKSMB KSMB.BOOT_STATE)) :=
  ⟨⟨7, st { (mk [(pgDAC 1, DAC.BAUD, 5), (pgKSMB, KSMB.OTP_RT, 5)]) with lost := true }, by decide +kernel⟩,
   ⟨st { (mk [(pgDAC 1, DAC.BAUD, 5), (pgLDSYS 1, LDSYS.STATUS_READY, 1), (pgKSMB, KSMB.BOOT_STATE, 6)]) with lost := true }, by decide +kernel⟩,
   ⟨2, st (mk [(pgLDSYS 1, LDSYS.STATUS_READY, 1)]), by decide +kernel⟩,
   ⟨st { (mk [(pgMBX, MBX.CTL_EN, 1), (pgMBX, MBX.STATUS_RUN, 1)]) with evt := { Dev.reset.evt with msixEn := true } }, by decide +kernel⟩,
   ⟨st (mk [(pgKSMB, KSMB.MB_STAT_OWNER, 1)]), by decide +kernel⟩,
   ⟨st (mk [(pgKSMB, KSMB.MB_STAT_OWNER, 1), (pgKSMB, KSMB.MB_STAT_BUSY, 1)]), by decide +kernel⟩,
   ⟨7, st (mk [(pgDMA, DMA.STAT_STATE.at 7, 1), (pgDMA, DMA.STAT_RETRIES.at 7, 3)]), by decide +kernel⟩,
   ⟨⟨none, none, none, none⟩, [(1, 2, 3)], st (mk []), by decide +kernel⟩,
   ⟨⟨none, none, none, none⟩, [(1, 2, 3)], st (mk []), by decide +kernel⟩,
   ⟨⟨none, none, none, none⟩, true, [(1, 2, 3)], none, ⟨[], [], []⟩, st (mk [(pgKSMB, KSMB.BOOT_STATE, 1)]), by decide +kernel⟩,
   ⟨⟨none, none, none, none⟩, true, [(1, 2, 3)], none, st (mk [(pgKSMB, KSMB.BOOT_STATE, 3), (pgKSMB, KSMB.BOOT_SLOT, 1)]), by decide +kernel⟩,
   ⟨⟨none, none, none, none⟩, true, [(1, 2, 3)], ⟨[0], [1], [2]⟩, st { (mk [(pgKSMB, KSMB.BOOT_STATE, 5)]) with ks := { Dev.reset.ks with image := some ⟨[0], [1], [2]⟩ } }, by decide +kernel⟩,
   ⟨⟨none, none, none, none⟩, true, [(1, 2, 3)], ⟨[], [], []⟩, [], st (mk [(pgKSMB, KSMB.BOOT_STATE, 5)]), by decide +kernel⟩,
   ⟨⟨none, none, none, none⟩, true, [(1, 2, 3)], st (mk [(pgKSMB, KSMB.BOOT_STATE, 6)]), by decide +kernel⟩⟩

/-- The premises of SupplyMonitoring can be met, clause by clause. -/
theorem wit_SupplyMonitoring :
    (∃ (rail : Fin 5) (dur : BitVec 32) (depth : BitVec 8) (s : State), s.clocked ∧ s.dev.railIdle rail.val = false ∧ dur.toNat ≤ 200) ∧
    (∃ (rail : Fin 5) (dur : BitVec 32) (depth : BitVec 8) (s : State), s.clocked ∧ s.dev.railIdle rail.val = true) ∧
    (∃ (rail : Fin 5) (dur : BitVec 32) (depth : BitVec 8) (s : State), s.clocked ∧ s.dev.railIdle rail.val = false ∧ 200 < dur.toNat) ∧
    (∃ (p : Port) (s : State), s.clocked ∧ s.dev.flag pgPWR PWR.STATUS_BASCULE = false) ∧
    (∃ (rail : Fin 9) (p : Port) (s : State), s.clocked ∧ s.dev.flag pgPWR PWR.STATUS_BASCULE = false ∧ (rail.val = 3 ∨ rail.val = 5)) ∧
    (∃ (rail : Fin 9) (s : State), s.clocked ∧ (s.dev.railIdle rail.val = true ∨ railDies rail.val = [])) ∧
    (∃ (hv : Bool) (s : State), s.clocked) ∧
    (∃ (p : Port) (s : State), s.clocked ∧ s.dev.flag (pgLDSYS p) LDSYS.HELD = true ∧ s.dev.get pgPWR PWR.DOWN = 2 ^ p.val) ∧
    (∃ (rail : Fin 9) (s : State), s.clocked) ∧
    (∃ (p : Port) (target : BitVec 10) (now : Nat) (s : State), s.clocked ∧ s.dev.flag (pgLDSYS p) LDSYS.GATED = false ∧ s.dev.flag (pgLDSYS p) LDSYS.HELD = false ∧ now = s.dev.get (pgLDSYS p) LDSYS.AVS_TARGET ∧ 605 ≤ now ∧ now ≤ 700 ∧ target.toNat + 5 ≤ now) ∧
    (∃ (p : Port) (target : BitVec 10) (now : Nat) (s : State), s.clocked ∧ s.dev.flag (pgLDSYS p) LDSYS.GATED = false ∧ s.dev.flag (pgLDSYS p) LDSYS.HELD = false ∧ now = s.dev.get (pgLDSYS p) LDSYS.AVS_TARGET ∧ now ≠ target.toNat ∧ now ≤ target.toNat + 5 ∧ target.toNat ≤ now + 5 ∧ 600 ≤ target.toNat ∧ target.toNat ≤ 700) ∧
    (∃ (p : Port) (target : BitVec 10) (s : State), s.clocked ∧ (s.dev.flag (pgLDSYS p) LDSYS.GATED = true ∨ s.dev.flag (pgLDSYS p) LDSYS.HELD = true ∨ (s.dev.get (pgLDSYS p) LDSYS.AVS_TARGET = target.toNat ∧ 600 ≤ target.toNat ∧ target.toNat ≤ 700))) ∧
    (∃ (p : Port) (s : State), s.clocked ∧ s.dev.online p = false) ∧
    (∃ (p : Port) (target : BitVec 10) (now : Nat) (s : State), s.clocked ∧ s.dev.flag (pgLDSYS p) LDSYS.GATED = false ∧ s.dev.flag (pgLDSYS p) LDSYS.HELD = false ∧ now = s.dev.get (pgLDSYS p) LDSYS.AVS_TARGET ∧ 600 ≤ now ∧ now ≤ 695 ∧ now + 5 ≤ target.toNat) ∧
    (∃ (p : Port) (s : State), s.clocked ∧ s.dev.online p = true) :=
  ⟨⟨1, 200, 255, st ((mk []).tcvUpd fun t => { t with inj := 2 }), by decide +kernel⟩,
   ⟨1, 200, 255, st (mk [(pgPWR, PWR.STATUS_BASCULE, 1)]), by decide +kernel⟩,
   ⟨2, 0x10000, 255, st (mk []), by decide +kernel⟩,
   ⟨1, st { (mk [(pgLDSYS 1, LDSYS.STATUS_READY, 1), (pgLFR 1, LFR.SPAN_TXPOS_RUN, 1)]) with commits := [(pgMAP 0, ⟨5, 1, false, false, false, false, 0⟩)] }, by decide +kernel⟩,
   ⟨5, 1, st (mk [(pgLDSYS 1, LDSYS.STATUS_READY, 1), (pgLFR 1, LFR.SPAN_TXPOS_RUN, 1)]), by decide +kernel⟩,
   ⟨1, st (mk [(pgPWR, PWR.STATUS_BASCULE, 1)]), by decide +kernel⟩,
   ⟨false, st (mk [(pgHLN 31, HLN.STATUS_SIG_DET, 1)]), by decide +kernel⟩,
   ⟨1, st (mk [(pgLDSYS 1, LDSYS.HELD, 1), (pgPWR, PWR.DOWN, 2), (pgPWR, PWR.RAIL_STAT_WARN, 2)]), by decide +kernel⟩,
   ⟨4, st (mk [(pgLDSYS 1, LDSYS.HELD, 1), (pgPWR, PWR.DOWN, 18), (pgSYS, SYS.SDS_RST, 1)]), by decide +kernel⟩,
   ⟨1, 0, 605, st (mk [(pgLDSYS 1, LDSYS.AVS_TARGET, 605)]), by decide +kernel⟩,
   ⟨1, 603, 605, st (mk [(pgLDSYS 1, LDSYS.AVS_TARGET, 605)]), by decide +kernel⟩,
   ⟨1, 605, st (mk [(pgLDSYS 1, LDSYS.AVS_TARGET, 605)]), by decide +kernel⟩,
   ⟨1, st (mk []), by decide +kernel⟩,
   ⟨1, 1000, 695, st (mk [(pgLDSYS 1, LDSYS.AVS_TARGET, 695)]), by decide +kernel⟩,
   ⟨1, st (mk [(pgLDSYS 1, LDSYS.STATUS_READY, 1), (pgLDSYS 1, LDSYS.STATUS_PLL_LOCK, 1)]), by decide +kernel⟩⟩

/-- The premises of BasculeAndHeat can be met, clause by clause. -/
theorem wit_BasculeAndHeat :
    (∃ (temps : List (BitVec 16)) (h : Nat × Int) (s : State), s.clocked ∧ h = hottest (temps.map (·.toNat)) ∧ s.dev.flag pgPWR PWR.STATUS_THERM_WARN = false ∧ (16 * s.dev.warnAt : Int) < h.2 ∧ h.2 ≤ (16 * s.dev.critAt : Int)) ∧
    (∃ (temps : List (BitVec 16)) (h : Nat × Int) (s : State), s.clocked ∧ h = hottest (temps.map (·.toNat)) ∧ s.dev.flag pgPWR PWR.STATUS_THERM_WARN = true ∧ h.2 ≤ 16 * s.dev.warnAt - 48) ∧
    (∃ (temps : List (BitVec 16)) (h : Nat × Int) (s : State), s.clocked ∧ h = hottest (temps.map (·.toNat)) ∧ (16 * s.dev.critAt : Int) < h.2 ∧ s.dev.flag pgPWR PWR.CRIT_NOW = false ∧ s.dev.flag pgPWR PWR.CTL_CRIT_BASCULE = true ∧ s.dev.flag pgPWR PWR.STATUS_BASCULE = false ∧ s.dev.flag pgPWR PWR.ENTERING = false) ∧
    (∃ (temps : List (BitVec 16)) (h : Nat × Int) (s : State), s.clocked ∧ h = hottest (temps.map (·.toNat))) ∧
    (∃ (w : Word) (s : State), s.clocked ∧ w.getLsbD 1 = false) ∧
    (∃ (w : Word) (s : State), s.clocked ∧ w.getLsbD 0 = false) ∧
    (∃ (s : State), s.clocked ∧ s.dev.flag pgPWR PWR.ENTERING = true ∧ s.dev.flag pgPWR PWR.WAKE_PEND = true) ∧
    (∃ (temps : List (BitVec 16)) (s : State), s.clocked ∧ (s.dev.flag pgPWR PWR.STATUS_WAKING = false ∨ s.dev.online 0 = false ∨ s.dev.online 1 = false)) ∧
    (∃ (temps : List (BitVec 16)) (s : State), s.clocked ∧ s.dev.flag pgPWR PWR.STATUS_WAKING = true ∧ s.dev.online 0 = true ∧ s.dev.online 1 = true ∧ s.dev.flag pgPWR PWR.ENTER_PEND = true) ∧
    (∃ (w : Word) (s : State), s.clocked ∧ w.getLsbD 1 = false ∧ s.dev.flag pgPWR PWR.STATUS_BASCULE = false ∧ s.dev.flag pgPWR PWR.ENTERING = false ∧ s.dev.flag pgPWR PWR.STATUS_WAKING = false) ∧
    (∃ (s : State), s.clocked ∧ s.dev.flag pgPWR PWR.ENTERING = true ∧ s.dev.flag pgPWR PWR.WAKE_PEND = false) ∧
    (∃ (s : State), s.clocked ∧ s.dev.flag pgPWR PWR.ENTERING = false) ∧
    (∃ (w : Word) (s : State), s.clocked ∧ w.getLsbD 0 = false ∧ s.dev.flag pgPWR PWR.STATUS_BASCULE = true ∧ s.dev.hot = false) ∧
    (∃ (temps : List (BitVec 16)) (s : State), s.clocked ∧ s.dev.flag pgPWR PWR.STATUS_WAKING = true ∧ s.dev.online 0 = true ∧ s.dev.online 1 = true ∧ s.dev.flag pgPWR PWR.ENTER_PEND = false) ∧
    (∃ (s : State), FMap.wf s.dev.regs = true) :=
  ⟨⟨[0, 1681, 0, 0, 0, 0, 0, 0], (1, 1681), st (mk []), by decide +kernel⟩,
   ⟨[0, 1632, 0, 0, 0, 0, 0, 0], (1, 1632), st (mk [(pgPWR, PWR.STATUS_THERM_WARN, 1)]), by decide +kernel⟩,
   ⟨[0, 1889, 0, 0, 0, 0, 0, 0], (1, 1889), st { (mk []) with commits := [(pgMAP 0, ⟨5, 1, false, false, false, false, 0⟩)] }, by decide +kernel⟩,
   ⟨[0, 1681, 0, 0, 0, 0, 0, 0], (1, 1681), st (mk [(pgPWR, PWR.STATUS_THERM_WARN, 1)]), by decide +kernel⟩,
   ⟨1, st (mk [(pgPWR, PWR.STATUS_WAKING, 1)]), by decide +kernel⟩,
   ⟨2, st (mk [(pgPWR, PWR.ENTERING, 1)]), by decide +kernel⟩,
   ⟨st (mk [(pgPWR, PWR.ENTERING, 1), (pgPWR, PWR.WAKE_PEND, 1), (pgLDSYS 0, LDSYS.STATUS_READY, 1)]), by decide +kernel⟩,
   ⟨List.replicate 8 400, st (mk [(pgPWR, PWR.STATUS_WAKING, 1)]), by decide +kernel⟩,
   ⟨List.replicate 8 400, st (mk [(pgPWR, PWR.STATUS_WAKING, 1), (pgPWR, PWR.ENTER_PEND, 1), (pgLDSYS 0, LDSYS.STATUS_READY, 1), (pgLDSYS 1, LDSYS.STATUS_READY, 1)]), by decide +kernel⟩,
   ⟨1, st { (mk []) with commits := [(pgMAP 0, ⟨5, 1, false, false, false, false, 0⟩)] }, by decide +kernel⟩,
   ⟨st (mk [(pgPWR, PWR.ENTERING, 1), (pgLDSYS 0, LDSYS.STATUS_READY, 1)]), by decide +kernel⟩,
   ⟨st (mk []), by decide +kernel⟩,
   ⟨2, st (mk [(pgPWR, PWR.STATUS_BASCULE, 1), (pgLDSYS 0, LDSYS.GATED, 1)]), by decide +kernel⟩,
   ⟨List.replicate 8 400, st (mk [(pgPWR, PWR.STATUS_WAKING, 1), (pgLDSYS 0, LDSYS.STATUS_READY, 1), (pgLDSYS 1, LDSYS.STATUS_READY, 1)]), by decide +kernel⟩,
   ⟨st (mk []), by decide +kernel⟩⟩

/-- The premises of CanonicalForm and of EventsFollowStickyAndMask can be met. -/
theorem wit_CanonicalForm : ∃ s t : State, s.dev.canonical ∧ s.clocked ∧ FMap.wf s.dev.evt.sticky = true ∧ step s = .next t :=
  ⟨st (mk [(pgDAC 1, DAC.BAUD, 5)]), _, ⟨by decide +kernel, by decide +kernel, fun _ => by decide +kernel⟩, by decide +kernel,
    by decide +kernel, rfl⟩

/-- The premises of TopDownBalance can be met. -/
theorem wit_TopDownBalance : (∃ s t : State, s.dev.tdBalanced ∧ step s = .next t) ∧ ∃ a b : TdCount, a.balanced ∧ b.balanced :=
  ⟨⟨st Dev.reset, _, fun _ => ⟨rfl, rfl⟩, rfl⟩, ⟨5, 1, 2, 1, 1⟩, ⟨9, 3, 2, 2, 2⟩, rfl, rfl⟩

/-- A step that is taken leaves OSC_IN running and the sticky bits canonical. -/
theorem wit_EventsFollowStickyAndMask : ∃ s t : State, step s = .next t ∧ t.clocked ∧ FMap.wf t.dev.evt.sticky = true :=
  ⟨st Dev.reset, _, rfl, by decide +kernel, by decide +kernel⟩

end Sys2Proof.Machine
end

section
/-! The events of a page and the pages without a block (R37, R45, R46): what the end of a cycle keeps of the event registers and of
the outputs, the form in which every step leaves the device, and the two obligations. -/

namespace Sys2Proof.Machine

/-! ### Sparse maps -/

/-- A filter that judges an entry by its key keeps what the map reads at the keys it takes. -/
theorem FMap.get_filter_key (m : FMap) (p : Nat → Bool) (k : Nat) :
    FMap.get (m.filter fun e => p e.1) k = if p k then FMap.get m k else 0 := by
  induction m with
  | nil => simp [FMap.get, AMap.find?]
  | cons e t ih =>
    obtain ⟨q, v⟩ := e
    simp only [FMap.get, List.filter_cons] at ih ⊢
    by_cases hq : q = k
    · subst hq
      cases hp : p q <;> simp_all [AMap.find?]
    · cases hp : p q <;> simp_all [AMap.find?]

/-- The entry of a key in a map whose keys rise is the one found there. -/
theorem AMap.find?_of_mem {α : Type} {m : AMap α} (hs : AMap.sorted m = true) {k : Nat} {a : α} (h : (k, a) ∈ m) :
    AMap.find? m k = some a := by
  induction m with
  | nil => simp at h
  | cons e t ih =>
    obtain ⟨q, b⟩ := e
    obtain ⟨hlow, ht⟩ := (AMap.sorted_cons q b t).1 hs
    rcases List.mem_cons.1 h with heq | hmem
    · obtain ⟨rfl, rfl⟩ := Prod.mk.inj heq
      simp [AMap.find?]
    · have : q < k := hlow _ hmem
      simp [AMap.find?, this.ne, ih ht hmem]

/-- A key that a number map reads as something is listed. -/
theorem FMap.mem_keys_of_get {m : FMap} {k : Nat} (h : FMap.get m k ≠ 0) : k ∈ m.map (·.1) := by
  induction m with
  | nil => simp at h
  | cons e t ih =>
    obtain ⟨q, v⟩ := e
    by_cases hq : q = k
    · simp [hq]
    · have : FMap.get t k ≠ 0 := by simpa [FMap.get, AMap.find?, hq] using h
      exact List.mem_cons_of_mem _ (ih this)

/-- In canonical form the listed keys are those that read as something. -/
theorem FMap.mem_keys_iff {m : FMap} (h : FMap.wf m = true) (k : Nat) : k ∈ m.map (·.1) ↔ FMap.get m k ≠ 0 := by
  refine ⟨fun hk => ?_, FMap.mem_keys_of_get⟩
  simp only [FMap.wf, Bool.and_eq_true, List.all_eq_true, bne_iff_ne] at h
  obtain ⟨hs, hne⟩ := h
  obtain ⟨⟨q, v⟩, hmem, rfl⟩ := List.mem_map.1 hk
  simpa [FMap.get, AMap.find?_of_mem hs hmem] using hne _ hmem

/-! ### What counting and delivery keep -/

/-- From `a` to `b` no sticky bit, mask bit or assertion moves, and what was put out stays put out. -/
structure KeepsFlags (a b : Dev) : Prop where
  sticky : b.evt.sticky = a.evt.sticky
  unmasked : b.evt.unmasked = a.evt.unmasked
  asserted : b.evt.asserted = a.evt.asserted
  out : a.out ⊆ b.out

theorem KeepsFlags.refl (a : Dev) : KeepsFlags a a := ⟨rfl, rfl, rfl, fun _ h => h⟩

theorem KeepsFlags.trans {a b c : Dev} (h : KeepsFlags a b) (h' : KeepsFlags b c) : KeepsFlags a c :=
  ⟨h'.sticky.trans h.sticky, h'.unmasked.trans h.unmasked, h'.asserted.trans h.asserted, fun _ ho => h'.out (h.out ho)⟩

/-- A change outside the event registers and the outputs. -/
theorem KeepsFlags.of_eq {a b : Dev} (he : b.evt = a.evt) (ho : b.out = a.out) : KeepsFlags a b :=
  ⟨by rw [he], by rw [he], by rw [he], by rw [ho]; exact fun _ h => h⟩

theorem KeepsFlags.when {d : Dev} {f : Dev → Dev} (c : Bool) (h : KeepsFlags d (f d)) : KeepsFlags d (d.when c f) := by
  cases c
  · exact .refl d
  · exact h

theorem KeepsFlags.foldl {β : Type} {f : Dev → β → Dev} (h : ∀ d x, KeepsFlags d (f d x)) (l : List β) (d : Dev) :
    KeepsFlags d (l.foldl f d) := by
  induction l generalizing d with
  | nil => exact .refl d
  | cons x t ih => exact (h d x).trans (ih _)

/-- Assertions that follow sticky and mask bits still do. -/
theorem KeepsFlags.settled {a b : Dev} (h : KeepsFlags a b) (ha : a.evt.settled) : b.evt.settled := by
  unfold Evt.settled Evt.assertedNow at ha ⊢
  rw [h.sticky, h.unmasked, h.asserted]
  exact ha

theorem KeepsFlags.perfCarry (k i n : Nat) (d : Dev) : KeepsFlags d (Dev.perfCarry k i n d) := by
  induction k generalizing i n d with
  | zero => exact .refl d
  | succ k ih =>
    simp only [Dev.perfCarry]
    have hput : KeepsFlags d (d.put pgPERFW (PERFW.CNT.at i) (d.get pgPERFW (PERFW.CNT.at i) + n)) := .of_eq rfl rfl
    have hwrap := fun c => hput.trans (KeepsFlags.when (f := (·.ev pgPERFW 3)) c (.of_eq rfl rfl))
    split
    · exact hput
    · split
      · exact (hwrap _).trans (ih ..)
      · exact hwrap _

theorem KeepsFlags.perfAdd (d : Dev) (i n : Nat) : KeepsFlags d (d.perfAdd i n) := by
  unfold Dev.perfAdd
  split
  · exact .refl d
  · exact .perfCarry ..

theorem KeepsFlags.perfDiff (old d : Dev) : KeepsFlags d (old.perfDiff d) := by
  unfold Dev.perfDiff
  split
  · exact .refl d
  · refine .foldl (fun d i => ?_) _ d
    split
    · exact .refl d
    · dsimp only
      split
      · split
        · exact .perfAdd ..
        · exact .refl d
      · exact .refl d

theorem KeepsFlags.perfOccur (d : Dev) (all : FMap) : KeepsFlags d (d.perfOccur all) := by
  unfold Dev.perfOccur
  split
  · exact .refl d
  · refine .foldl (fun d i => ?_) _ d
    split
    · exact .refl d
    · dsimp only
      split
      · exact .perfAdd ..
      · exact .refl d

theorem KeepsFlags.msix (d : Dev) (v : Nat) : KeepsFlags d (d.msix v) := by
  unfold Dev.msix
  split
  · exact ⟨rfl, rfl, rfl, List.subset_append_left _ _⟩
  · exact ⟨rfl, rfl, rfl, fun _ h => h⟩

theorem KeepsFlags.evqPost (d : Dev) (e s : Nat) : KeepsFlags d (d.evqPost e s) := by
  unfold Dev.evqPost
  dsimp only
  split
  · exact .refl d
  · split
    · exact ⟨rfl, rfl, rfl, fun _ h => h⟩
    · exact ⟨rfl, rfl, rfl, fun _ h => h⟩

theorem KeepsFlags.backlogShow (d : Dev) : KeepsFlags d d.backlogShow := by
  unfold Dev.backlogShow
  dsimp only
  refine .trans ?_ (.when _ (.of_eq rfl rfl))
  exact .of_eq rfl rfl

theorem KeepsFlags.notify (d : Dev) (t r : Nat) : KeepsFlags d (d.notify t r) := by
  unfold Dev.notify
  split
  · exact .of_eq rfl rfl
  · unfold Dev.ntfPush
    refine .trans ?_ (.backlogShow _)
    exact .of_eq rfl rfl

theorem KeepsFlags.deliver (d : Dev) (k : Nat) : KeepsFlags d (d.deliver k) := by
  unfold Dev.deliver
  exact ((KeepsFlags.when _ (.msix ..)).trans (.when _ (.evqPost ..))).trans (.when _ (.notify ..))

/-! ### What a round and the end of a cycle leave -/

/-- The event registers as a round sets them, before it delivers and counts. -/
def Dev.roundEvt (d : Dev) : Evt :=
  let all := (occSet d.occ).filter (fun x => srcExists x.1)
  let e := all.foldl (fun e x => Evt.occur d.evt all e x.1) d.evt
  { e with asserted := e.assertedNow }

/-- The assertions a round sets follow the sticky and mask bits it leaves (R46). -/
theorem roundEvt_settled (d : Dev) : d.roundEvt.settled := rfl

/-- Delivery and counting, with which a round ends, keep the event registers it set and the outputs. -/
theorem KeepsFlags.settle1 (d : Dev) : KeepsFlags { d with occ := [], evt := d.roundEvt } d.settle1 := by
  unfold Dev.settle1
  dsimp only
  refine .trans ?_ (.perfOccur ..)
  refine .trans ?_ (.perfDiff ..)
  refine .foldl (f := fun d (x : Nat × Nat) => d.deliver x.1) ?_ _ _
  exact fun d x => .deliver d x.1

theorem settle1_settled (d : Dev) : d.settle1.evt.settled := (KeepsFlags.settle1 d).settled (roundEvt_settled d)

theorem settle1_out (d : Dev) : d.out ⊆ d.settle1.out := (KeepsFlags.settle1 d).out

theorem settleN_settled (n : Nat) (d : Dev) : (Dev.settleN (n + 1) d).evt.settled := by
  induction n generalizing d with
  | zero =>
    rw [Dev.settleN]
    split
    · exact settle1_settled d
    · exact settle1_settled d
  | succ n ih =>
    rw [Dev.settleN]
    split
    · exact settle1_settled d
    · exact ih _

theorem settleN_out (n : Nat) (d : Dev) : d.out ⊆ (Dev.settleN n d).out := by
  induction n generalizing d with
  | zero => exact fun _ h => h
  | succ n ih =>
    rw [Dev.settleN]
    split
    · exact settle1_out d
    · exact fun _ h => ih _ (settle1_out d h)

/-- The end of a cycle settles the event machinery (R46, R52). -/
theorem cycle_settled (d : Dev) (f : Dev → Dev) : (d.cycle f).settled :=
  ⟨settle_occ _, fun _ => settleN_settled 63 _⟩

/-- What the change of a command puts out is an output of the command. -/
theorem command_out (d : Dev) (f : Dev → Dev) : (f d.fresh).out ⊆ (d.command f).out :=
  fun _ h => settleN_out 64 _ ((KeepsFlags.perfDiff d.fresh (f d.fresh)).out h)

/-- While OSC_IN is lost nothing is claimed of the assertions, and no occurrence is left (R619). -/
theorem adrift_settled (d : Dev) : d.adrift.settled := ⟨rfl, fun h => absurd h (by simp [Dev.adrift])⟩

/-! ### What a step leaves -/

/-- A command of at least one access ends with the end of a cycle. -/
theorem cycles_settled (d : Dev) {g : Dev → List (Dev → Dev)} (hg : g d.fresh ≠ []) : (d.cycles g).settled := by
  unfold Dev.cycles
  rw [← List.dropLast_append_getLast hg, List.foldl_concat]
  exact cycle_settled _ _

theorem run_settled {s t : State} {f : Dev → Dev} (h : s.run f = .next t) : t.dev.settled := by
  obtain rfl := Host.Outcome.next.inj h
  dsimp only
  split
  · exact adrift_settled _
  · exact cycle_settled _ _

theorem runCycles_settled {s t : State} {g : Dev → List (Dev → Dev)} (hg : ∀ d, g d ≠ []) (h : s.runCycles g = .next t) :
    t.dev.settled := by
  obtain rfl := Host.Outcome.next.inj h
  dsimp only
  split
  · exact adrift_settled _
  · exact cycles_settled _ (hg _)

/-- Every command leaves the event machinery settled. -/
theorem exec_settled {c : Instr} {s t : State} (h : exec c s = .next t) : t.dev.settled := by
  rcases exec_forms c with ⟨f, hf⟩ | ⟨g, hg, hf⟩ | ⟨f, hf⟩ | hf
  · exact run_settled ((hf s).symm.trans h)
  · exact runCycles_settled hg ((hf s).symm.trans h)
  · obtain rfl := Host.Outcome.next.inj ((hf s).symm.trans h)
    exact cycle_settled _ _
  · obtain rfl := Host.Outcome.next.inj ((hf s).symm.trans h)
    exact adrift_settled _

/-- Every step, a hub clock included, leaves the event machinery settled. -/
theorem step_settled {s t : State} (h : step s = .next t) : t.dev.settled := by
  unfold step at h
  split at h
  · exact run_settled h
  · exact exec_settled h

/-! ### Assertions, groups and the top summary (R46) -/

/-- A source of settled event registers is asserted exactly while it is sticky and unmasked. -/
theorem Evt.settled.asserted_iff {e : Evt} (h : e.settled) (k : Nat) :
    FMap.get e.asserted k ≠ 0 ↔ FMap.get e.sticky k ≠ 0 ∧ FMap.get e.unmasked k ≠ 0 := by
  rw [h, Evt.assertedNow, FMap.get_filter_key e.sticky fun k => FMap.get e.unmasked k != 0]
  by_cases hm : FMap.get e.unmasked k = 0 <;> simp [hm]

theorem Evt.settled.asserted_wf {e : Evt} (h : e.settled) (hw : FMap.wf e.sticky = true) : FMap.wf e.asserted = true := by
  rw [h]
  exact FMap.wf_filter _ _ hw

/-- A group is asserted exactly when a source of it is and EVT_GRP_MASK does not mask the group. -/
theorem Dev.groupUp_iff {d : Dev} (hw : FMap.wf d.evt.asserted = true) (g : Nat) :
    d.groupUp g = true ↔ (∃ k, FMap.get d.evt.asserted k ≠ 0 ∧ globalSrc k / 32 = g) ∧
      (if g < 32 then bitOf (d.get pgEVT0 EVT0.GRP_MASK_LO_MASK) g
        else bitOf (d.get pgEVT0 EVT0.GRP_MASK_HI_MASK) (g - 32)) = false := by
  have hany : (d.evt.asserted.any fun x => globalSrc x.1 / 32 == g) = true ↔
      ∃ k, FMap.get d.evt.asserted k ≠ 0 ∧ globalSrc k / 32 = g := by
    simp only [← FMap.mem_keys_iff hw, List.any_eq_true, beq_iff_eq, List.mem_map, exists_exists_and_eq_and]
  simp only [Dev.groupUp, Bool.and_eq_true, Bool.not_eq_true', hany, and_comm]

theorem Dev.topUp_iff (d : Dev) : d.topUp = true ↔ ∃ g, g < 36 ∧ d.groupUp g = true := by
  simp only [Dev.topUp, List.any_eq_true, List.mem_range]

/-- Settles O5: every step ends with the end of a cycle, whose last round sets the assertions from the sticky and mask bits, or
with OSC_IN lost. -/
theorem eventsFollowStickyAndMask : Obligations.EventsFollowStickyAndMask := by
  refine ⟨fun s t h => step_settled h, fun s t h hc k => ?_, fun s t h hc hw g _ => ?_, fun s => s.dev.topUp_iff⟩
  · have hset : t.dev.evt.settled := (step_settled h).2 hc
    exact hset.asserted_iff k
  · have hset : t.dev.evt.settled := (step_settled h).2 hc
    exact Dev.groupUp_iff (hset.asserted_wf hw) g

/-! ### Pages without a block (R37) -/

/-- A command of one change answers whatever holds of that change and its end. -/
theorem yields_command {c : Instr} {s : State} {f : Dev → Dev} {Q : Dev → Prop} (h : exec c s = s.run f) (hs : s.clocked)
    (hq : Q (s.dev.command f)) : Yields c s Q := by
  refine ⟨_, h, rfl, ?_⟩
  have hlost : s.dev.lost ≠ true := by rw [hs]; exact Bool.false_ne_true
  simpa only [if_neg hlost] using hq

/-- A host read of a page without a block returns zero and does nothing. -/
theorem hostRead_unmapped {a : Nat} (h : pageInfo (a / 4096) = none) (d : Dev) : d.hostRead a = (d, 0) := by
  simp only [Dev.hostRead, h]

/-- A host write of a page without a block is UNMAPPED and nothing else. -/
theorem hostWrite_unmapped {a : Nat} (h : pageInfo (a / 4096) = none) (core : Bool) (x : HostEnv) (w : Word) :
    hostWrite core a x w = (·.ev pgSYS 1) := by
  funext d
  simp only [hostWrite, h]

theorem commitArmDo_unmapped {pg : Nat} (h : pageInfo pg = none) (lo hi : Nat) (nearTx nearRx : Bool) :
    commitArmDo pg lo hi nearTx nearRx = (·.ev pgSYS 1) := by
  funext d
  simp [commitArmDo, pagePort, h]

/-- The upper word of an aligned 64-bit access lies on the page of the lower. -/
theorem upperWord_page {a : Nat} (h : a % 8 = 0) : (a / 4 * 4 + 4) / 4096 = a / 4096 := by omega

/-- A read of a page without a block, of one word or of two, puts out zero and does nothing else. -/
theorem bar0Read_unmapped {a : Nat} {wide : Bool} (h : pageInfo (a / 4096) = none) (ha : a % (if wide then 8 else 4) = 0) :
    bar0ReadDo a wide = (·.emit (.readData (some 0))) := by
  funext d
  cases wide with
  | false => simp [bar0ReadDo, hostRead_unmapped h]
  | true =>
    have hup : pageInfo ((a / 4 * 4 + 4) / 4096) = none := by rw [upperWord_page ha, h]
    simp [bar0ReadDo, hostRead_unmapped h, hostRead_unmapped hup]

/-- A change in which UNMAPPED occurs and nothing outside the event machinery moves. -/
def IgnoredWrite (f : Dev → Dev) : Prop := ∀ d, pgSYS * 64 + 1 ∈ (f d).occ ∧ Quiet d (f d)

theorem ignoredWrite_ev : IgnoredWrite (·.ev pgSYS 1) := fun d => ⟨List.mem_cons_self, Quiet.ev d _ _⟩

theorem ignoredWrite_ev_twice : IgnoredWrite fun d => (d.ev pgSYS 1).ev pgSYS 1 :=
  fun d => ⟨List.mem_cons_self, (Quiet.ev d _ _).trans (Quiet.ev _ _ _)⟩

/-- A write of a page without a block, of one word or of two, is one access that is ignored. -/
theorem bar0Writes_unmapped {a : Nat} {wide : Bool} (h : pageInfo (a / 4096) = none) (ha : a % (if wide then 8 else 4) = 0)
    (core : Bool) (x : HostEnv) (lo hi : Word) : ∃ f, IgnoredWrite f ∧ bar0Writes core a wide x lo hi = [f] := by
  cases wide with
  | false => exact ⟨_, ignoredWrite_ev, by simp [bar0Writes, hostWrite_unmapped h]⟩
  | true =>
    have hup : pageInfo ((a / 4 * 4 + 4) / 4096) = none := by rw [upperWord_page ha, h]
    have hwide : wideWrite core a x lo hi = fun d => (d.ev pgSYS 1).ev pgSYS 1 := by
      funext d
      simp [wideWrite, h, hostWrite_unmapped h, hostWrite_unmapped hup]
    have heven : a / 4 % 2 = 0 := by have : a % 8 = 0 := ha; omega
    exact ⟨_, ignoredWrite_ev_twice, by simp [bar0Writes, heven, hwide]⟩

/-- What a command whose change is an ignored write makes of the device. -/
theorem IgnoredWrite.result {f : Dev → Dev} (hf : IgnoredWrite f) {a d : Dev} (hq : Quiet (f a.fresh) d)
    (hr : ∀ pg src, pg * 64 + src ∈ (f a.fresh).occ → srcExists (pg * 64 + src) = true → d.raised pg src) :
    d.raised pgSYS 1 ∧ Frame [] a d :=
  ⟨hr pgSYS 1 (hf _).1 (by decide), (Frame.fresh _ _).trans (.of_quiet _ ((hf _).2.trans hq))⟩

/-- A command that is an ignored write raises UNMAPPED and does nothing else. -/
theorem yields_ignored {c : Instr} {s : State} {f : Dev → Dev} (h : exec c s = s.run f) (hf : f = (·.ev pgSYS 1)) (hs : s.clocked) :
    Yields c s fun d => d.raised pgSYS 1 ∧ Frame [] s.dev d :=
  yields h hs fun _ => (hf ▸ ignoredWrite_ev).result

/-- Settles O8: every access of a page without a block comes down to `hostRead`, `hostWrite` or `commitArmDo`, which look
the page up first and do nothing beyond UNMAPPED when it has no block. -/
theorem unassignedPages : Obligations.UnassignedPages := by
  refine ⟨fun off wide s hs hpg hal => ?_, fun core wide off data x s hs hpg hal => ?_,
    fun pg k w lo hi x nearTx nearRx s hs hpg => ⟨?_, ?_, ?_, ?_⟩, fun off w nearTx nearRx s hs hpg => ⟨?_, ?_⟩⟩
  · have hexec : exec (.loRead off wide) s = s.run (bar0ReadDo off.toNat wide) := rfl
    rw [bar0Read_unmapped hpg hal] at hexec
    exact yields_command hexec hs ⟨command_out _ _ (by simp),
      (Frame.fresh _ _).trans ((Frame.emit _ _ _).trans (.of_quiet _ (command_quiet s.dev (·.emit (.readData (some 0))))))⟩
  · obtain ⟨f, hf, hone⟩ := bar0Writes_unmapped hpg hal core x (data.extractLsb' 0 32) (data.extractLsb' 32 32)
    exact yields_cycle rfl hone hs fun _ => hf.result
  · have hpage : (pg.toNat * 4096 + 0x50 + 4 * k.val) / 4096 = pg.toNat := by omega
    exact yields_ignored rfl (hostWrite_unmapped (by rw [hpage, hpg]) false noEnv w) hs
  · have hpage : (pg.toNat * 4096 + 0x60 + 4 * k.val) / 4096 = pg.toNat := by omega
    exact yields_ignored rfl (hostWrite_unmapped (by rw [hpage, hpg]) false noEnv w) hs
  · have hpage : (pg.toNat * 4096 + 0x10) / 4096 = pg.toNat := by omega
    exact yields_ignored rfl (hostWrite_unmapped (by rw [hpage, hpg]) false x 0x80000000#32) hs
  · exact yields_ignored rfl (commitArmDo_unmapped hpg lo.toNat hi.toNat nearTx nearRx) hs
  · exact yields_ignored rfl (hostWrite_unmapped hpg false { noEnv with nearTx := nearTx, nearRx := nearRx } w) hs
  · exact yields_ignored rfl (hostWrite_unmapped hpg false noEnv w) hs

end Sys2Proof.Machine
end

section
/-! Time bases and their trim (R399, R401): what a hub clock makes of the time bases, what a write of TBn_TRIM makes of the trim
and of TRIM_SAT, and the obligation. -/

namespace Sys2Proof.Machine

/-! ### What a hub clock leaves of time and loss -/

/-- The time bases and the loss of OSC_IN. -/
def Dev.timeAndLoss (d : Dev) : FMap × Bool := (d.tb, d.lost)

/-- The end of a cycle moves neither. -/
theorem Quiet.timeAndLoss {a b : Dev} (h : Quiet a b) : b.timeAndLoss = a.timeAndLoss := by
  rw [h.rest]
  rfl

theorem Dev.put_timeAndLoss (d : Dev) (pg : Nat) (f : Fld) (v : Nat) : (d.put pg f v).timeAndLoss = d.timeAndLoss := rfl

theorem Dev.tdCycle_timeAndLoss (d : Dev) : d.tdCycle.timeAndLoss = d.timeAndLoss := by
  unfold Dev.tdCycle
  exact foldl_keeps Dev.timeAndLoss _ (by intros; rfl) _ d

theorem Dev.perfTick_timeAndLoss (d : Dev) : d.perfTick.timeAndLoss = d.timeAndLoss := by
  unfold Dev.perfTick
  have hcount : ∀ d : Dev, ∀ i ∈ List.range 32,
      Quiet d (d.when (d.get pgPERFW (PERFW.SEL_KIND.at i) == 0) (·.perfAdd i 1)) :=
    fun d i hi => .when _ (.perfAdd d 1 (List.mem_range.1 hi))
  exact (Dev.when_keeps _ _ _ _ (Dev.tdCycle_timeAndLoss _)).trans (Quiet.foldl _ hcount d).timeAndLoss

theorem Dev.msTick_timeAndLoss (d : Dev) : d.msTick.timeAndLoss = d.timeAndLoss := by
  have hline : ∀ (p : Port) (d : Dev), (d.lineDo p (·.bumpSat (pgLCAL p) LCAL.AGE_MS 1)).timeAndLoss = d.timeAndLoss := by
    intro p d
    unfold Dev.lineDo
    split
    · exact Dev.put_timeAndLoss ..
    · rfl
  have hhg := foldl_keeps Dev.timeAndLoss (fun d n => d.bumpSat pgCAL (CAL.HG_AGE_MS.at n) 1) (fun _ _ => rfl) (List.range 4)
  unfold Dev.msTick
  exact (hhg _).trans ((hline 1 _).trans (hline 0 d))

theorem Dev.ntfTick_timeAndLoss (d : Dev) : d.ntfTick.timeAndLoss = d.timeAndLoss := by
  refine Dev.when_keeps _ d _ _ ?_
  unfold Dev.ntfEvent
  split
  · rfl
  · rfl

/-- Of a hub clock only the advance of the time bases moves them. -/
theorem Dev.tick_timeAndLoss (d : Dev) : d.tick.timeAndLoss = d.tbTick.timeAndLoss := by
  unfold Dev.tick
  dsimp only
  rw [Dev.ntfTick_timeAndLoss, Dev.when_keeps _ _ _ _ (Dev.msTick_timeAndLoss _)]
  exact Dev.perfTick_timeAndLoss _

/-! ### The advance of the time bases (R399) -/

/-- A time base's count, in parts, one hub clock later. -/
def Dev.tbNext (d : Dev) (n : Nat) : Nat :=
  (((FMap.get d.tb n : Int) + 2 ^ 21 * (10 ^ 12 + d.tbTrim n)) % ((m80 * tbParts : Nat) : Int)).toNat

/-- The first `m` time bases advanced, in turn. -/
def Dev.tbAdvance (d : Dev) (m : Nat) : Dev :=
  (List.range m).foldl (fun d n => d.tbAdd n (2 ^ 21 * (10 ^ 12 + d.tbTrim n))) d

theorem Dev.tbAdvance_succ (d : Dev) (m : Nat) :
    d.tbAdvance (m + 1) = (d.tbAdvance m).tbAdd m (2 ^ 21 * (10 ^ 12 + (d.tbAdvance m).tbTrim m)) := by
  simp only [Dev.tbAdvance, List.range_succ, List.foldl_append, List.foldl_cons, List.foldl_nil]

theorem Dev.tbAdvance_regs (d : Dev) (m : Nat) : (d.tbAdvance m).regs = d.regs := by
  unfold Dev.tbAdvance
  exact foldl_keeps Dev.regs _ (by intros; rfl) _ d

theorem Dev.tbAdvance_lost (d : Dev) (m : Nat) : (d.tbAdvance m).lost = d.lost := by
  unfold Dev.tbAdvance
  exact foldl_keeps Dev.lost _ (by intros; rfl) _ d

/-- The advance of other time bases leaves the trim. -/
theorem Dev.tbAdvance_tbTrim (d : Dev) (m n : Nat) : (d.tbAdvance m).tbTrim n = d.tbTrim n := by
  unfold Dev.tbTrim
  rw [Dev.get_congr (d.tbAdvance_regs m)]

/-- Each time base advances once, by its own trim. -/
theorem Dev.tbAdvance_get (d : Dev) (m n : Nat) :
    FMap.get (d.tbAdvance m).tb n = if n < m then d.tbNext n else FMap.get d.tb n := by
  induction m with
  | zero => rfl
  | succ m ih =>
    rw [Dev.tbAdvance_succ, Dev.tbAdvance_tbTrim]
    show FMap.get (FMap.set (d.tbAdvance m).tb m _) n = _
    by_cases hn : n = m
    · subst hn
      rw [FMap.get_set_same, ih, if_neg (lt_irrefl n), if_pos (Nat.lt_succ_self n), Dev.tbNext]
    · rw [FMap.get_set_other _ _ hn, ih]
      have hlt : n < m ↔ n < m + 1 := by omega
      simp only [hlt]

theorem Dev.tbTick_eq (d : Dev) :
    d.tbTick = (d.tbAdvance 4).putb pgTB TB.SECOND ((d.tbAdvance 4).ppsSecond != d.ppsSecond) := rfl

/-- A step with no command waiting is one hub clock (log 2): OSC_IN keeps running and every time base advances once. -/
theorem step_hubClock {s : State} (hp : s.pending = []) (hs : s.clocked) :
    ∃ t, step s = .next t ∧ t.clocked ∧ ∀ n, n < 4 → FMap.get t.dev.tb n = s.dev.tbNext n := by
  have hrun : step s = .next { s with dev := s.dev.command Dev.tick } := by
    have htick : step s = s.run Dev.tick := by
      unfold step
      split
      · rfl
      · next h => exact absurd (hp.symm.trans h) (List.cons_ne_nil _ _).symm
    simp only [htick, State.run, hs, Bool.false_eq_true, if_false]
  have hmoved : (s.dev.command Dev.tick).timeAndLoss = (s.dev.fresh.tbAdvance 4).timeAndLoss :=
    calc (s.dev.command Dev.tick).timeAndLoss
      _ = s.dev.fresh.tick.timeAndLoss := (command_quiet s.dev Dev.tick).timeAndLoss
      _ = s.dev.fresh.tbTick.timeAndLoss := s.dev.fresh.tick_timeAndLoss
      _ = (s.dev.fresh.tbAdvance 4).timeAndLoss := by rw [Dev.tbTick_eq, Dev.putb_eq, Dev.put_timeAndLoss]
  obtain ⟨htb, hlost⟩ := Prod.mk.inj hmoved
  refine ⟨_, hrun, ?_, fun n hn => ?_⟩
  · exact hlost.trans ((s.dev.fresh.tbAdvance_lost 4).trans hs)
  · show FMap.get (s.dev.command Dev.tick).tb n = _
    rw [htb, Dev.tbAdvance_get, if_pos hn]
    rfl

/-! ### Numbers and bits -/

/-- A 32-bit field read as a signed number is the word's own signed value. -/
theorem sOf_toNat (w : Word) : sOf 32 w.toNat = w.toInt := by
  have hlt : w.toNat < 2 ^ 32 := w.isLt
  simp only [sOf, BitVec.toInt, Nat.mod_eq_of_lt hlt]
  split_ifs <;> omega

theorem clampI_ne {lo hi v : Int} (hle : lo ≤ hi) (h : v < lo ∨ hi < v) : clampI lo hi v ≠ v := by
  unfold clampI
  rcases h with hlo | hhi
  · rw [if_pos hlo]
    omega
  · rw [if_neg (by omega), if_pos hhi]
    omega

theorem bitOf_eq_testBit (v k : Nat) : bitOf v k = v.testBit k := by
  rw [Nat.testBit_eq_decide_div_mod_eq, bitOf, beq_eq_decide]

/-- A bit that was set in a mask field reads as set. -/
theorem Dev.bitOf_putBit_true (d : Dev) (pg : Nat) {f : Fld} {k : Nat} (h : k < f.width) :
    bitOf ((d.putBit pg f k true).get pg f) k = true := by
  rw [bitOf_eq_testBit]
  simp [Dev.putBit, h, Nat.testBit_two_pow_self]

/-! ### A write of TBn_TRIM (R401) -/

/-- The registers TBn_TRIM and STATUS stand apart. -/
theorem trim_key_ne_trimSat (n : Nat) : (TB.TRIM.at n).key pgTB ≠ TB.STATUS_TRIM_SAT.key pgTB := by
  simp only [Fld.key, ne_eq, fkey_same, Fld.at, TB.TRIM, TB.STATUS_TRIM_SAT]
  omega

theorem settleKey_trim {n : Nat} (hn : n < 4) : settleKey ((TB.TRIM.at n).key pgTB) = false := by
  have hoff : (TB.TRIM.at n).off < 2 ^ 20 := by
    simp only [Fld.at, TB.TRIM]
    omega
  have hlo : (TB.TRIM.at n).lo < 64 := by simp only [Fld.at, TB.TRIM]; omega
  exact settleKey_page (by decide) (by decide) hoff hlo

theorem settleKey_trimSat : settleKey (TB.STATUS_TRIM_SAT.key pgTB) = false := by decide

/-- The trim applied while TBn_TRIM holds a word: its signed value within 500 ppm. -/
theorem Dev.tbTrim_of_get {d : Dev} {n : Nat} {w : Word} (h : d.get pgTB (TB.TRIM.at n) = w.toNat) :
    d.tbTrim n = clampI (-500000000) 500000000 w.toInt := by
  rw [Dev.tbTrim, h, sOf_toNat]

/-- TBn_TRIM reads as written. -/
theorem Dev.get_putW_trim (d : Dev) (n : Nat) (w : Word) :
    (d.putW pgTB (TB.TRIM.at n) w).get pgTB (TB.TRIM.at n) = w.toNat := by
  have hword : (TB.TRIM.at n).ofWord w.toNat = w.toNat % 2 ^ 32 := by
    simp [Fld.ofWord, bitsOf, Fld.at, TB.TRIM]
  rw [Dev.putW_eq, Dev.get_put_same, Fld.ofWord_mod, hword, Nat.mod_eq_of_lt w.isLt]

/-- The value that TRIM_SAT[n] takes at a write of TBn_TRIM: the word lies beyond the limits. -/
def trimBeyond (w : Word) : Bool := decide (clampI (-500000000) 500000000 w.toInt ≠ w.toInt)

theorem trimBeyond_of_limits {w : Word} (h : w.toInt < -500000000 ∨ 500000000 < w.toInt) : trimBeyond w = true :=
  decide_eq_true (clampI_ne (by omega) h)

/-- A write of TBn_TRIM: the word, its bit of TRIM_SAT, and TRIM_CLAMP when it lies beyond the limits. -/
theorem tbTrimWrite_eq (n : Nat) (w : Word) (d : Dev) :
    tbTrimWrite n w d = ((d.putW pgTB (TB.TRIM.at n) w).putBit pgTB TB.STATUS_TRIM_SAT n (trimBeyond w)).when (trimBeyond w)
      (·.ev pgTB 7) := by
  simp only [tbTrimWrite, Dev.tbTrim_of_get (d.get_putW_trim n w), sOf_toNat, trimBeyond]

theorem tbTrimWrite_get_trim (n : Nat) (w : Word) (d : Dev) : (tbTrimWrite n w d).get pgTB (TB.TRIM.at n) = w.toNat := by
  rw [tbTrimWrite_eq, Dev.when_keeps (·.get pgTB (TB.TRIM.at n)) _ _ _ rfl, Dev.putBit,
    Dev.get_put_other _ _ _ _ _ _ (trim_key_ne_trimSat n), Dev.get_putW_trim]

/-- A write beyond the limits sets TRIM_SAT[n], and TRIM_CLAMP occurs. -/
theorem tbTrimWrite_beyond {n : Nat} (hn : n < 4) {w : Word} (d : Dev) (h : w.toInt < -500000000 ∨ 500000000 < w.toInt) :
    bitOf ((tbTrimWrite n w d).get pgTB TB.STATUS_TRIM_SAT) n = true ∧ pgTB * 64 + 7 ∈ (tbTrimWrite n w d).occ := by
  rw [tbTrimWrite_eq, trimBeyond_of_limits h, Dev.when_true]
  exact ⟨Dev.bitOf_putBit_true _ _ hn, List.mem_cons_self⟩

/-- A write of TBn_TRIM changes TBn_TRIM and TRIM_SAT only. -/
theorem tbTrimWrite_frame (n : Nat) (w : Word) (d : Dev) :
    Frame [(TB.TRIM.at n).key pgTB, TB.STATUS_TRIM_SAT.key pgTB] d (tbTrimWrite n w d) := by
  rw [tbTrimWrite_eq]
  have htrim : Frame [(TB.TRIM.at n).key pgTB, TB.STATUS_TRIM_SAT.key pgTB] d (d.putW pgTB (TB.TRIM.at n) w) :=
    .put _ _ _ _ _ List.mem_cons_self
  exact htrim.trans (.trans (.put _ _ _ _ _ (by simp)) (.when _ (.ev _ _ _ _)))

/-- Settles O9: the write is `tbTrimWrite`, whose registers the end of the cycle leaves alone; a hub clock moves the time bases
by `Dev.tbTick` only, which advances each once by its own trim. -/
theorem timeBaseTrim : Obligations.TimeBaseTrim := by
  refine ⟨fun n w s hs => yields rfl hs fun d hq hr => ?_, fun s hp hs => ?_⟩
  · have hheld : d.get pgTB (TB.TRIM.at n.val) = w.toNat :=
      (hq.get (settleKey_trim n.isLt)).trans (tbTrimWrite_get_trim n.val w s.dev.fresh)
    refine ⟨hheld, Dev.tbTrim_of_get hheld, fun hbeyond => ?_, ?_⟩
    · obtain ⟨hsat, hocc⟩ := tbTrimWrite_beyond n.isLt s.dev.fresh hbeyond
      rw [hq.get settleKey_trimSat]
      exact ⟨hsat, hr _ _ hocc (by decide)⟩
    · exact (Frame.fresh _ _).trans ((tbTrimWrite_frame n.val w s.dev.fresh).trans (.of_quiet _ hq))
  · obtain ⟨t, hstep, hclock, hnext⟩ := step_hubClock hp hs
    exact ⟨t, hstep, hclock, fun n => hnext n.val n.isLt⟩

end Sys2Proof.Machine
end

section
/-! The top-down counters (R566, R567): a cycle of an engine and a snapshot keep them balanced, a reset zeroes them, and every
other change of the device leaves them alone; and the obligation.

Most of it is one lemma for each function of the model, in the model's order: the function leaves the top-down counters alone.
With them `simp` shows the same of every command that neither takes a snapshot nor can write a register nor resets the block. -/

namespace Sys2Proof.Machine

/-! ### The counters and what leaves them alone -/

/-- The top-down counters, live and in the snapshot. -/
def Dev.topDown (d : Dev) : AMap TdCount × AMap TdCount := (d.td, d.tdSnap)

@[simp] theorem topDown_mk (regs pend evt hiCap commits conv eq mem fec map scc enc ticks ks clkHist tb link tlq tlqEnq hg tcv
      hgCal td tdSnap mgmt syn merge dmaBuf lost occ out freeCtr) :
    (Dev.mk regs pend evt hiCap commits conv eq mem fec map scc enc ticks ks clkHist tb link tlq tlqEnq hg tcv hgCal td tdSnap
      mgmt syn merge dmaBuf lost occ out freeCtr).topDown = (td, tdSnap) := (rfl)

@[simp] theorem topDown_eta (d : Dev) : (d.td, d.tdSnap) = d.topDown := (rfl)

@[simp] theorem topDown_ite (c : Prop) [Decidable c] (a b : Dev) :
    (if c then a else b).topDown = if c then a.topDown else b.topDown := apply_ite Dev.topDown c a b

@[simp] theorem topDown_ite_fst {α : Type} (c : Prop) [Decidable c] (a b : Dev × α) :
    (if c then a else b).1.topDown = if c then a.1.topDown else b.1.topDown := apply_ite (·.1.topDown) c a b

@[simp] theorem topDown_ite_snd {α : Type} (c : Prop) [Decidable c] (a b : α × Dev) :
    (if c then a else b).2.topDown = if c then a.2.topDown else b.2.topDown := apply_ite (·.2.topDown) c a b

@[simp] theorem foldl_topDown {β : Type} (f : Dev → β → Dev) (l : List β) (d : Dev)
    (h : ∀ d x, (f d x).topDown = d.topDown) : (l.foldl f d).topDown = d.topDown :=
  foldl_keeps Dev.topDown f h l d

@[simp] theorem foldl_fst_topDown {β γ : Type} (f : Dev × γ → β → Dev × γ) (l : List β) (r : Dev × γ)
    (h : ∀ r x, (f r x).1.topDown = r.1.topDown) : (l.foldl f r).1.topDown = r.1.topDown := by
  induction l generalizing r with
  | nil => rfl
  | cons x t ih => exact (ih _).trans (h r x)

@[simp] theorem foldl_snd_topDown {β γ : Type} (f : γ × Dev → β → γ × Dev) (l : List β) (r : γ × Dev)
    (h : ∀ r x, (f r x).2.topDown = r.2.topDown) : (l.foldl f r).2.topDown = r.2.topDown := by
  induction l generalizing r with
  | nil => rfl
  | cons x t ih => exact (ih _).trans (h r x)

/-- The end of a cycle leaves the top-down counters alone. -/
theorem Quiet.topDown {a b : Dev} (h : Quiet a b) : b.topDown = a.topDown := by
  rw [h.rest]
  rfl

/-! ### Fields, occurrences and outputs leave the top-down counters alone -/

section Ops

variable (d : Dev) (pg v n : Nat) (f : Fld) (w : Word) (b : Bool)

@[simp] theorem Dev.put_topDown : (d.put pg f v).topDown = d.topDown := (rfl)
@[simp] theorem Dev.pput_topDown : (d.pput pg f v).topDown = d.topDown := (rfl)
@[simp] theorem Dev.putb_topDown : (d.putb pg f b).topDown = d.topDown := (rfl)
@[simp] theorem Dev.bump_topDown : (d.bump pg f n).topDown = d.topDown := (rfl)
@[simp] theorem Dev.bumpSat_topDown : (d.bumpSat pg f n).topDown = d.topDown := (rfl)
@[simp] theorem Dev.putLH_topDown (lo hi : Fld) : (d.putLH pg lo hi v).topDown = d.topDown := (rfl)
@[simp] theorem Dev.putW_topDown : (d.putW pg f w).topDown = d.topDown := (rfl)
@[simp] theorem Dev.putWs_topDown (fs : List Fld) : (d.putWs pg fs w).topDown = d.topDown := by simp [Dev.putWs]
@[simp] theorem Dev.clearW_topDown : (d.clearW pg f w).topDown = d.topDown := (rfl)
@[simp] theorem Dev.putBit_topDown (k : Nat) : (d.putBit pg f k b).topDown = d.topDown := (rfl)
@[simp] theorem Dev.bwAdd_topDown (j : Nat) (out : Bool) : (d.bwAdd j out n).topDown = d.topDown := (rfl)
@[simp] theorem Dev.when_topDown (c : Bool) (f : Dev → Dev) :
    (d.when c f).topDown = if c then (f d).topDown else d.topDown := by cases c <;> rfl
@[simp] theorem Dev.ev_topDown (src : Nat) : (d.ev pg src).topDown = d.topDown := (rfl)
@[simp] theorem Dev.emit_topDown (o : Output) : (d.emit o).topDown = d.topDown := (rfl)
@[simp] theorem Dev.used_topDown : d.used.topDown = d.topDown := (rfl)
@[simp] theorem Dev.hostLine_topDown (p : Port) (f : Dev → Dev) :
    (d.hostLine p f).topDown = if d.online p then (f d).topDown else d.topDown := by simp [Dev.hostLine]
@[simp] theorem Dev.lineDo_topDown (p : Port) (f : Dev → Dev) :
    (d.lineDo p f).topDown = if d.online p then (f d).topDown else d.topDown := by simp [Dev.lineDo]
@[simp] theorem Dev.takeSide_topDown (a : Acc) : (d.takeSide pg a).topDown = d.topDown := (rfl)

end Ops

/-! ### Stored words -/

section Ecc

variable (d : Dev) (w m req s mask data a v kind c n : Nat) (x : Upset)

@[simp] theorem Dev.wordPut_topDown : (d.wordPut m w v s).topDown = d.topDown := (rfl)
@[simp] theorem Dev.upset_topDown (x : Nat) : (d.upset m w x).topDown = d.topDown := by simp [Dev.upset]
@[simp] theorem Dev.ceFound_topDown : (d.ceFound m w s).topDown = d.topDown := by simp only [Dev.ceFound]; split <;> simp
@[simp] theorem Dev.poison_topDown : (d.poison m w).topDown = d.topDown := (rfl)
@[simp] theorem Dev.ueFound_topDown : (d.ueFound m w s kind req).topDown = d.topDown := by simp only [Dev.ueFound]; split <;> simp
@[simp] theorem Dev.eccRead_topDown : (d.eccRead m w x kind req).1.topDown = d.topDown := by simp [Dev.eccRead]
@[simp] theorem Dev.wordWrite_topDown : (d.wordWrite m w v).topDown = d.topDown := by simp [Dev.wordWrite]

@[simp] theorem Dev.drain_topDown (e : MergeEntry) : (d.drain e).topDown = d.topDown := by
  simp only [Dev.drain]
  (repeat' split) <;> simp

@[simp] theorem Dev.drainIf_topDown (f : MergeEntry → Bool) : (d.drainIf f).topDown = d.topDown := by simp [Dev.drainIf]
@[simp] theorem Dev.drainWord_topDown : (d.drainWord m w).topDown = d.topDown := by simp [Dev.drainWord]

@[simp] theorem Dev.mergeWrite_topDown : (d.mergeWrite c w mask data req).topDown = d.topDown := by
  simp only [Dev.mergeWrite]
  (repeat' split) <;> simp

@[simp] theorem Dev.demandRead_topDown : (d.demandRead m w x req).1.topDown = d.topDown := by simp [Dev.demandRead]
@[simp] theorem Dev.ctrlWrite_topDown : (d.ctrlWrite c w mask data req).topDown = d.topDown := by simp [Dev.ctrlWrite]

@[simp] theorem Dev.directWrite_topDown : (d.directWrite m w mask data req).topDown = d.topDown := by
  simp only [Dev.directWrite]
  (repeat' split) <;> simp

@[simp] theorem Dev.sramDrain_topDown : (d.sramDrain a n).topDown = d.topDown := by simp [Dev.sramDrain]
@[simp] theorem Dev.sramWrite_topDown (l : List (BitVec 8)) : (d.sramWrite a l).topDown = d.topDown := by simp [Dev.sramWrite]

@[simp] theorem Dev.sramWords_topDown (n w : Nat) : (Dev.sramWords n w d).1.topDown = d.topDown := by
  induction n generalizing w d with
  | zero => rfl
  | succ n ih =>
    simp only [Dev.sramWords, ih]
    split <;> simp

@[simp] theorem Dev.sramRead_topDown : (d.sramRead a n).1.topDown = d.topDown := by simp [Dev.sramRead]

end Ecc

/-! ### Notifications -/

section Ring

variable (d : Dev)

@[simp] theorem Dev.mgmtUpd_topDown (f : MgmtState → MgmtState) : (d.mgmtUpd f).topDown = d.topDown := (rfl)
@[simp] theorem Dev.backlogShow_topDown : d.backlogShow.topDown = d.topDown := by simp [Dev.backlogShow]
@[simp] theorem Dev.ntfPush_topDown (n : Ntf) : (d.ntfPush n).topDown = d.topDown := by simp [Dev.ntfPush]
@[simp] theorem Dev.notify_topDown (typ ref : Nat) : (d.notify typ ref).topDown = d.topDown := by simp [Dev.notify]

end Ring

/-! ### General performance counters -/

section Count

variable (d : Dev)

@[simp] theorem Dev.perfCarry_topDown (k i n : Nat) : (Dev.perfCarry k i n d).topDown = d.topDown := by
  induction k generalizing i n d with
  | zero => rfl
  | succ k ih => simp [Dev.perfCarry, ih]

@[simp] theorem Dev.perfAdd_topDown (i n : Nat) : (d.perfAdd i n).topDown = d.topDown := by simp [Dev.perfAdd]
@[simp] theorem Dev.perfDiff_topDown (old : Dev) : (old.perfDiff d).topDown = d.topDown := (Quiet.perfDiff old d).topDown

end Count

/-! ### The event machinery -/

section Flags

variable (d : Dev)

@[simp] theorem Dev.msix_topDown (vec : Nat) : (d.msix vec).topDown = d.topDown := by simp [Dev.msix]
@[simp] theorem Dev.settle_topDown : d.settle.topDown = d.topDown := (Quiet.settle d).topDown

end Flags

/-! ### The span control channel -/

section Scc

variable (d : Dev) (p : Port) (seq target cls tag ch reason : Nat) (bytes pay : List Nat) (w : Word)

@[simp] theorem Dev.sccUpd_topDown (f : SccState → SccState) : (d.sccUpd p f).topDown = d.topDown := (rfl)
@[simp] theorem Dev.sccSend0_topDown : (d.sccSend0 p bytes).topDown = d.topDown := (rfl)
@[simp] theorem Dev.sccSend1_topDown : (d.sccSend1 p bytes).topDown = d.topDown := (rfl)
@[simp] theorem Dev.sccCellTx_topDown (frame : Nat) : (d.sccCellTx p frame).topDown = d.topDown := by simp [Dev.sccCellTx]
@[simp] theorem Dev.segErr_topDown : (d.segErr p).topDown = d.topDown := (rfl)
@[simp] theorem Dev.sccDeliver_topDown : (d.sccDeliver p ch bytes).topDown = d.topDown := by simp [Dev.sccDeliver]
@[simp] theorem Dev.sccOpen_topDown (cseq : Nat) (last : Bool) : (d.sccOpen p ch cseq last pay).topDown = d.topDown := by
  simp [Dev.sccOpen]
@[simp] theorem Dev.sccReassemble_topDown (b0 : Nat) : (d.sccReassemble p b0 pay).topDown = d.topDown := by
  simp [Dev.sccReassemble]
@[simp] theorem Dev.sccDown_topDown : (d.sccDown p).topDown = d.topDown := by simp [Dev.sccDown]
@[simp] theorem sccCellRx_topDown (cell : List Nat) (locked : Bool) : (sccCellRx p cell locked d).topDown = d.topDown := by
  simp [sccCellRx]
@[simp] theorem sccSend_topDown : (sccSend p w d).topDown = d.topDown := by simp [sccSend]
@[simp] theorem sccTxDone_topDown : (sccTxDone p d).topDown = d.topDown := by simp [sccTxDone]
@[simp] theorem sccPop_topDown : (sccPop p d).topDown = d.topDown := (rfl)
@[simp] theorem Dev.cnReply_topDown (r : CnReply) : (d.cnReply p seq r).topDown = d.topDown := (rfl)
@[simp] theorem Dev.cnAnswer_topDown : (d.cnAnswer p reason).topDown = d.topDown := by simp [Dev.cnAnswer]
@[simp] theorem Dev.cnStart_topDown : (d.cnStart p).topDown = d.topDown := by simp [Dev.cnStart]
@[simp] theorem cnCtl_topDown : (cnCtl p w d).topDown = d.topDown := by simp [cnCtl]
@[simp] theorem Dev.cnFrame_topDown : (d.cnFrame p).topDown = d.topDown := by simp [Dev.cnFrame]
@[simp] theorem cnResendDo_topDown : (cnResendDo p d).topDown = d.topDown := by simp [cnResendDo]
@[simp] theorem cnTimeoutDo_topDown : (cnTimeoutDo p d).topDown = d.topDown := by simp [cnTimeoutDo]
@[simp] theorem cnAckDo_topDown : (cnAckDo p seq target d).topDown = d.topDown := by simp [cnAckDo]
@[simp] theorem cnNackDo_topDown : (cnNackDo p seq target reason d).topDown = d.topDown := by simp [cnNackDo]
@[simp] theorem Dev.cnStore_topDown (auto : Bool) : (d.cnStore p seq target cls tag auto).topDown = d.topDown := by
  simp [Dev.cnStore]
@[simp] theorem Dev.cnReceive_topDown : (d.cnReceive p seq target cls tag).topDown = d.topDown := by simp [Dev.cnReceive]

@[simp] theorem cnProposeRx_topDown : (cnProposeRx p seq target cls tag d).topDown = d.topDown := by
  simp only [cnProposeRx]
  split <;> simp

@[simp] theorem cnLateDo_topDown : (cnLateDo p d).topDown = d.topDown := by simp [cnLateDo]

end Scc

/-! ### Staged fields -/

section Stage

variable (d : Dev)

@[simp] theorem Dev.stage_topDown (pg : Nat) (f : Fld) (near : Bool × Bool) (w : Word) :
    (d.stage pg f near w).topDown = d.topDown := by simp [Dev.stage]

end Stage

/-! ### Line converters -/

section Conv

variable (d : Dev) (p : Port) (w : Word) (lane cause u : Nat) (x : Capture) (prio agree : Bool) (elig : List Nat) (res : Meas)
  (sel : Sel) (near : Bool × Bool)

@[simp] theorem Dev.convUpd_topDown (f : ConvState → ConvState) : (d.convUpd p f).topDown = d.topDown := (rfl)
@[simp] theorem Dev.capFill_topDown : (d.capFill p).topDown = d.topDown := (rfl)
@[simp] theorem Dev.capTrigger_topDown (trig : Nat) : (d.capTrigger p trig).topDown = d.topDown := by simp [Dev.capTrigger]
@[simp] theorem adcOverrangeDo_topDown (pos : Nat) : (adcOverrangeDo p lane pos d).topDown = d.topDown := by simp [adcOverrangeDo]
@[simp] theorem Dev.adcFrame_topDown : (d.adcFrame p).topDown = d.topDown := by simp [Dev.adcFrame]
@[simp] theorem Dev.capStore_topDown : (d.capStore p x).topDown = d.topDown := (rfl)
@[simp] theorem adcCapWrite_topDown : (adcCapWrite p w x d).topDown = d.topDown := by simp [adcCapWrite]
@[simp] theorem capDoneDo_topDown : (capDoneDo p x d).topDown = d.topDown := by simp [capDoneDo]
@[simp] theorem adcLaneCtl_topDown : (adcLaneCtl p near w d).topDown = d.topDown := by simp [adcLaneCtl]
@[simp] theorem dacLaneCtl_topDown : (dacLaneCtl p near w d).topDown = d.topDown := by simp [dacLaneCtl]
@[simp] theorem Dev.lcalRequest_topDown : (d.lcalRequest p cause prio).topDown = d.topDown := by simp [Dev.lcalRequest]
@[simp] theorem Dev.lcalStale_topDown : (d.lcalStale p).topDown = d.topDown := (rfl)
@[simp] theorem Dev.lcalTrigger_topDown (en : Option Nat) : (d.lcalTrigger p cause prio en).topDown = d.topDown := by
  simp [Dev.lcalTrigger]
@[simp] theorem lcalTempDo_topDown (temp : Nat) : (lcalTempDo p lane temp d).topDown = d.topDown := by simp [lcalTempDo]
@[simp] theorem lcalLoadDo_topDown (power : Nat) : (lcalLoadDo p power d).topDown = d.topDown := by simp [lcalLoadDo]
@[simp] theorem lcalAgeDo_topDown : (lcalAgeDo p d).topDown = d.topDown := by simp [lcalAgeDo]
@[simp] theorem lcalCtlWrite_topDown : (lcalCtlWrite p w d).topDown = d.topDown := by simp [lcalCtlWrite]
@[simp] theorem Dev.lcalDip_topDown : (d.lcalDip p).topDown = d.topDown := by simp [Dev.lcalDip]
@[simp] theorem Dev.lcalState_topDown (st : Nat) : (d.lcalState p st).topDown = d.topDown := (rfl)
@[simp] theorem Dev.capSwap_topDown : (d.capSwap p).topDown = d.topDown := by simp [Dev.capSwap]
@[simp] theorem Dev.roundOpen_topDown : (d.roundOpen p elig).topDown = d.topDown := by simp [Dev.roundOpen]
@[simp] theorem Dev.passBegin_topDown : (d.passBegin p cause prio).topDown = d.topDown := (rfl)
@[simp] theorem Dev.passCut_topDown : (d.passCut p).topDown = d.topDown := (rfl)

@[simp] theorem passStartDo_topDown : (passStartDo p elig d).topDown = d.topDown := by
  simp only [passStartDo, Dev.lineDo]
  (repeat' split) <;> simp

@[simp] theorem Dev.sliceOutcome_topDown (k : Nat) : (d.sliceOutcome p k agree res sel).topDown = d.topDown := by
  simp [Dev.sliceOutcome]
@[simp] theorem Dev.subOutcome_topDown : (d.subOutcome p lane u agree res sel).topDown = d.topDown := by simp [Dev.subOutcome]

@[simp] theorem measEnd_topDown (dac : Bool) (lane : Fin 4) (m : Meas) :
    (measEnd p dac lane u m res sel d).topDown = d.topDown := by
  simp only [measEnd, Dev.lineDo]
  (repeat' split) <;> simp

@[simp] theorem Dev.roundClose_topDown : (d.roundClose p).topDown = d.topDown := by simp [Dev.roundClose]
@[simp] theorem Dev.roundAbort_topDown : (d.roundAbort p).topDown = d.topDown := by simp [Dev.roundAbort]
@[simp] theorem Dev.dacIdle_topDown : (d.dacIdle p).topDown = d.topDown := (rfl)
@[simp] theorem Dev.passEnd_topDown : (d.passEnd p).topDown = d.topDown := (rfl)
@[simp] theorem Dev.passNext_topDown : (d.passNext p).topDown = d.topDown := by simp [Dev.passNext]
@[simp] theorem roundEndDo_topDown : (roundEndDo p elig d).topDown = d.topDown := by simp [roundEndDo]
@[simp] theorem prioLateDo_topDown : (prioLateDo p d).topDown = d.topDown := by simp [prioLateDo]
@[simp] theorem Dev.dacTrimApply_topDown : (d.dacTrimApply p).topDown = d.topDown := (rfl)
@[simp] theorem Dev.lcalLast_topDown : (d.lcalLast p).topDown = d.topDown := by simp [Dev.lcalLast]
@[simp] theorem Dev.lcalRate_topDown : (d.lcalRate p).topDown = d.topDown := by simp [Dev.lcalRate]
@[simp] theorem Dev.lcalAbandon_topDown : (d.lcalAbandon p).topDown = d.topDown := by simp [Dev.lcalAbandon]

end Conv

/-! ### Receive equalisation -/

section Eq

variable (d : Dev) (p : Port) (s : Fin 8) (w : Word)

@[simp] theorem Dev.cdcApply_topDown (v : Int) : (d.cdcApply p v).topDown = d.topDown := by simp [Dev.cdcApply]
@[simp] theorem Dev.srchUpd_topDown (r : Option Search) : (d.srchUpd p r).topDown = d.topDown := (rfl)
@[simp] theorem Dev.srchLoad_topDown (c : Int) : (d.srchLoad p c).topDown = d.topDown := (rfl)

@[simp] theorem Dev.srchStart_topDown (no : Nat) : (d.srchStart p no).topDown = d.topDown := by
  simp only [Dev.srchStart]
  (repeat' split) <;> simp

@[simp] theorem Dev.srchDrop_topDown : (d.srchDrop p).topDown = d.topDown := (rfl)

@[simp] theorem Dev.srchBlock_topDown (tones : List (Bool × Nat)) : (d.srchBlock p tones).topDown = d.topDown := by
  simp only [Dev.srchBlock]
  (repeat' split) <;> simp

@[simp] theorem srchStartWrite_topDown : (srchStartWrite p w d).topDown = d.topDown := by simp [srchStartWrite]

@[simp] theorem Dev.srchEnd_topDown (r : Search) : (d.srchEnd p r).topDown = d.topDown := by
  simp only [Dev.srchEnd]
  (repeat' split) <;> simp

@[simp] theorem srchRetryDo_topDown : (srchRetryDo p d).topDown = d.topDown := by simp [srchRetryDo]
@[simp] theorem coefReadyDo_topDown : (coefReadyDo p d).topDown = d.topDown := by simp [coefReadyDo]
@[simp] theorem Dev.coefBlock_topDown : (d.coefBlock p).topDown = d.topDown := by simp [Dev.coefBlock]
@[simp] theorem Dev.cdcTrack_topDown (est : Int) : (d.cdcTrack p est).topDown = d.topDown := by simp [Dev.cdcTrack]
@[simp] theorem Dev.cdcMode_topDown : (d.cdcMode p).topDown = d.topDown := by simp [Dev.cdcMode]
@[simp] theorem Dev.cdcTake_topDown : (d.cdcTake p).topDown = d.topDown := by simp [Dev.cdcTake]
@[simp] theorem Dev.eqUpd_topDown (f : EqState → EqState) : (d.eqUpd p f).topDown = d.topDown := (rfl)
@[simp] theorem Dev.eqEnter_topDown (st : Nat) : (d.eqEnter p s st).topDown = d.topDown := by simp [Dev.eqEnter]
@[simp] theorem Dev.tapsSet_topDown (l : List (Nat × Nat × Nat)) : (d.tapsSet p s l).topDown = d.topDown := (rfl)
@[simp] theorem Dev.eqBlind_topDown (seed : Nat) : (d.eqBlind p s seed).topDown = d.topDown := by simp [Dev.eqBlind]
@[simp] theorem Dev.eqInit_topDown : (d.eqInit p s).topDown = d.topDown := by simp [Dev.eqInit]
@[simp] theorem Dev.eqAlign_topDown : (d.eqAlign p s).topDown = d.topDown := by simp [Dev.eqAlign]
@[simp] theorem Dev.eqLost_topDown : (d.eqLost p s).topDown = d.topDown := by simp [Dev.eqLost]
@[simp] theorem mimoWindowDo_topDown (var xcorr : Nat) : (mimoWindowDo p s var xcorr d).topDown = d.topDown := by
  simp [mimoWindowDo]
@[simp] theorem seedTimeoutDo_topDown : (seedTimeoutDo p s d).topDown = d.topDown := by simp [seedTimeoutDo]
@[simp] theorem pilotDoneDo_topDown : (pilotDoneDo p s d).topDown = d.topDown := by simp [pilotDoneDo]
@[simp] theorem holdTimeoutDo_topDown : (holdTimeoutDo p s d).topDown = d.topDown := by simp [holdTimeoutDo]
@[simp] theorem freezeWrite_topDown : (freezeWrite p w d).topDown = d.topDown := by simp [freezeWrite]
@[simp] theorem reinitWrite_topDown : (reinitWrite p w d).topDown = d.topDown := by simp [reinitWrite]
@[simp] theorem Dev.eqRestart_topDown (off : Bool) : (d.eqRestart p off).topDown = d.topDown := by simp [Dev.eqRestart]
@[simp] theorem Dev.eqFrame_topDown : (d.eqFrame p).topDown = d.topDown := by simp [Dev.eqFrame]
@[simp] theorem Dev.tapsLive_topDown : (d.tapsLive p).topDown = d.topDown := by simp [Dev.tapsLive]
@[simp] theorem tapUpdateDo_topDown (grads : List (Bool × List (Fin 128 × Int × Int))) :
    (tapUpdateDo p s grads d).topDown = d.topDown := by simp [tapUpdateDo]
@[simp] theorem snapWrite_topDown : (snapWrite p s d).topDown = d.topDown := by simp [snapWrite]
@[simp] theorem Dev.tapsProfile_topDown : (d.tapsProfile p).topDown = d.topDown := (rfl)
@[simp] theorem Dev.nlcStatus_topDown : (d.nlcStatus p).topDown = d.topDown := by simp [Dev.nlcStatus]
@[simp] theorem Dev.nlcTake_topDown (was : Bool) : (d.nlcTake p was).topDown = d.topDown := by simp [Dev.nlcTake]
@[simp] theorem Dev.tripPut_topDown (w mask data req : Nat) : (d.tripPut p w mask data req).topDown = d.topDown := by
  simp [Dev.tripPut]
@[simp] theorem tripWrite_topDown (woff : Nat) : (tripWrite p woff w d).topDown = d.topDown := by simp [tripWrite]
@[simp] theorem tblOpenDo_topDown : (tblOpenDo p d).topDown = d.topDown := by simp [tblOpenDo]
@[simp] theorem sumStartDo_topDown : (sumStartDo p d).topDown = d.topDown := by simp [sumStartDo]
@[simp] theorem sumDoneDo_topDown : (sumDoneDo p d).topDown = d.topDown := by simp [sumDoneDo]
@[simp] theorem tblEccDo_topDown (e : Nat) : (tblEccDo p e d).topDown = d.topDown := by simp [tblEccDo]

end Eq

/-! ### Carrier and timing recovery -/

section Crv

variable (d : Dev) (p : Port) (s : Fin 8) (est fine : Int) (clk : List Int) (pol : Bool) (frame n phase : Nat)

@[simp] theorem Dev.crUnlock_topDown : (d.crUnlock p s).topDown = d.topDown := by simp [Dev.crUnlock]
@[simp] theorem Dev.foLost_topDown : (d.foLost p).topDown = d.topDown := by simp [Dev.foLost]
@[simp] theorem Dev.timDrop_topDown : (d.timDrop p).topDown = d.topDown := by simp [Dev.timDrop]
@[simp] theorem Dev.loopsReset_topDown : (d.loopsReset p).topDown = d.topDown := (rfl)
@[simp] theorem Dev.acqStart_topDown : (d.acqStart p).topDown = d.topDown := by simp [Dev.acqStart]
@[simp] theorem Dev.acqRestart_topDown : (d.acqRestart p).topDown = d.topDown := by simp [Dev.acqRestart]
@[simp] theorem Dev.acqFail_topDown : (d.acqFail p).topDown = d.topDown := by simp [Dev.acqFail]
@[simp] theorem Dev.adcStarted_topDown : (d.adcStarted p).topDown = d.topDown := by simp [Dev.adcStarted]
@[simp] theorem Dev.portStart_topDown : (d.portStart p).topDown = d.topDown := by simp [Dev.portStart]
@[simp] theorem Dev.acqAligned_topDown : (d.acqAligned p).topDown = d.topDown := by simp [Dev.acqAligned]
@[simp] theorem Dev.foAnchorLost_topDown : (d.foAnchorLost p).topDown = d.topDown := by simp [Dev.foAnchorLost]
@[simp] theorem reacqDo_topDown : (reacqDo p d).topDown = d.topDown := by simp [reacqDo]
@[simp] theorem coarseDone_topDown : (coarseDone p est d).topDown = d.topDown := by simp [coarseDone]

@[simp] theorem srchDoneDo_topDown : (srchDoneDo p d).topDown = d.topDown := by
  simp only [srchDoneDo, Dev.lineDo]
  (repeat' split) <;> simp

@[simp] theorem timLockDo_topDown : (timLockDo p d).topDown = d.topDown := by simp [timLockDo]
@[simp] theorem timLostDo_topDown : (timLostDo p d).topDown = d.topDown := by simp [timLostDo]
@[simp] theorem acqTimeoutDo_topDown : (acqTimeoutDo p d).topDown = d.topDown := by simp [acqTimeoutDo]
@[simp] theorem acqRetryDo_topDown : (acqRetryDo p d).topDown = d.topDown := by simp [acqRetryDo]
@[simp] theorem Dev.foBlock_topDown : (d.foBlock p fine).topDown = d.topDown := by simp [Dev.foBlock]
@[simp] theorem Dev.timBlock_topDown : (d.timBlock p clk).topDown = d.topDown := by simp [Dev.timBlock]
@[simp] theorem blockBoundary_topDown (tones : List (Bool × Nat)) :
    (blockBoundary p fine est tones clk d).topDown = d.topDown := by simp [blockBoundary]
@[simp] theorem Dev.slip_topDown : (d.slip p s pol frame n phase).topDown = d.topDown := by simp [Dev.slip]
@[simp] theorem Dev.crLock_topDown : (d.crLock p s).topDown = d.topDown := by simp only [Dev.crLock]; split <;> simp
@[simp] theorem pilotDo_topDown (ok wrong : Bool) (drift : Nat) :
    (pilotDo p s pol frame n phase ok wrong drift d).topDown = d.topDown := by simp [pilotDo]
@[simp] theorem Dev.subcLost_topDown : (d.subcLost p s).topDown = d.topDown := by simp [Dev.subcLost]

end Crv

/-! ### Transmit shaping -/

section Txs

variable (d : Dev) (p : Port) (w : Word)

@[simp] theorem Dev.follow_topDown (pg : Nat) (f : Fld) (b : Bool) (up down : Option Nat) :
    (d.follow pg f b up down).topDown = d.topDown := by simp only [Dev.follow]; (repeat' split) <;> simp
@[simp] theorem Dev.rateCheck_topDown : (d.rateCheck p).topDown = d.topDown := by simp [Dev.rateCheck]
@[simp] theorem Dev.patApply_topDown : (d.patApply p).topDown = d.topDown := by simp [Dev.patApply]
@[simp] theorem Dev.clipLane_topDown (lane n : Nat) : (d.clipLane p lane n).topDown = d.topDown := by simp [Dev.clipLane]
@[simp] theorem Dev.txsFrame_topDown (frame : Nat) : (d.txsFrame p frame).topDown = d.topDown := by simp [Dev.txsFrame]
@[simp] theorem Dev.pdNote_topDown (l : List Nat) : (d.pdNote p l).topDown = d.topDown := by simp [Dev.pdNote]
@[simp] theorem pdWrite_topDown (i : Nat) : (pdWrite p i w d).topDown = d.topDown := by simp [pdWrite]
@[simp] theorem testWrite_topDown : (testWrite p w d).topDown = d.topDown := by simp [testWrite]

end Txs

/-! ### Forward error correction -/

section Fec

variable (d : Dev) (p : Port) (frame : Nat)

@[simp] theorem Dev.fecUpd_topDown (f : FecState → FecState) : (d.fecUpd p f).topDown = d.topDown := (rfl)
@[simp] theorem Dev.decStop_topDown : (d.decStop p).topDown = d.topDown := by simp [Dev.decStop]
@[simp] theorem Dev.rxProfileTake_topDown : (d.rxProfileTake p).topDown = d.topDown := by simp [Dev.rxProfileTake]
@[simp] theorem Dev.poolPeak_topDown : (d.poolPeak p).topDown = d.topDown := (rfl)
@[simp] theorem Dev.uncUnit_topDown (word : Nat) : (d.uncUnit p frame word).topDown = d.topDown := (rfl)

@[simp] theorem Dev.innerCount_topDown (conv : Bool) (bin iters : Nat) (corr : List (Nat × Nat))
    (sign : List (Nat × Nat × Nat)) : (d.innerCount p conv bin iters corr sign).topDown = d.topDown := by
  simp [Dev.innerCount]

@[simp] theorem Dev.outerCount_topDown (l : List (Option Nat)) : (d.outerCount p frame l).topDown = d.topDown := by
  unfold Dev.outerCount
  refine foldl_topDown _ _ _ fun d i => ?_
  dsimp only
  split <;> simp

@[simp] theorem peakClrDo_topDown : (peakClrDo p d).topDown = d.topDown := by simp [peakClrDo]
@[simp] theorem injWrite_topDown (w : Word) : (injWrite p w d).topDown = d.topDown := by simp [injWrite]
@[simp] theorem Dev.ratio32_topDown (num den : Nat) : (d.ratio32 num den).2.topDown = d.topDown := by simp [Dev.ratio32]
@[simp] theorem Dev.monSub_topDown (s : Fin 8) (m : Mon) : (d.monSub p s m).topDown = d.topDown := by simp [Dev.monSub]
@[simp] theorem Dev.monSeq_topDown (valid : Bool) : (d.monSeq p valid).topDown = d.topDown := (rfl)
@[simp] theorem Dev.fecLatch_topDown : (d.fecLatch p).topDown = d.topDown := by simp [Dev.fecLatch]
@[simp] theorem Dev.portLatch_topDown : (d.portLatch p).topDown = d.topDown := by simp [Dev.portLatch]
@[simp] theorem Dev.llrLatch_topDown : (d.llrLatch p).topDown = d.topDown := by simp [Dev.llrLatch]
@[simp] theorem Dev.monFrame_topDown : (d.monFrame p).topDown = d.topDown := (rfl)
@[simp] theorem monLatchDo_topDown (m : List (Fin 8 × Mon)) : (monLatchDo p m d).topDown = d.topDown := by simp [monLatchDo]
@[simp] theorem Dev.monAbort_topDown : (d.monAbort p).topDown = d.topDown := by simp [Dev.monAbort]
@[simp] theorem Dev.scaleTake_topDown : (d.scaleTake p).topDown = d.topDown := by simp [Dev.scaleTake]

end Fec

/-! ### The decoder and the encoder -/

section Decoder

variable (d : Dev) (p : Port) (blocks : List RxBlock) (n : Nat) (parity : List Nat)

@[simp] theorem Dev.rxBlock_topDown (b : RxBlock) : (d.rxBlock p b).topDown = d.topDown := (rfl)
@[simp] theorem Dev.rxBlocks_topDown (l : List RxBlock) : (d.rxBlocks p l).topDown = d.topDown := by simp [Dev.rxBlocks]
@[simp] theorem Dev.rxUnits_topDown : (d.rxUnits p).topDown = d.topDown := (rfl)
@[simp] theorem Dev.outerGroup_topDown (c : Codeword) (words : List (List Bool)) :
    (d.outerGroup p c words).topDown = d.topDown := by simp [Dev.outerGroup]
@[simp] theorem Dev.holdEnd_topDown : (d.holdEnd p).topDown = d.topDown := by simp [Dev.holdEnd]

@[simp] theorem Dev.llrParity_topDown (trestle : Bool) (groups : List Nat) :
    (d.llrParity p trestle groups).topDown = d.topDown := by
  unfold Dev.llrParity
  split <;> simp

@[simp] theorem cwRelease_topDown : (cwRelease p blocks n parity d).topDown = d.topDown := by
  simp only [cwRelease, Dev.lineDo]
  (repeat' split) <;> simp

@[simp] theorem trRelease_topDown : (trRelease p blocks parity d).topDown = d.topDown := by
  simp only [trRelease, Dev.lineDo]
  (repeat' split) <;> simp

@[simp] theorem Dev.injectWord_topDown (w : List Bool) : (d.injectWord p w).2.topDown = d.topDown := by simp [Dev.injectWord]
@[simp] theorem Dev.sendUnit_topDown : (d.sendUnit p).topDown = d.topDown := by simp [Dev.sendUnit]

@[simp] theorem Dev.sendUnits_topDown (n : Nat) : (d.sendUnits p n).topDown = d.topDown := by
  induction n generalizing d with
  | zero => rfl
  | succ n ih => simp [Dev.sendUnits, ih]

@[simp] theorem Dev.sendDeck_topDown (deck : Nat) : (d.sendDeck p n deck).topDown = d.topDown := by
  simp only [Dev.sendDeck, Dev.when_topDown, Dev.emit_topDown, Dev.sendUnits_topDown, Dev.fecUpd_topDown, ite_self]

end Decoder

/-! ### Client lanes -/

section Cli

variable (d : Dev) (l c : Fin 32) (w : Word)

@[simp] theorem Dev.egError_topDown : (d.egError c).topDown = d.topDown := (rfl)
@[simp] theorem Dev.egMissing_topDown : (d.egMissing c).topDown = d.topDown := by simp [Dev.egMissing]
@[simp] theorem Dev.launchCut_topDown : (d.launchCut c).topDown = d.topDown := (rfl)
@[simp] theorem Dev.replCheck_topDown : (d.replCheck c).topDown = d.topDown := by simp [Dev.replCheck]
@[simp] theorem Dev.ingress_topDown : (d.ingress c).topDown = d.topDown := by simp [Dev.ingress]
@[simp] theorem Dev.cliCheck_topDown : d.cliCheck.topDown = d.topDown := by simp [Dev.cliCheck]
@[simp] theorem Dev.rate3Check_topDown : d.rate3Check.topDown = d.topDown := (rfl)
@[simp] theorem Dev.laneClients_topDown (down : Bool) : (d.laneClients l down).topDown = d.topDown := by simp [Dev.laneClients]
@[simp] theorem Dev.laneSet_topDown (sig cdr done : Bool) : (d.laneSet l sig cdr done).topDown = d.topDown := by
  simp [Dev.laneSet]
@[simp] theorem sigDetDo_topDown : (sigDetDo l d).topDown = d.topDown := by simp [sigDetDo]
@[simp] theorem adaptDoneDo_topDown (snr : Nat) : (adaptDoneDo l snr d).topDown = d.topDown := by simp [adaptDoneDo]
@[simp] theorem laneDownDo_topDown (signal : Bool) : (laneDownDo l signal d).topDown = d.topDown := by simp [laneDownDo]
@[simp] theorem Dev.laneShow_topDown : (d.laneShow l).topDown = d.topDown := (rfl)
@[simp] theorem Dev.prbsRun_topDown : (d.prbsRun l).topDown = d.topDown := by simp [Dev.prbsRun]
@[simp] theorem hlnPrbsWrite_topDown : (hlnPrbsWrite l w d).topDown = d.topDown := by simp [hlnPrbsWrite]
@[simp] theorem hlnCtlWrite_topDown : (hlnCtlWrite l w d).topDown = d.topDown := by simp [hlnCtlWrite]
@[simp] theorem txffeWrite_topDown (one : Bool) : (txffeWrite l one w d).topDown = d.topDown := by simp [txffeWrite]
@[simp] theorem cliCfgWriteDo_topDown : (cliCfgWriteDo c w d).topDown = d.topDown := by simp [cliCfgWriteDo]

@[simp] theorem rsCodewordDo_topDown (corr : Option Nat) (frames : Nat) : (rsCodewordDo c corr frames d).topDown = d.topDown := by
  simp only [rsCodewordDo]
  (repeat' split) <;> simp

@[simp] theorem Dev.rsTaken_topDown (n : Nat) : (d.rsTaken c n).topDown = d.topDown := (rfl)
@[simp] theorem pcsLock_topDown (lock : Bool) (skew : Nat) : (pcsLock c lock skew d).topDown = d.topDown := by simp [pcsLock]

end Cli

/-! ### Line encryption -/

section Enc

variable (d old : Dev) (c : Fin 32) (tx ghash : Bool) (w : Word) (miss : List (Nat × Nat)) (k pipe h : Nat) (body : List Nat)

@[simp] theorem Dev.encUpdS_topDown (f : EncState → EncState) : (d.encUpdS f).topDown = d.topDown := (rfl)
@[simp] theorem Dev.setEncTx_topDown (x : EncTx) : (d.setEncTx c x).topDown = d.topDown := (rfl)
@[simp] theorem Dev.setEncRx_topDown (x : EncRx) : (d.setEncRx c x).topDown = d.topDown := (rfl)
@[simp] theorem Dev.keysLast_topDown (slot op res gen : Nat) : (d.keysLast slot op res gen).topDown = d.topDown := (rfl)
@[simp] theorem Dev.setCap_topDown (b : Bool) : (d.setCap c tx b).topDown = d.topDown := by simp [Dev.setCap]

@[simp] theorem Dev.capHold_topDown (among : Fin 32 → Bool) : (d.capHold tx among).topDown = d.topDown := by
  unfold Dev.capHold
  simp only [Dev.when_topDown, Dev.ev_topDown, ite_self]
  exact foldl_fst_topDown _ _ _ fun st c => by split <;> simp

@[simp] theorem Dev.capFree_topDown (fresh : Fin 32 → Bool) : (d.capFree tx fresh).topDown = d.topDown := by simp [Dev.capFree]
@[simp] theorem Dev.heldEv_topDown (was now : Nat) : (d.heldEv was now).topDown = d.topDown := by simp [Dev.heldEv]
@[simp] theorem Dev.encStat_topDown : (d.encStat c).topDown = d.topDown := by simp [Dev.encStat]
@[simp] theorem Dev.encCheck_topDown : d.encCheck.topDown = d.topDown := by simp [Dev.encCheck]
@[simp] theorem Dev.pipeRetire_topDown : (d.pipeRetire tx pipe).topDown = d.topDown := by simp [Dev.pipeRetire]
@[simp] theorem Dev.pipeHit_topDown : (d.pipeHit tx pipe).topDown = d.topDown := by simp [Dev.pipeHit]
@[simp] theorem Dev.pipeHits_topDown : (d.pipeHits tx miss).1.topDown = d.topDown := by simp [Dev.pipeHits]
@[simp] theorem Dev.encLogAdd_topDown (x : EncLog) : (d.encLogAdd x).topDown = d.topDown := by simp [Dev.encLogAdd]
@[simp] theorem Dev.encFail_topDown (kind span ctr : Nat) : (d.encFail c kind span ctr).topDown = d.topDown := by
  simp [Dev.encFail]
@[simp] theorem Dev.encPass_topDown : (d.encPass c).topDown = d.topDown := (rfl)
@[simp] theorem Dev.eraseSlot_topDown : (d.eraseSlot k).topDown = d.topDown := by simp [Dev.eraseSlot]
@[simp] theorem Dev.keyErase_topDown : (d.keyErase k).topDown = d.topDown := by simp [Dev.keyErase]
@[simp] theorem Dev.keyEraseAll_topDown : d.keyEraseAll.topDown = d.topDown := by simp [Dev.keyEraseAll]
@[simp] theorem Dev.keyInstall_topDown (tx rx : Nat) : (d.keyInstall k tx rx).1.topDown = d.topDown := by simp [Dev.keyInstall]
@[simp] theorem keysCmdWrite_topDown : (keysCmdWrite w d).topDown = d.topDown := by simp [keysCmdWrite]
@[simp] theorem Dev.injTake_topDown (dir : Nat) : (d.injTake dir).2.topDown = d.topDown := by simp [Dev.injTake]
@[simp] theorem encTxDo_topDown (data : List Bool) (miss : List Nat) : (encTxDo c data miss ghash d).topDown = d.topDown := by
  simp [encTxDo]
@[simp] theorem Dev.encHunt_topDown : (d.encHunt c).topDown = d.topDown := by simp [Dev.encHunt]
@[simp] theorem Dev.encLatchRx_topDown : (d.encLatchRx c).topDown = d.topDown := (rfl)
@[simp] theorem Dev.encVerdict_topDown (ok : Bool) : (d.encVerdict c ok).topDown = d.topDown := by simp [Dev.encVerdict]

@[simp] theorem Dev.encPlain_topDown (units : List Nat) : (d.encPlain c body units).topDown = d.topDown := by
  simp only [Dev.encPlain]
  split <;> simp

@[simp] theorem Dev.encBlockIn_topDown : (d.encBlockIn c h body miss ghash).topDown = d.topDown := by simp [Dev.encBlockIn]
@[simp] theorem encRxDo_topDown : (encRxDo c h body miss ghash d).topDown = d.topDown := by simp [encRxDo]
@[simp] theorem frameRelease_topDown (last : Option Nat) (more : Nat) : (frameRelease c last more d).topDown = d.topDown := by
  simp [frameRelease]
@[simp] theorem encCmdWrite_topDown : (encCmdWrite w d).topDown = d.topDown := by simp [encCmdWrite]
@[simp] theorem encTestWrite_topDown : (encTestWrite w d).topDown = d.topDown := by simp [encTestWrite]
@[simp] theorem encTribWriteDo_topDown (near : Bool × Bool) : (encTribWriteDo c near w d).topDown = d.topDown := by
  simp [encTribWriteDo]
@[simp] theorem Dev.encTxFresh_topDown : (d.encTxFresh c).topDown = d.topDown := (rfl)
@[simp] theorem Dev.encPortFresh_topDown (p : Port) : (d.encPortFresh p).topDown = d.topDown := by simp [Dev.encPortFresh]
@[simp] theorem Dev.encTakeSide_topDown : (d.encTakeSide old c tx).topDown = d.topDown := by simp [Dev.encTakeSide]
@[simp] theorem Dev.encTake_topDown : (d.encTake old tx).topDown = d.topDown := by simp [Dev.encTake]
@[simp] theorem Dev.capTake_topDown : (d.capTake old).topDown = d.topDown := by simp [Dev.capTake]

end Enc

/-! ### Section overhead and client mapping -/

section Map

variable (d : Dev) (p : Port) (c : Fin 32) (fill pos deck : Nat) (m : MapRx) (adj : Bool)

@[simp] theorem Dev.mapUpd_topDown (f : MapState → MapState) : (d.mapUpd p f).topDown = d.topDown := (rfl)
@[simp] theorem Dev.mapEv_topDown (c n : Nat) : (d.mapEv p c n).topDown = d.topDown := (rfl)
@[simp] theorem Dev.sdefUpd_topDown : (d.sdefUpd p).topDown = d.topDown := by simp [Dev.sdefUpd]
@[simp] theorem Dev.sohFrame_topDown : (d.sohFrame p).topDown = d.topDown := (rfl)

@[simp] theorem bipCompare_topDown : (bipCompare p d).topDown = d.topDown := by
  simp only [bipCompare, Dev.lineDo]
  (repeat' split) <;> simp

@[simp] theorem decStart_topDown : (decStart p d).topDown = d.topDown := by simp [decStart]
@[simp] theorem Dev.rxUpd_topDown (c : Nat) (f : MapRx → MapRx) : (d.rxUpd p c f).topDown = d.topDown := (rfl)
@[simp] theorem Dev.ejDrain_topDown : (d.ejDrain p c fill).topDown = d.topDown := by simp [Dev.ejDrain]
@[simp] theorem Dev.ejMarks_topDown : (d.ejMarks p c fill).topDown = d.topDown := by simp [Dev.ejMarks]
@[simp] theorem Dev.ejSet_topDown : (d.ejSet p c fill).topDown = d.topDown := by simp [Dev.ejSet]
@[simp] theorem Dev.ejAll_topDown : (d.ejAll p).topDown = d.topDown := by simp [Dev.ejAll]
@[simp] theorem Dev.ejEmpty_topDown : (d.ejEmpty p).topDown = d.topDown := (rfl)
@[simp] theorem Dev.ejRecentre_topDown (by_ : Nat) : (d.ejRecentre p c by_).topDown = d.topDown := by simp [Dev.ejRecentre]
@[simp] theorem mapCliWrite_topDown (near : Bool × Bool) (w : Word) : (mapCliWrite p c near w d).topDown = d.topDown := by
  simp [mapCliWrite]
@[simp] theorem ejUnfDo_topDown : (ejUnfDo p c d).topDown = d.topDown := by simp [ejUnfDo]
@[simp] theorem Dev.jointTake_topDown (joint : List Nat) (cn : Nat) : (d.jointTake joint cn).2.topDown = d.topDown := by
  simp [Dev.jointTake]
@[simp] theorem Dev.deckTxCli_topDown (offer : List Nat) : (d.deckTxCli p pos c offer deck).1.topDown = d.topDown := by
  simp [Dev.deckTxCli]
@[simp] theorem Dev.mapped_topDown (x : Ingress) : (d.mapped p c x).1.topDown = d.topDown := (rfl)
@[simp] theorem deckTxDo_topDown (offers : List (Nat × Ingress)) : (deckTxDo p offers d).topDown = d.topDown := by simp [deckTxDo]
@[simp] theorem Dev.jcLose_topDown : (d.jcLose p c).topDown = d.topDown := by simp [Dev.jcLose]
@[simp] theorem Dev.jcGain_topDown : (d.jcGain p c).topDown = d.topDown := by simp [Dev.jcGain]
@[simp] theorem Dev.rxJc_topDown (jc : Nat) : (d.rxJc p c jc m).1.topDown = d.topDown := by simp [Dev.rxJc]
@[simp] theorem Dev.rxTti_topDown : (d.rxTti p c m).1.topDown = d.topDown := by simp [Dev.rxTti]

@[simp] theorem Dev.rxMf_topDown (mf : Nat) : (d.rxMf p c pos mf m).1.topDown = d.topDown := by
  simp only [Dev.rxMf]
  (repeat' split) <;> simp

@[simp] theorem Dev.rxFresh_topDown : (d.rxFresh p c).topDown = d.topDown := by simp [Dev.rxFresh]
@[simp] theorem Dev.rxTable_topDown : (d.rxTable p).topDown = d.topDown := by simp [Dev.rxTable]
@[simp] theorem Dev.deckRxCli_topDown (marks : List (Nat × Bool)) (fill : Option Nat) :
    (d.deckRxCli p pos c deck marks fill).topDown = d.topDown := by unfold Dev.deckRxCli; split <;> simp

@[simp] theorem Dev.jointParity_topDown (c i : Nat) : (d.jointParity p c i).topDown = d.topDown := by
  unfold Dev.jointParity
  split <;> simp

@[simp] theorem deckRxDo_topDown (fills parity : List (Nat × Nat)) : (deckRxDo p fills parity d).topDown = d.topDown := by
  simp only [deckRxDo, Dev.lineDo]
  (repeat' split) <;> simp

@[simp] theorem Dev.usedUpd_topDown : (d.usedUpd p).topDown = d.topDown := (rfl)
@[simp] theorem Dev.txRestart_topDown (old : Dev) (all : Bool) : (d.txRestart old p all).topDown = d.topDown := by
  simp [Dev.txRestart]
@[simp] theorem Dev.rxRestart_topDown : (d.rxRestart p).topDown = d.topDown := by simp [Dev.rxRestart]
@[simp] theorem Dev.slotConflict_topDown : (d.slotConflict p).topDown = d.topDown := by simp [Dev.slotConflict]
@[simp] theorem Dev.launchBad_topDown : (d.launchBad c).topDown = d.topDown := (rfl)
@[simp] theorem Dev.egIdle_topDown : (d.egIdle c fill adj).topDown = d.topDown := by simp [Dev.egIdle]
@[simp] theorem egressDo_topDown (kind : Nat) (marked par : Bool) :
    (egressDo c kind marked fill adj par d).topDown = d.topDown := by simp [egressDo]

end Map

/-! ### The keystone -/

section Ks

variable (d : Dev) (p : Port) (reason r took n : Nat) (m : List Nat) (core agreed : Bool) (w : Word) (x : KsExch)

@[simp] theorem Dev.ksUpd_topDown (f : Keystone → Keystone) : (d.ksUpd f).topDown = d.topDown := (rfl)
@[simp] theorem Dev.ksRefuse_topDown : d.ksRefuse.topDown = d.topDown := (rfl)
@[simp] theorem Dev.mbGo_topDown : d.mbGo.topDown = d.topDown := by simp [Dev.mbGo]
@[simp] theorem mbCtlWrite_topDown : (mbCtlWrite core w d).topDown = d.topDown := by simp [mbCtlWrite]
@[simp] theorem mbWrite_topDown (off : Nat) : (mbWrite core off w d).topDown = d.topDown := by simp [mbWrite]
@[simp] theorem Dev.ksResult_topDown (rsp : List Nat) : (d.ksResult r rsp).topDown = d.topDown := (rfl)

@[simp] theorem Dev.ksOp_topDown (op : Nat) (lenOk : Nat → Bool) (noDebug noTamper : Bool) (f : List Nat → Dev → Dev)
    (h : ∀ l d, (f l d).topDown = d.topDown) : (d.ksOp op lenOk noDebug noTamper f).topDown = d.topDown := by
  simp [Dev.ksOp, h]

@[simp] theorem mbDoneDo_topDown : (mbDoneDo d).topDown = d.topDown := by simp only [mbDoneDo]; (repeat' split) <;> simp
@[simp] theorem opInfo_topDown : (opInfo d).topDown = d.topDown := by simp [opInfo]

@[simp] theorem opGetCerts_topDown : (opGetCerts d).topDown = d.topDown := by
  apply Dev.ksOp_topDown
  intro b d
  split <;> simp

@[simp] theorem opQuote_topDown : (opQuote d).topDown = d.topDown := by simp [opQuote]
@[simp] theorem Dev.otpView_topDown : d.otpView.topDown = d.topDown := (rfl)
@[simp] theorem opSvnCommit_topDown : (opSvnCommit took d).topDown = d.topDown := by simp [opSvnCommit]
@[simp] theorem opOwnerBurn_topDown : (opOwnerBurn took d).topDown = d.topDown := by simp [opOwnerBurn]
@[simp] theorem opAnchorSet_topDown : (opAnchorSet d).topDown = d.topDown := by simp [opAnchorSet]
@[simp] theorem Dev.ctlFail_topDown : d.ctlFail.topDown = d.topDown := (rfl)

@[simp] theorem controlRecordDo_topDown (r : List Nat) : (controlRecordDo p r agreed d).topDown = d.topDown := by
  simp only [controlRecordDo]
  (repeat' split) <;> simp

@[simp] theorem Dev.kaState_topDown (s : Nat) : (d.kaState p s).topDown = d.topDown := (rfl)
@[simp] theorem Dev.setExch_topDown : (d.setExch p x).topDown = d.topDown := (rfl)
@[simp] theorem Dev.dropExch_topDown : (d.dropExch p).topDown = d.topDown := (rfl)

@[simp] theorem Dev.kaFail_topDown (tell : Bool) : (d.kaFail p reason tell).topDown = d.topDown := by
  unfold Dev.kaFail
  split <;> simp

@[simp] theorem Dev.kaLinkDown_topDown : (d.kaLinkDown p).topDown = d.topDown := by simp [Dev.kaLinkDown]
@[simp] theorem opKaStart_topDown : (opKaStart d).topDown = d.topDown := by simp [opKaStart]
@[simp] theorem Dev.kaAnswer_topDown : (d.kaAnswer p m).topDown = d.topDown := by simp [Dev.kaAnswer]
@[simp] theorem kaInitDo_topDown : (kaInitDo p m d).topDown = d.topDown := by simp only [kaInitDo]; (repeat' split) <;> simp
@[simp] theorem kaRespDo_topDown : (kaRespDo p m d).topDown = d.topDown := by unfold kaRespDo; split <;> simp
@[simp] theorem Dev.kaEstablish_topDown (ctr : Nat) : (d.kaEstablish p x ctr).topDown = d.topDown := (rfl)
@[simp] theorem kaFinDo_topDown : (kaFinDo p m agreed d).topDown = d.topDown := by simp only [kaFinDo]; (repeat' split) <;> simp

@[simp] theorem kaAbortDo_topDown (sess : Nat) : (kaAbortDo p reason sess d).topDown = d.topDown := by
  unfold kaAbortDo
  split <;> simp

@[simp] theorem kaResend_topDown : (kaResend p d).topDown = d.topDown := by unfold kaResend; split <;> simp
@[simp] theorem kaFinLate_topDown : (kaFinLate p d).topDown = d.topDown := by unfold kaFinLate; split <;> simp

@[simp] theorem opKeyInstall_topDown : (opKeyInstall d).topDown = d.topDown := by
  apply Dev.ksOp_topDown
  intro b d
  dsimp only
  repeat' split
  all_goals simp

@[simp] theorem opDebugChallenge_topDown : (opDebugChallenge d).topDown = d.topDown := by simp [opDebugChallenge]
@[simp] theorem Dev.chalDrop_topDown : d.chalDrop.topDown = d.topDown := (rfl)
@[simp] theorem Dev.hgKeyEnd_topDown (ok : Bool) : (d.hgKeyEnd n ok reason).topDown = d.topDown := by simp [Dev.hgKeyEnd]
@[simp] theorem Dev.hgKeyDrop_topDown : (d.hgKeyDrop n reason).topDown = d.topDown := by simp [Dev.hgKeyDrop]

@[simp] theorem Dev.ksErase_topDown : (d.ksErase reason).topDown = d.topDown := by
  simp only [Dev.ksErase]
  rw [foldl_topDown _ _ _ fun d p => by split <;> simp]
  simp

@[simp] theorem opDebugUnlock_topDown : (opDebugUnlock d).topDown = d.topDown := by
  apply Dev.ksOp_topDown
  intro b d
  dsimp only
  repeat' split
  all_goals simp

@[simp] theorem Dev.ksAbortOp_topDown : (d.ksAbortOp r).topDown = d.topDown := by simp [Dev.ksAbortOp]
@[simp] theorem tamperDo_topDown (m : Nat) (lasts : Bool) : (tamperDo m lasts d).topDown = d.topDown := by simp [tamperDo]
@[simp] theorem zeroiseDo_topDown (m : Nat) : (zeroiseDo m d).topDown = d.topDown := by simp [zeroiseDo]
@[simp] theorem Dev.tamperEnd_topDown : d.tamperEnd.topDown = d.topDown := by simp [Dev.tamperEnd]
@[simp] theorem ksCtlWrite_topDown : (ksCtlWrite core w d).topDown = d.topDown := by simp [ksCtlWrite]
@[simp] theorem tamperAbsentDo_topDown : (tamperAbsentDo d).topDown = d.topDown := by simp [tamperAbsentDo]
@[simp] theorem firewallDo_topDown (agent : Nat) : (firewallDo agent d).topDown = d.topDown := (rfl)
@[simp] theorem claimExpiredDo_topDown : (claimExpiredDo d).topDown = d.topDown := by simp [claimExpiredDo]
@[simp] theorem Dev.bootLoad_topDown (x : KsImage) : (d.bootLoad x).topDown = d.topDown := by simp [Dev.bootLoad]
@[simp] theorem Dev.bootRun_topDown (x : KsImage) (src : Nat) : (d.bootRun x src).topDown = d.topDown := (rfl)
@[simp] theorem Dev.bootStop_topDown (st : Nat) : (d.bootStop st reason).topDown = d.topDown := (rfl)
@[simp] theorem Dev.slotFail_topDown (push : Bool) : (d.slotFail push reason).topDown = d.topDown := by simp [Dev.slotFail]
@[simp] theorem Dev.bootPatch_topDown (r : Option (List Nat)) : (d.bootPatch r).topDown = d.topDown := by simp [Dev.bootPatch]
@[simp] theorem Dev.pushed_topDown : d.pushed.1.topDown = d.topDown := by simp [Dev.pushed]
@[simp] theorem Dev.bootSelect_topDown : d.bootSelect.topDown = d.topDown := by simp [Dev.bootSelect]
@[simp] theorem Dev.bootSlot_topDown (r : Option (List Nat)) : (d.bootSlot r).topDown = d.topDown := by simp [Dev.bootSlot]
@[simp] theorem Dev.bootVerify_topDown : d.bootVerify.topDown = d.topDown := by unfold Dev.bootVerify; split <;> simp
@[simp] theorem Dev.boot_topDown (selftest : Bool) (patch certs a b : Option (List Nat)) :
    (d.boot selftest patch certs a b).topDown = d.topDown := by simp [Dev.boot]

end Ks

/-! ### Reference clocks -/

section Clk

variable (d : Dev) (r phase ssm essm : Nat) (w : Word) (p : Port)

@[simp] theorem Dev.clkRanks_topDown : d.clkRanks.topDown = d.topDown := by simp [Dev.clkRanks]
@[simp] theorem Dev.clkDisputes_topDown : d.clkDisputes.topDown = d.topDown := by simp [Dev.clkDisputes]
@[simp] theorem Dev.clkUnmark_topDown : d.clkUnmark.topDown = d.topDown := by simp [Dev.clkUnmark]
@[simp] theorem Dev.clkCands_topDown : d.clkCands.topDown = d.topDown := by simp [Dev.clkCands]
@[simp] theorem Dev.ppsCut_topDown : d.ppsCut.topDown = d.topDown := by simp [Dev.ppsCut]
@[simp] theorem Dev.freeOut_topDown : d.freeOut.topDown = d.topDown := by simp [Dev.freeOut]
@[simp] theorem Dev.clkOuts_topDown : d.clkOuts.topDown = d.topDown := by simp [Dev.clkOuts]
@[simp] theorem Dev.dpllEnter_topDown (st : Nat) : (d.dpllEnter st).topDown = d.topDown := by simp [Dev.dpllEnter]
@[simp] theorem Dev.dpllAcq_topDown : d.dpllAcq.topDown = d.topDown := by simp [Dev.dpllAcq]
@[simp] theorem Dev.holdover_topDown : d.holdover.topDown = d.topDown := by simp [Dev.holdover]
@[simp] theorem Dev.dpllHold_topDown : d.dpllHold.topDown = d.topDown := (rfl)
@[simp] theorem Dev.clkNone_topDown : d.clkNone.topDown = d.topDown := by simp [Dev.clkNone]
@[simp] theorem Dev.clkTo_topDown (b : Nat) (forced : Bool) : (d.clkTo b forced).topDown = d.topDown := by simp [Dev.clkTo]
@[simp] theorem Dev.clkForce_topDown : d.clkForce.topDown = d.topDown := by simp [Dev.clkForce]
@[simp] theorem Dev.clkSelect_topDown : d.clkSelect.topDown = d.topDown := by simp only [Dev.clkSelect]; (repeat' split) <;> simp
@[simp] theorem Dev.clkShow_topDown : d.clkShow.topDown = d.topDown := (rfl)
@[simp] theorem Dev.clkEval_topDown (select : Bool) : (d.clkEval select).topDown = d.topDown := by simp [Dev.clkEval]
@[simp] theorem Dev.refDisq_topDown (reason dest : Nat) : (d.refDisq r reason dest).topDown = d.topDown := by simp [Dev.refDisq]
@[simp] theorem Dev.refLoss_topDown : (d.refLoss r).topDown = d.topDown := by simp [Dev.refLoss]
@[simp] theorem refLosDo_topDown : (refLosDo r d).topDown = d.topDown := by simp [refLosDo]
@[simp] theorem Dev.wtrEnd_topDown : (d.wtrEnd r).topDown = d.topDown := by simp [Dev.wtrEnd]
@[simp] theorem freqSubDo_topDown (f : Nat × Nat) : (freqSubDo r f d).topDown = d.topDown := by simp [freqSubDo]
@[simp] theorem Dev.goodWindow_topDown : (d.goodWindow r).topDown = d.topDown := by simp [Dev.goodWindow]

@[simp] theorem Dev.refWindow_topDown (f : Option (Nat × Nat)) : (d.refWindow r f).topDown = d.topDown := by
  unfold Dev.refWindow
  split <;> simp

@[simp] theorem monitorWindowDo_topDown (freqs : List (Option (Nat × Nat))) (dpll : Int) :
    (monitorWindowDo freqs dpll phase d).topDown = d.topDown := by simp [monitorWindowDo]
@[simp] theorem clkCmdWrite_topDown : (clkCmdWrite w d).topDown = d.topDown := by simp [clkCmdWrite]
@[simp] theorem clkCtlDo_topDown : (clkCtlDo w d).topDown = d.topDown := by simp [clkCtlDo]
@[simp] theorem clkRefDo_topDown : (clkRefDo r w d).topDown = d.topDown := by simp [clkRefDo]
@[simp] theorem Dev.qlCodes_topDown : (d.qlCodes r ssm essm).topDown = d.topDown := by simp [Dev.qlCodes]
@[simp] theorem esmcPduDo_topDown (m : EsmcPdu) : (esmcPduDo r m d).topDown = d.topDown := by simp [esmcPduDo]
@[simp] theorem esmcTimeoutDo_topDown : (esmcTimeoutDo r d).topDown = d.topDown := by simp [esmcTimeoutDo]
@[simp] theorem Dev.qlSpan_topDown : (d.qlSpan p).topDown = d.topDown := by simp [Dev.qlSpan]
@[simp] theorem qlAnnounceDo_topDown : (qlAnnounceDo p ssm essm d).topDown = d.topDown := by simp [qlAnnounceDo]
@[simp] theorem stageDoneDo_topDown : (stageDoneDo phase d).topDown = d.topDown := by simp [stageDoneDo]
@[simp] theorem lockLossDo_topDown : (lockLossDo phase d).topDown = d.topDown := by simp [lockLossDo]

end Clk

/-! ### Time bases and launches -/

section Time

variable (d : Dev) (p : Port) (n outcome idx v b : Nat) (w : Word) (e : TlqEntry) (c : Fin 32)

@[simp] theorem Dev.tbAdd_topDown (parts : Int) : (d.tbAdd n parts).topDown = d.topDown := (rfl)
@[simp] theorem Dev.tbTick_topDown : d.tbTick.topDown = d.topDown := by simp [Dev.tbTick]
@[simp] theorem tbTrimWrite_topDown : (tbTrimWrite n w d).topDown = d.topDown := by simp [tbTrimWrite]
@[simp] theorem Dev.tlqRecord_topDown (stamp : Nat) : (d.tlqRecord e outcome stamp).topDown = d.topDown := by simp [Dev.tlqRecord]
@[simp] theorem Dev.tlqRemove_topDown : (d.tlqRemove idx).topDown = d.topDown := (rfl)
@[simp] theorem Dev.tlqDrop_topDown : (d.tlqDrop e outcome).topDown = d.topDown := by simp [Dev.tlqDrop]
@[simp] theorem Dev.tlqDropIf_topDown (f : TlqEntry → Bool) : (d.tlqDropIf f outcome).topDown = d.topDown := by
  simp [Dev.tlqDropIf]
@[simp] theorem Dev.tlqBack_topDown : (d.tlqBack n).topDown = d.topDown := by simp [Dev.tlqBack]
@[simp] theorem Dev.tlqForward_topDown : (d.tlqForward n).topDown = d.topDown := by simp [Dev.tlqForward]
@[simp] theorem tlqDueDo_topDown : (tlqDueDo idx d).topDown = d.topDown := by unfold tlqDueDo; split <;> simp
@[simp] theorem Dev.tlqGap_topDown : (d.tlqGap c).topDown = d.topDown := by simp [Dev.tlqGap]

@[simp] theorem tlqLaunchDoneDo_topDown (lag : Nat) : (tlqLaunchDoneDo idx lag d).topDown = d.topDown := by
  simp only [tlqLaunchDoneDo]
  (repeat' split) <;> simp

@[simp] theorem tlqEnqDoneDo_topDown : (tlqEnqDoneDo d).topDown = d.topDown := by unfold tlqEnqDoneDo; split <;> simp
@[simp] theorem tlqCmdWrite_topDown : (tlqCmdWrite w d).topDown = d.topDown := by simp [tlqCmdWrite]
@[simp] theorem Dev.tbStepOne_topDown : (d.tbStepOne n).topDown = d.topDown := by simp [Dev.tbStepOne]
@[simp] theorem Dev.tbSnapAll_topDown : d.tbSnapAll.topDown = d.topDown := (rfl)
@[simp] theorem tbCmdWrite_topDown : (tbCmdWrite w d).topDown = d.topDown := by simp [tbCmdWrite]
@[simp] theorem Dev.tbZero_topDown : d.tbZero.topDown = d.topDown := by simp [Dev.tbZero]
@[simp] theorem Dev.tlUpd_topDown (f : TimeLink → TimeLink) : (d.tlUpd p f).topDown = d.topDown := (rfl)
@[simp] theorem Dev.putTime_topDown (lo hi fr : Fld) : (d.putTime lo hi fr v).topDown = d.topDown := (rfl)

@[simp] theorem Dev.tlSet_topDown (s : Nat) : (d.tlSet p s).topDown = d.topDown := by
  simp only [Dev.tlSet]
  (repeat' split) <;> simp

@[simp] theorem Dev.tlTxBoundary_topDown : (d.tlTxBoundary p).topDown = d.topDown := by simp [Dev.tlTxBoundary]
@[simp] theorem Dev.tlRxBoundary_topDown : (d.tlRxBoundary p).topDown = d.topDown := by simp [Dev.tlRxBoundary]
@[simp] theorem Dev.tlRxLost_topDown : (d.tlRxLost p).topDown = d.topDown := (rfl)
@[simp] theorem timeTxDo_topDown : (timeTxDo p b v d).topDown = d.topDown := by simp only [timeTxDo]; (repeat' split) <;> simp
@[simp] theorem timeRxDo_topDown : (timeRxDo p b v d).topDown = d.topDown := by simp only [timeRxDo]; (repeat' split) <;> simp
@[simp] theorem tbSccCtlWrite_topDown : (tbSccCtlWrite w d).topDown = d.topDown := (rfl)
@[simp] theorem ppsOutDo_topDown : (ppsOutDo d).topDown = d.topDown := by simp [ppsOutDo]
@[simp] theorem ppsEndDo_topDown : (ppsEndDo d).topDown = d.topDown := by simp [ppsEndDo]
@[simp] theorem ppsInDo_topDown : (ppsInDo d).topDown = d.topDown := by simp [ppsInDo]
@[simp] theorem ptpStamp_topDown (m : PtpMsg) (word wrF rdF ofsF : Fld) :
    (ptpStamp c m word wrF rdF ofsF d).topDown = d.topDown := by unfold ptpStamp; split <;> simp

end Time

/-! ### Hanger links -/

section Hgl

variable (d : Dev) (n typ status result h seq outcome tag : Nat) (w : Word) (body words rec : List Nat) (x : FramePos)
  (agreed : Bool) (eng : Option Nat) (r : HgReq) (p : Port) (line : List EchoSample)

@[simp] theorem Dev.hgUpd_topDown (f : HgState → HgState) : (d.hgUpd n f).topDown = d.topDown := (rfl)
@[simp] theorem Dev.hgEmit_topDown (retx : Bool) : (d.hgEmit n typ retx seq body).topDown = d.topDown := (rfl)
@[simp] theorem Dev.hgNew_topDown : (d.hgNew n typ body).topDown = d.topDown := (rfl)
@[simp] theorem Dev.hgPump_topDown : (d.hgPump n).topDown = d.topDown := by simp only [Dev.hgPump]; (repeat' split) <;> simp
@[simp] theorem Dev.hgQueue_topDown (x : HgPkt) : (d.hgQueue n x).topDown = d.topDown := by simp [Dev.hgQueue]
@[simp] theorem Dev.hgIdle_topDown : (d.hgIdle n).topDown = d.topDown := by simp [Dev.hgIdle]

@[simp] theorem Dev.hgReply_topDown : (d.hgReply n eng result status words).topDown = d.topDown := by
  unfold Dev.hgReply
  split <;> simp

@[simp] theorem Dev.hgReqEnd_topDown : (d.hgReqEnd n r result status words).topDown = d.topDown := by simp [Dev.hgReqEnd]
@[simp] theorem Dev.hgReqFail_topDown (f : HgReq → Bool) : (d.hgReqFail n result f).topDown = d.topDown := by simp [Dev.hgReqFail]
@[simp] theorem Dev.tmdSet_topDown (state : Nat) : (d.tmdSet n h state outcome).topDown = d.topDown := (rfl)
@[simp] theorem Dev.tmdFail_topDown : (d.tmdFail n h outcome).topDown = d.topDown := (rfl)
@[simp] theorem Dev.tmdFailIf_topDown (st : Nat → Bool) (f : HgTimed → Bool) :
    (d.tmdFailIf n outcome st f).topDown = d.topDown := by simp [Dev.tmdFailIf]
@[simp] theorem Dev.hgCancel_topDown : (d.hgCancel p).topDown = d.topDown := by simp [Dev.hgCancel]
@[simp] theorem Dev.hgNoCnt_topDown (all : Bool) : (d.hgNoCnt p all).topDown = d.topDown := by simp [Dev.hgNoCnt]
@[simp] theorem Dev.hgCalTrain_topDown : (d.hgCalTrain n).topDown = d.topDown := by simp [Dev.hgCalTrain]
@[simp] theorem Dev.hgTrain_topDown : (d.hgTrain n).topDown = d.topDown := by simp [Dev.hgTrain]
@[simp] theorem Dev.hgUp_topDown : (d.hgUp n).topDown = d.topDown := by simp [Dev.hgUp]
@[simp] theorem Dev.hgHold_topDown (why : Nat) : (d.hgHold n why).topDown = d.topDown := by simp [Dev.hgHold]
@[simp] theorem Dev.hgExpect_topDown : (d.hgExpect n).topDown = d.topDown := (rfl)
@[simp] theorem Dev.hgIdRead_topDown (serial : Nat) : (d.hgIdRead n serial).topDown = d.topDown := by simp [Dev.hgIdRead]
@[simp] theorem Dev.hgIdStart_topDown : (d.hgIdStart n).topDown = d.topDown := by simp [Dev.hgIdStart]
@[simp] theorem hgCtlWrite_topDown : (hgCtlWrite n w d).topDown = d.topDown := by simp [hgCtlWrite]
@[simp] theorem Dev.hgWrap_topDown (k : KsHanger) : (d.hgWrap n k typ body).1.topDown = d.topDown := (rfl)

@[simp] theorem Dev.hgSecure_topDown (prio origin : Nat) : (d.hgSecure n typ body prio origin tag).topDown = d.topDown := by
  unfold Dev.hgSecure
  split <;> simp

@[simp] theorem Dev.hgAsk_topDown (read : Bool) (cnt addr : Nat) (data : List Nat) :
    (d.hgAsk n eng read cnt addr data).topDown = d.topDown := by simp [Dev.hgAsk]
@[simp] theorem pierReqDo_topDown (q : PierReq) : (pierReqDo n q d).topDown = d.topDown := by simp [pierReqDo]
@[simp] theorem reqGoDo_topDown : (reqGoDo n w d).topDown = d.topDown := by simp [reqGoDo]
@[simp] theorem tmdGoDo_topDown : (tmdGoDo n w x d).topDown = d.topDown := by simp [tmdGoDo]
@[simp] theorem hgCmdWrite_topDown : (hgCmdWrite n w d).topDown = d.topDown := by simp [hgCmdWrite]
@[simp] theorem ecCtlWrite_topDown : (ecCtlWrite n w d).topDown = d.topDown := by simp [ecCtlWrite]
@[simp] theorem Dev.hgEchoRun_topDown : (d.hgEchoRun n line).topDown = d.topDown := (rfl)
@[simp] theorem hgPreambleDo_topDown (corr peak : Nat) : (hgPreambleDo n corr peak line d).topDown = d.topDown := by
  simp [hgPreambleDo]
@[simp] theorem hgHeaderDo_topDown (w : Nat) : (hgHeaderDo n w d).topDown = d.topDown := by simp [hgHeaderDo]
@[simp] theorem Dev.hgAcked_topDown (ack : Nat) : (d.hgAcked n ack).topDown = d.topDown := by unfold Dev.hgAcked; split <;> simp
@[simp] theorem hgPacketDo_topDown (words : List (List Int)) : (hgPacketDo n words d).topDown = d.topDown := by simp [hgPacketDo]
@[simp] theorem Dev.hgSecFail_topDown : (d.hgSecFail n).topDown = d.topDown := (rfl)
@[simp] theorem Dev.hgReqDone_topDown : (d.hgReqDone n r status words).topDown = d.topDown := by simp [Dev.hgReqDone]
@[simp] theorem rspDo_topDown : (rspDo n tag status words d).topDown = d.topDown := by simp only [rspDo]; (repeat' split) <;> simp
@[simp] theorem srspDo_topDown : (srspDo n rec agreed d).topDown = d.topDown := by simp only [srspDo]; (repeat' split) <;> simp
@[simp] theorem telDo_topDown (body : List (BitVec 8)) : (telDo n seq body d).topDown = d.topDown := by simp [telDo]

@[simp] theorem eventDo_topDown (code b1 b2 : Nat) : (eventDo n code b1 b2 d).topDown = d.topDown := by
  simp only [eventDo]
  (repeat' split) <;> simp

@[simp] theorem hgRtoDo_topDown : (hgRtoDo n d).topDown = d.topDown := by unfold hgRtoDo; split <;> simp
@[simp] theorem hgAckDo_topDown : (hgAckDo n d).topDown = d.topDown := by simp [hgAckDo]
@[simp] theorem hgIdleDo_topDown : (hgIdleDo n d).topDown = d.topDown := by simp [hgIdleDo]
@[simp] theorem hgTmoDo_topDown : (hgTmoDo n d).topDown = d.topDown := by simp [hgTmoDo]
@[simp] theorem trigResvDo_topDown : (trigResvDo n x d).topDown = d.topDown := by simp [trigResvDo]
@[simp] theorem triggerDo_topDown : (triggerDo n x d).topDown = d.topDown := by simp [triggerDo]
@[simp] theorem execDoneLate_topDown : (execDoneLate n h d).topDown = d.topDown := by unfold execDoneLate; split <;> simp
@[simp] theorem Dev.hgKeySend_topDown (msg : List Nat) : (d.hgKeySend n typ msg).topDown = d.topDown := by simp [Dev.hgKeySend]
@[simp] theorem Dev.hgKeyFail_topDown (reason : Nat) : (d.hgKeyFail n reason).topDown = d.topDown := by simp [Dev.hgKeyFail]
@[simp] theorem opHgKeyAgree_topDown : (opHgKeyAgree d).topDown = d.topDown := by simp [opHgKeyAgree]
@[simp] theorem Dev.hgKxEk_topDown (x : KsHgExch) (ek : List Nat) : (d.hgKxEk n x ek).topDown = d.topDown := by simp [Dev.hgKxEk]

@[simp] theorem Dev.hgKxFin_topDown (x : KsHgExch) : (d.hgKxFin n x rec agreed).topDown = d.topDown := by
  unfold Dev.hgKxFin
  split <;> simp

@[simp] theorem keyDo_topDown (b : List Nat) : (keyDo n b agreed d).topDown = d.topDown := by unfold keyDo; split <;> simp
@[simp] theorem kxTimeoutDo_topDown : (kxTimeoutDo n d).topDown = d.topDown := by simp [kxTimeoutDo]
@[simp] theorem noiseGapDo_topDown (power : Nat) : (noiseGapDo n power d).topDown = d.topDown := by simp [noiseGapDo]

end Hgl

/-! ### The telemetry converter -/

section Tcv

variable (d : Dev) (s : TcvSample) (e : Nat) (w : Word) (x : Int) (r : TcvRaw)

@[simp] theorem Dev.tcvUpd_topDown (f : TcvState → TcvState) : (d.tcvUpd f).topDown = d.topDown := (rfl)
@[simp] theorem Dev.tcvEntry_topDown : (d.tcvEntry e).topDown = d.topDown := (rfl)
@[simp] theorem Dev.tcvCalGo_topDown : d.tcvCalGo.topDown = d.topDown := by simp [Dev.tcvCalGo]
@[simp] theorem Dev.tcvGo_topDown : d.tcvGo.topDown = d.topDown := by simp [Dev.tcvGo]
@[simp] theorem Dev.tcvNext_topDown : d.tcvNext.topDown = d.topDown := by simp [Dev.tcvNext]
@[simp] theorem Dev.tcvCalAsk_topDown (own : Bool) : (d.tcvCalAsk own).topDown = d.topDown := by simp [Dev.tcvCalAsk]
@[simp] theorem Dev.calTcvGo_topDown : d.calTcvGo.topDown = d.topDown := by simp [Dev.calTcvGo]
@[simp] theorem Dev.calTcvTry_topDown (longDelay : Bool) : (d.calTcvTry longDelay).topDown = d.topDown := by simp [Dev.calTcvTry]
@[simp] theorem Dev.calTcvRequest_topDown : d.calTcvRequest.topDown = d.topDown := by simp [Dev.calTcvRequest]
@[simp] theorem Dev.calTcvTrigger_topDown (age : Bool) : (d.calTcvTrigger age).topDown = d.topDown := by simp [Dev.calTcvTrigger]
@[simp] theorem Dev.tcvCalOver_topDown : d.tcvCalOver.topDown = d.topDown := by simp [Dev.tcvCalOver]
@[simp] theorem Dev.tcvCalFail_topDown : d.tcvCalFail.topDown = d.topDown := by simp [Dev.tcvCalFail]
@[simp] theorem Dev.tcvCalAgree_topDown (ofs : Int) (gain : Nat) : (d.tcvCalAgree ofs gain).topDown = d.topDown := by
  simp [Dev.tcvCalAgree]
@[simp] theorem calDoneDo_topDown (o1 o2 : Int) (g1 g2 : Nat) : (calDoneDo o1 o2 g1 g2 d).topDown = d.topDown := by
  simp [calDoneDo]
@[simp] theorem Dev.tcvShowQ_topDown : d.tcvShowQ.topDown = d.topDown := (rfl)
@[simp] theorem Dev.tcvStop_topDown : d.tcvStop.topDown = d.topDown := by simp [Dev.tcvStop]
@[simp] theorem Dev.tcvRefOff_topDown : d.tcvRefOff.topDown = d.topDown := by simp [Dev.tcvRefOff]
@[simp] theorem tcvCtlWrite_topDown : (tcvCtlWrite w d).topDown = d.topDown := by simp [tcvCtlWrite]
@[simp] theorem refReadyDo_topDown : (refReadyDo d).topDown = d.topDown := by simp [refReadyDo]
@[simp] theorem injGoDo_topDown : (injGoDo w d).topDown = d.topDown := by simp [injGoDo]
@[simp] theorem muxSettledDo_topDown : (muxSettledDo d).topDown = d.topDown := by simp [muxSettledDo]
@[simp] theorem Dev.tcvSat_topDown (f : Fld) (n : Nat) : (d.tcvSat f n).topDown = d.topDown := by simp [Dev.tcvSat]
@[simp] theorem Dev.tcvChain_topDown (samples : List Int) : (d.tcvChain s samples).1.topDown = d.topDown := by simp [Dev.tcvChain]
@[simp] theorem Dev.tcvDcb_topDown : (d.tcvDcb s e x).1.topDown = d.topDown := by simp [Dev.tcvDcb]
@[simp] theorem Dev.tcvPush_topDown (w : Nat) : (d.tcvPush w).topDown = d.topDown := by simp [Dev.tcvPush]
@[simp] theorem Dev.tcvDeliver_topDown (entry : Nat) (inj : Bool) : (d.tcvDeliver s entry inj x).topDown = d.topDown := by
  simp [Dev.tcvDeliver]

@[simp] theorem Dev.tcvTake_topDown : (d.tcvTake s r).1.topDown = d.topDown := by simp [Dev.tcvTake]

theorem topDown_of_tcvTake {d' : Dev} {s : TcvSample} {r : TcvRaw} {o : Option Int} (h : d.tcvTake s r = (d', o)) :
    d'.topDown = d.topDown := by
  have taken := d.tcvTake_topDown s r
  rwa [h] at taken

@[simp] theorem tcvResultDo_topDown : (tcvResultDo r d).topDown = d.topDown := by
  simp only [tcvResultDo]
  split
  · split
    · rfl
    · split
      · next h => exact topDown_of_tcvTake _ h
      · next h => simp [topDown_of_tcvTake _ h]
  · split
    · split
      · rfl
      · split
        · next h => exact topDown_of_tcvTake _ h
        · next h => split_ifs <;> simp [topDown_of_tcvTake _ h]
    · rfl

@[simp] theorem Dev.tcvDip_topDown : d.tcvDip.topDown = d.topDown := by simp [Dev.tcvDip]
@[simp] theorem scanDelayEndDo_topDown : (scanDelayEndDo d).topDown = d.topDown := by simp [scanDelayEndDo]
@[simp] theorem tcvQRead_topDown : (tcvQRead d).topDown = d.topDown := (rfl)
@[simp] theorem calConversionDo_topDown (vref : Bool) (v : Nat) : (calConversionDo vref v d).topDown = d.topDown := by
  simp [calConversionDo]
@[simp] theorem Dev.vrefDiscard_topDown : d.vrefDiscard.topDown = d.topDown := by simp [Dev.vrefDiscard]
@[simp] theorem vrefCheckDo_topDown (band : Nat) : (vrefCheckDo band d).topDown = d.topDown := by simp [vrefCheckDo]
@[simp] theorem tcvAgeDo_topDown : (tcvAgeDo d).topDown = d.topDown := by simp [tcvAgeDo]

end Tcv

/-! ### Calibration -/

section Cal

variable (d : Dev) (n : Nat)

@[simp] theorem Dev.calWindow_topDown (p : Port) : (d.calWindow p).topDown = d.topDown := by simp [Dev.calWindow]
@[simp] theorem Dev.hgCalStart_topDown : (d.hgCalStart n).topDown = d.topDown := by simp [Dev.hgCalStart]
@[simp] theorem Dev.hgCalSet_topDown (x : HgCal) : (d.hgCalSet n x).topDown = d.topDown := (rfl)
@[simp] theorem Dev.hgCalDone_topDown (sums : List Int) : (d.hgCalDone n sums).topDown = d.topDown := by simp [Dev.hgCalDone]

@[simp] theorem hgMeasureDo_topDown (e : Int) : (hgMeasureDo n e d).topDown = d.topDown := by
  simp only [hgMeasureDo]
  (repeat' split) <;> simp

@[simp] theorem hgEchoDo_topDown (echo : Int) : (hgEchoDo n echo d).topDown = d.topDown := by simp [hgEchoDo]
@[simp] theorem calCmdWrite_topDown (w : Word) : (calCmdWrite w d).topDown = d.topDown := by simp [calCmdWrite]

end Cal

/-! ### The management complex -/

section Mgmt

variable (d : Dev) (k pc c : Nat) (w : Word) (headErr ok : Bool) (p : Port) (entry : List Nat)

@[simp] theorem coreFaultDo_topDown (core : Nat) : (coreFaultDo core d).topDown = d.topDown := by simp [coreFaultDo]
@[simp] theorem heartbeatWrite_topDown : (heartbeatWrite w d).topDown = d.topDown := by simp [heartbeatWrite]
@[simp] theorem rtDownDo_topDown : (rtDownDo d).topDown = d.topDown := by simp [rtDownDo]

@[simp] theorem ringFlush_topDown (l : List RingCmd) : (ringFlush l d).topDown = d.topDown := by
  induction l generalizing d with
  | nil => rfl
  | cons c t ih =>
    unfold ringFlush
    split <;> simp [ih]

@[simp] theorem Dev.ringComplete_topDown (result : Nat) (data : List Nat) : (d.ringComplete result data).topDown = d.topDown := by
  unfold Dev.ringComplete
  split <;> simp

@[simp] theorem Dev.ringExec_topDown (op : Nat) (f : List Nat → Dev → Dev) (h : ∀ l d, (f l d).topDown = d.topDown) :
    (d.ringExec op f).topDown = d.topDown := by unfold Dev.ringExec; split <;> simp [h]
@[simp] theorem Dev.loopEnd_topDown : (d.loopEnd k).topDown = d.topDown := by unfold Dev.loopEnd; split <;> simp
@[simp] theorem Dev.engSet_topDown (st : Nat) : (d.engSet k st).topDown = d.topDown := by simp [Dev.engSet]
@[simp] theorem Dev.engPut_topDown (f : Fld) (v : Nat) : (d.engPut k f v).topDown = d.topDown := (rfl)
@[simp] theorem Dev.engRun_topDown (version : Nat) (unchecked : Bool) : (d.engRun k version unchecked).topDown = d.topDown := by
  simp [Dev.engRun]
@[simp] theorem Dev.engSkip_topDown : (d.engSkip k).topDown = d.topDown := by unfold Dev.engSkip; split <;> simp
@[simp] theorem Dev.engStart_topDown : (d.engStart k).topDown = d.topDown := by simp [Dev.engStart]
@[simp] theorem Dev.engHalt_topDown : (d.engHalt k pc).topDown = d.topDown := by simp [Dev.engHalt]
@[simp] theorem Dev.evqEmpty_topDown : (d.evqEmpty k).topDown = d.topDown := (rfl)
@[simp] theorem Dev.engReset_topDown : (d.engReset k pc).topDown = d.topDown := by simp [Dev.engReset]
@[simp] theorem pierCmdWrite_topDown : (pierCmdWrite c w pc d).topDown = d.topDown := by simp [pierCmdWrite]
@[simp] theorem clusterUp_topDown : (clusterUp c d).topDown = d.topDown := by simp [clusterUp]
@[simp] theorem clusterDown_topDown : (clusterDown c d).topDown = d.topDown := by simp [clusterDown]
@[simp] theorem dieClustersUp_topDown : (dieClustersUp p d).topDown = d.topDown := by simp [dieClustersUp]
@[simp] theorem dieClustersDown_topDown : (dieClustersDown p d).topDown = d.topDown := by simp [dieClustersDown]

@[simp] theorem recipeCheckDo_topDown : (recipeCheckDo d).topDown = d.topDown := by
  simp only [recipeCheckDo]
  (repeat' split) <;> simp

@[simp] theorem pierFaultDo_topDown (cause : EngineFault) : (pierFaultDo k cause pc d).topDown = d.topDown := by
  simp [pierFaultDo]
@[simp] theorem Dev.ringShow_topDown : d.ringShow.topDown = d.topDown := (rfl)
@[simp] theorem Dev.ringStall_topDown : d.ringStall.topDown = d.topDown := (rfl)
@[simp] theorem Dev.doorbellCheck_topDown : d.doorbellCheck.topDown = d.topDown := by simp [Dev.doorbellCheck]
@[simp] theorem cmdDbWrite_topDown : (cmdDbWrite w d).topDown = d.topDown := by simp [cmdDbWrite]
@[simp] theorem Dev.headWrite_topDown (err : Bool) : (d.headWrite err).topDown = d.topDown := by simp [Dev.headWrite]
@[simp] theorem Dev.consume_topDown : (d.consume entry headErr).topDown = d.topDown := by simp [Dev.consume]

@[simp] theorem fetchDo_topDown (entry : Option (List Byte)) : (fetchDo entry headErr d).topDown = d.topDown := by
  simp only [fetchDo]
  (repeat' split) <;> simp

@[simp] theorem nopDo_topDown : (nopDo d).topDown = d.topDown := by simp [nopDo]
@[simp] theorem loopStartDo_topDown : (loopStartDo d).topDown = d.topDown := by simp [loopStartDo]
@[simp] theorem loopStopDo_topDown : (loopStopDo pc d).topDown = d.topDown := by simp [loopStopDo]
@[simp] theorem ntfEventsDo_topDown : (ntfEventsDo d).topDown = d.topDown := by simp [ntfEventsDo]
@[simp] theorem Dev.ntfEvent_topDown : d.ntfEvent.topDown = d.topDown := by simp [Dev.ntfEvent]
@[simp] theorem Dev.ntfTick_topDown : d.ntfTick.topDown = d.topDown := by simp [Dev.ntfTick]
@[simp] theorem Dev.ntfWritten_topDown (n : Ntf) : (d.ntfWritten n headErr).topDown = d.topDown := by simp [Dev.ntfWritten]

@[simp] theorem ntfDo_topDown (err : RingErr) : (ntfDo err d).topDown = d.topDown := by
  simp only [ntfDo]
  (repeat' split) <;> simp

@[simp] theorem ntfAckWrite_topDown : (ntfAckWrite w d).topDown = d.topDown := by simp [ntfAckWrite]
@[simp] theorem mbxCtlWrite_topDown : (mbxCtlWrite w d).topDown = d.topDown := by simp [mbxCtlWrite]

@[simp] theorem ringRetryDo_topDown : (ringRetryDo ok entry headErr d).topDown = d.topDown := by
  simp only [ringRetryDo]
  (repeat' split) <;> simp

@[simp] theorem resyncWrite_topDown : (resyncWrite w d).topDown = d.topDown := by simp [resyncWrite]
@[simp] theorem resyncDoneDo_topDown : (resyncDoneDo ok d).topDown = d.topDown := by unfold resyncDoneDo; split <;> simp
@[simp] theorem mbxPerst_topDown : (mbxPerst d).topDown = d.topDown := by simp [mbxPerst]

end Mgmt

/-! ### Returning to reset -/

section Reset

variable (d : Dev) (f : Nat → Bool) (pg : Nat)

@[simp] theorem Dev.wipe_topDown : (d.wipe f).topDown = d.topDown := (rfl)
@[simp] theorem Dev.wipeEvents_topDown : (d.wipeEvents f).topDown = d.topDown := (rfl)
@[simp] theorem Dev.commitCancel_topDown : (d.commitCancel pg).topDown = d.topDown := by unfold Dev.commitCancel; split <;> simp
@[simp] theorem Dev.softReset_topDown : (d.softReset pg).topDown = d.topDown := by simp [Dev.softReset]

end Reset

/-! ### Memory integrity and truss links -/

section Mem

variable (d : Dev) (p : Port) (m data off b : Nat) (w : Word) (q : Fin 2) (x : Upset) (ok toLine : Bool)

@[simp] theorem Dev.demandWrite_topDown (w mask req : Nat) : (d.demandWrite m w mask data req).topDown = d.topDown := by
  simp only [Dev.demandWrite]
  (repeat' split) <;> simp

@[simp] theorem bar2ReadDo_topDown (wide : Bool) : (bar2ReadDo off wide x d).topDown = d.topDown := by
  unfold bar2ReadDo
  split <;> simp

@[simp] theorem bar2WriteDo_topDown (be : Nat) : (bar2WriteDo off be data d).topDown = d.topDown := by
  unfold bar2WriteDo
  split <;> simp

@[simp] theorem trussEval_topDown : (trussEval p d).topDown = d.topDown := by simp [trussEval]
@[simp] theorem readyCheck_topDown : (readyCheck p d).topDown = d.topDown := by simp [readyCheck]
@[simp] theorem trainDo_topDown : (trainDo q ok d).topDown = d.topDown := (rfl)
@[simp] theorem fillDo_topDown : (fillDo d).topDown = d.topDown := by simp [fillDo]
@[simp] theorem ldFillDo_topDown : (ldFillDo p d).topDown = d.topDown := by simp [ldFillDo]
@[simp] theorem mergeDrainDo_topDown (c : Nat) : (mergeDrainDo c d).topDown = d.topDown := by unfold mergeDrainDo; split <;> simp

@[simp] theorem scrubDo_topDown (word : Nat) (last : Bool) : (scrubDo b word x last d).topDown = d.topDown := by
  simp only [scrubDo]
  (repeat' split) <;> simp

@[simp] theorem leakDo_topDown : (leakDo b d).topDown = d.topDown := (rfl)
@[simp] theorem linkWindowDo_topDown : (linkWindowDo q d).topDown = d.topDown := by simp [linkWindowDo]
@[simp] theorem eccTestWrite_topDown : (eccTestWrite w d).topDown = d.topDown := by simp [eccTestWrite]
@[simp] theorem qmcCtlWrite_topDown : (qmcCtlWrite q w d).topDown = d.topDown := by simp [qmcCtlWrite]
@[simp] theorem modShow_topDown : (modShow p d).topDown = d.topDown := by simp [modShow]
@[simp] theorem modDown_topDown : (modDown p m d).topDown = d.topDown := by simp [modDown]

@[simp] theorem flitDo_topDown (bad : Option FlitFault) : (flitDo p toLine m bad d).topDown = d.topDown := by
  simp only [flitDo]
  (repeat' split) <;> simp

@[simp] theorem laneWindowDo_topDown (worst total : Nat) : (laneWindowDo p toLine m worst total d).topDown = d.topDown := by
  simp [laneWindowDo]
@[simp] theorem modUpDo_topDown (hub line : Nat) : (modUpDo p m ok hub line d).topDown = d.topDown := by simp [modUpDo]
@[simp] theorem trsCtlWrite_topDown (onDie : Bool) : (trsCtlWrite p onDie w d).topDown = d.topDown := by simp [trsCtlWrite]

end Mem

/-! ### The DMA engine -/

section Dma

variable (d : Dev) (c : Nat) (w : Word)

@[simp] theorem Dev.dmaPut_topDown (f : Fld) (v : Nat) : (d.dmaPut c f v).topDown = d.topDown := (rfl)
@[simp] theorem Dev.dmaState_topDown (st : Nat) : (d.dmaState c st).topDown = d.topDown := (rfl)
@[simp] theorem Dev.dmaHold_topDown (l : List Nat) : (d.dmaHold c l).topDown = d.topDown := (rfl)
@[simp] theorem Dev.dmaAt_topDown (k : Nat) : (d.dmaAt c k).topDown = d.topDown := (rfl)
@[simp] theorem Dev.dmaBegin_topDown : (d.dmaBegin c).topDown = d.topDown := by simp [Dev.dmaBegin]
@[simp] theorem Dev.dmaShadow_topDown : (d.dmaShadow c).topDown = d.topDown := by simp [Dev.dmaShadow]
@[simp] theorem Dev.dmaResetEnd_topDown : d.dmaResetEnd.topDown = d.topDown := by simp [Dev.dmaResetEnd]
@[simp] theorem Dev.dmaAbort_topDown : (d.dmaAbort c).topDown = d.topDown := by unfold Dev.dmaAbort; split <;> simp
@[simp] theorem dmaCtlWrite_topDown : (dmaCtlWrite c w d).topDown = d.topDown := by simp [dmaCtlWrite]
@[simp] theorem dmaSetWrite_topDown (shadow : Bool) (r : Nat) : (dmaSetWrite c shadow r w d).topDown = d.topDown := by
  simp [dmaSetWrite]
@[simp] theorem Dev.dmaError_topDown (kind addr : Nat) : (d.dmaError c kind addr).topDown = d.topDown := by simp [Dev.dmaError]
@[simp] theorem dmaRetryDo_topDown : (dmaRetryDo c d).topDown = d.topDown := by simp [dmaRetryDo]
@[simp] theorem dmaDrainDo_topDown : (dmaDrainDo c d).topDown = d.topDown := by simp [dmaDrainDo]
@[simp] theorem dmaTimeoutDo_topDown : (dmaTimeoutDo c d).topDown = d.topDown := by simp [dmaTimeoutDo]
@[simp] theorem Dev.dmaDone_topDown : (d.dmaDone c).topDown = d.topDown := by simp [Dev.dmaDone]
@[simp] theorem dmaSoftReset_topDown : (dmaSoftReset d).topDown = d.topDown := by simp [dmaSoftReset]

end Dma

/-! ### The performance counters -/

section Perf

variable (d : Dev) (i off : Nat)

@[simp] theorem snapDoneDo_topDown : (snapDoneDo d).topDown = d.topDown := by simp [snapDoneDo]
@[simp] theorem perfSelDo_topDown (w : Word) : (perfSelDo i w d).topDown = d.topDown := (rfl)
@[simp] theorem wrapDo_topDown : (wrapDo i d).topDown = d.topDown := by simp [wrapDo]

@[simp] theorem Dev.bar4Word_topDown : (d.bar4Word off).1.topDown = d.topDown := by
  simp only [Dev.bar4Word]
  (repeat' split) <;> simp

@[simp] theorem bar4ReadDo_topDown (wide : Bool) : (bar4ReadDo off wide d).topDown = d.topDown := by simp [bar4ReadDo]
@[simp] theorem perfSoftReset_topDown : (perfSoftReset d).topDown = d.topDown := (rfl)

end Perf

/-! ### Commits -/

section Commit

variable (d old : Dev) (p : Port) (pg target src lo hi : Nat) (tx nearTx nearRx : Bool) (b : Block)

@[simp] theorem Dev.cmtOutcome_topDown (result : Nat) : (d.cmtOutcome p pg src result).topDown = d.topDown := by
  simp [Dev.cmtOutcome]
@[simp] theorem Dev.alignPut_topDown (s st : Nat) : (d.alignPut p s st).topDown = d.topDown := (rfl)
@[simp] theorem Dev.alignCount_topDown : (d.alignCount p).topDown = d.topDown := by simp [Dev.alignCount]
@[simp] theorem Dev.rxMoved_topDown : (d.rxMoved p).topDown = d.topDown := by simp [Dev.rxMoved]
@[simp] theorem Dev.cdcLimit_topDown : (d.cdcLimit p).topDown = d.topDown := by simp [Dev.cdcLimit]
@[simp] theorem Dev.takesDone_topDown : (d.takesDone old p tx).topDown = d.topDown := by simp [Dev.takesDone]
@[simp] theorem Dev.lineRxFx_topDown : (d.lineRxFx old p b).topDown = d.topDown := by unfold Dev.lineRxFx; split <;> simp
@[simp] theorem Dev.lineTxFx_topDown : (d.lineTxFx old p b).topDown = d.topDown := by unfold Dev.lineTxFx; split <;> simp

@[simp] theorem Dev.hubFx_topDown (inst : Nat) : (d.hubFx old b inst tx target).topDown = d.topDown := by
  unfold Dev.hubFx
  split <;> simp

@[simp] theorem Dev.sideTake_topDown : (d.sideTake pg tx target).topDown = d.topDown := by
  simp only [Dev.sideTake]
  (repeat' split) <;> simp

@[simp] theorem Dev.commitTake_topDown (forced : Bool) : (d.commitTake pg tx forced).topDown = d.topDown := by
  unfold Dev.commitTake
  split <;> simp

@[simp] theorem Dev.overCommits_topDown (sel : Commit → Bool) (f : Nat → Commit → Dev → Dev)
    (h : ∀ k c d, (f k c d).topDown = d.topDown) : (d.overCommits p sel f).topDown = d.topDown := by
  simp [Dev.overCommits, h]

@[simp] theorem Dev.takeOver_topDown (sel : Commit → Bool) (f : Nat → Commit → Dev → Dev)
    (h : ∀ k c d, (f k c d).topDown = d.topDown) : (d.takeOver p sel f).topDown = d.topDown := by
  simp [Dev.takeOver, h]

@[simp] theorem forceSide_topDown (c : Commit) : (forceSide pg c d).topDown = d.topDown := by simp [forceSide]
@[simp] theorem Dev.forceDue_topDown : (d.forceDue p).topDown = d.topDown := by simp [Dev.forceDue]
@[simp] theorem Dev.waitCount_topDown : (d.waitCount p).topDown = d.topDown := by simp [Dev.waitCount]
@[simp] theorem Dev.stopForce_topDown : (d.stopForce p).topDown = d.topDown := by simp [Dev.stopForce]
@[simp] theorem Dev.spanTakes_topDown : (d.spanTakes p tx).topDown = d.topDown := by simp [Dev.spanTakes]
@[simp] theorem Dev.rxJump_topDown : (d.rxJump p).topDown = d.topDown := by simp [Dev.rxJump]
@[simp] theorem Dev.cancelPort_topDown : (d.cancelPort p).topDown = d.topDown := by simp [Dev.cancelPort]

@[simp] theorem Dev.armAccept_topDown : (d.armAccept pg p target).topDown = d.topDown := by
  simp only [Dev.armAccept, Dev.when_topDown, Dev.commitTake_topDown, ite_self, Dev.put_topDown, Dev.putb_topDown, topDown_mk,
    topDown_eta, List.foldl_cons, List.foldl_nil]

@[simp] theorem Dev.armWrite_topDown : (d.armWrite pg lo hi).topDown = d.topDown := by simp [Dev.armWrite]
@[simp] theorem Dev.armEval_topDown : (d.armEval pg nearTx nearRx).topDown = d.topDown := by simp [Dev.armEval]

@[simp] theorem commitArmDo_topDown : (commitArmDo pg lo hi nearTx nearRx d).topDown = d.topDown := by
  simp only [commitArmDo]
  split <;> simp

@[simp] theorem Dev.rxInvalid_topDown : (d.rxInvalid p src).topDown = d.topDown := by simp [Dev.rxInvalid]

end Commit

/-! ### Span counters and the framer -/

section Boundary

variable (d : Dev) (p : Port) (hdr : Option LineHdr) (soh span f frame s corr : Nat) (tx : TxFrame) (w : Word) (h : LineHdr)

@[simp] theorem Dev.txPut_topDown : (d.txPut p span frame).topDown = d.topDown := (rfl)
@[simp] theorem Dev.spanSet_topDown (adopt : Bool) : (d.spanSet p adopt).topDown = d.topDown := by simp [Dev.spanSet]
@[simp] theorem Dev.headersOut_topDown : (d.headersOut p f).topDown = d.topDown := (rfl)
@[simp] theorem Dev.frameOut_topDown : (d.frameOut p f).topDown = d.topDown := by simp [Dev.frameOut]
@[simp] theorem Dev.txFrameFx_topDown : (d.txFrameFx p).topDown = d.topDown := by simp [Dev.txFrameFx]
@[simp] theorem Dev.lanesOut_topDown (f : TxFrame) : (d.lanesOut p f).topDown = d.topDown := by simp [Dev.lanesOut]
@[simp] theorem Dev.spanMessages_topDown : (d.spanMessages p).topDown = d.topDown := (rfl)
@[simp] theorem Dev.txSpanFx_topDown : (d.txSpanFx p).topDown = d.topDown := by simp [Dev.txSpanFx]
@[simp] theorem txSpanDo_topDown : (txSpanDo p d).topDown = d.topDown := by simp [txSpanDo]
@[simp] theorem Dev.txStop_topDown : (d.txStop p).topDown = d.topDown := by simp [Dev.txStop]
@[simp] theorem txFrameDo_topDown : (txFrameDo p d).topDown = d.topDown := by simp [txFrameDo]
@[simp] theorem txBoundary_topDown (span : Bool) : (txBoundary p span tx d).topDown = d.topDown := by simp [txBoundary]
@[simp] theorem framerStopDo_topDown : (framerStopDo p tx d).topDown = d.topDown := by simp [framerStopDo]
@[simp] theorem Dev.txStart_topDown : (d.txStart p).topDown = d.topDown := by simp [Dev.txStart]
@[simp] theorem rxwaitDo_topDown : (rxwaitDo p tx d).topDown = d.topDown := by simp [rxwaitDo]
@[simp] theorem spanCtlWrite_topDown : (spanCtlWrite p w d).topDown = d.topDown := by simp [spanCtlWrite]
@[simp] theorem Dev.rxPut_topDown : (d.rxPut p span frame).topDown = d.topDown := (rfl)
@[simp] theorem Dev.rxFrameFx_topDown : (d.rxFrameFx p).topDown = d.topDown := by simp [Dev.rxFrameFx]
@[simp] theorem Dev.rxSpanFx_topDown : (d.rxSpanFx p).topDown = d.topDown := by simp [Dev.rxSpanFx]
@[simp] theorem Dev.decFrame_topDown (span : Bool) : (d.decFrame p span).topDown = d.topDown := by simp [Dev.decFrame]
@[simp] theorem rxBoundary_topDown (span : Bool) (blocks : List RxBlock) : (rxBoundary p span blocks d).topDown = d.topDown := by
  simp [rxBoundary]
@[simp] theorem spanAnnounceDo_topDown (hdrSpan hdrFrame : Nat) :
    (spanAnnounceDo p span hdrSpan hdrFrame d).topDown = d.topDown := by simp [spanAnnounceDo]
@[simp] theorem Dev.sohApply_topDown : (d.sohApply p soh).topDown = d.topDown := by simp [Dev.sohApply]
@[simp] theorem Dev.sohTaken_topDown : (d.sohTaken p).topDown = d.topDown := (rfl)
@[simp] theorem Dev.sohTry_topDown : (d.sohTry p).topDown = d.topDown := by simp [Dev.sohTry]
@[simp] theorem Dev.sohCopy_topDown : (d.sohCopy p s f soh).topDown = d.topDown := by simp [Dev.sohCopy]
@[simp] theorem Dev.anchorLost_topDown : (d.anchorLost p).topDown = d.topDown := by simp [Dev.anchorLost]
@[simp] theorem Dev.framePos_topDown : (d.framePos p hdr).topDown = d.topDown := (rfl)
@[simp] theorem Dev.anchorLock_topDown : (d.anchorLock p hdr).topDown = d.topDown := by simp [Dev.anchorLock]
@[simp] theorem Dev.hdrShow_topDown : (d.hdrShow p s h).topDown = d.topDown := (rfl)
@[simp] theorem Dev.modeCheck_topDown (code : Nat) : (d.modeCheck p code).topDown = d.topDown := by simp [Dev.modeCheck]
@[simp] theorem Dev.spanCheck_topDown : (d.spanCheck p h).topDown = d.topDown := by simp [Dev.spanCheck]

@[simp] theorem Dev.anchorFields_topDown : (d.anchorFields p hdr).topDown = d.topDown := by
  unfold Dev.anchorFields
  split <;> simp

@[simp] theorem anchorDo_topDown : (anchorDo p corr hdr soh d).topDown = d.topDown := by simp [anchorDo]

@[simp] theorem subHeaderDo_topDown (s : Fin 8) : (subHeaderDo p s corr hdr soh d).topDown = d.topDown := by
  unfold subHeaderDo
  split <;> simp

@[simp] theorem Dev.alignEnable_topDown (on : Bool) : (d.alignEnable p on).topDown = d.topDown := by simp [Dev.alignEnable]
@[simp] theorem lfrCtlWrite_topDown : (lfrCtlWrite p w d).topDown = d.topDown := by simp [lfrCtlWrite]

end Boundary

/-! ### Power and reset -/

section Power

variable (d : Dev) (p : Port) (rail : Nat) (temps : List Nat)

@[simp] theorem Dev.dieMemory_topDown : (d.dieMemory p).topDown = d.topDown := (rfl)
@[simp] theorem Dev.portEmpty_topDown : (d.portEmpty p).topDown = d.topDown := by simp [Dev.portEmpty]
@[simp] theorem Dev.portCancel_topDown : (d.portCancel p).topDown = d.topDown := by simp [Dev.portCancel]
@[simp] theorem Dev.dieDown_topDown : (d.dieDown p).topDown = d.topDown := by simp [Dev.dieDown]
@[simp] theorem Dev.enterStart_topDown (thermal : Bool) : (d.enterStart thermal).topDown = d.topDown := by simp [Dev.enterStart]
@[simp] theorem Dev.wakeStart_topDown : d.wakeStart.topDown = d.topDown := (rfl)
@[simp] theorem pwrBascule_topDown (w : Word) : (pwrBascule w d).topDown = d.topDown := by simp [pwrBascule]
@[simp] theorem basculeInDo_topDown : (basculeInDo d).topDown = d.topDown := by simp [basculeInDo]
@[simp] theorem Dev.trimsBack_topDown (temps : Nat → Nat) : (d.trimsBack p temps).topDown = d.topDown := by simp [Dev.trimsBack]
@[simp] theorem wakeDoneDo_topDown : (wakeDoneDo temps d).topDown = d.topDown := by simp [wakeDoneDo]
@[simp] theorem thermDo_topDown : (thermDo temps d).topDown = d.topDown := by simp [thermDo]
@[simp] theorem Dev.railSeen_topDown : (d.railSeen rail).topDown = d.topDown := by simp [Dev.railSeen]
@[simp] theorem ldBrownDo_topDown : (ldBrownDo rail d).topDown = d.topDown := by simp [ldBrownDo]
@[simp] theorem sdsBrownDo_topDown : (sdsBrownDo rail d).topDown = d.topDown := by simp [sdsBrownDo]
@[simp] theorem railBackDo_topDown : (railBackDo rail d).topDown = d.topDown := by simp [railBackDo]
@[simp] theorem dipDo_topDown (dur depth : Nat) : (dipDo rail dur depth d).topDown = d.topDown := by simp [dipDo]
@[simp] theorem avsDo_topDown (target : Nat) : (avsDo p target d).topDown = d.topDown := by simp [avsDo]
@[simp] theorem pllUnlockDo_topDown : (pllUnlockDo p d).topDown = d.topDown := by simp [pllUnlockDo]
@[simp] theorem Dev.strapPut_topDown (v : Nat) : (d.strapPut v).topDown = d.topDown := (rfl)
@[simp] theorem Dev.ksRst_topDown : d.ksRst.topDown = d.topDown := by simp [Dev.ksRst]
@[simp] theorem Dev.dmaPerst_topDown (c : Nat) : (d.dmaPerst c).topDown = d.topDown := by simp [Dev.dmaPerst]
@[simp] theorem perstDo_topDown : (perstDo d).topDown = d.topDown := by simp [perstDo]
@[simp] theorem Dev.dirLock_topDown (l : List Recipe) : (d.dirLock l).topDown = d.topDown := by simp [Dev.dirLock]
@[simp] theorem bootDoneDo_topDown (selftest : Bool) (flash : Flash) (dir : List Recipe) :
    (bootDoneDo selftest flash dir d).topDown = d.topDown := by simp [bootDoneDo]

end Power

/-! ### Host reads -/

section Read

variable (d : Dev) (a : Nat)

@[simp] theorem Dev.hostRead_topDown : (d.hostRead a).1.topDown = d.topDown := by
  cases hpg : pageInfo (a / 4096) with
  | none => simp [Dev.hostRead, hpg]
  | some i =>
    simp only [Dev.hostRead, hpg]
    repeat' split
    all_goals simp

@[simp] theorem bar0ReadDo_topDown (wide : Bool) : (bar0ReadDo a wide d).topDown = d.topDown := by simp [bar0ReadDo]

end Read

/-! ### Host writes -/

section Host

variable (d : Dev) (pg off k inst : Nat) (w : Word) (i : PageInfo) (x : HostEnv) (near : Bool × Bool) (b : Block)

@[simp] theorem Dev.overSources_topDown (f : Nat → Bool → Dev → Dev)
    (h : ∀ s b d, (f s b d).topDown = d.topDown) : (d.overSources pg k w f).topDown = d.topDown := by
  simp [Dev.overSources, h]

@[simp] theorem stickyWrite_topDown : (stickyWrite pg k w d).topDown = d.topDown := by simp [stickyWrite]
@[simp] theorem maskWrite_topDown : (maskWrite pg k w d).topDown = d.topDown := by simp [maskWrite]
@[simp] theorem forceWrite_topDown : (forceWrite pg k w d).topDown = d.topDown := by simp [forceWrite]
@[simp] theorem firstWrite_topDown : (firstWrite pg w d).topDown = d.topDown := by simp [firstWrite]
@[simp] theorem countWrite_topDown : (countWrite pg w d).topDown = d.topDown := (rfl)
@[simp] theorem commitWord_topDown : (commitWord pg off w d).topDown = d.topDown := by simp [commitWord]
@[simp] theorem Dev.msixFlush_topDown : d.msixFlush.topDown = d.topDown := by simp [Dev.msixFlush]
@[simp] theorem msixEnableDo_topDown (en fmask : Bool) : (msixEnableDo en fmask d).topDown = d.topDown := by simp [msixEnableDo]

@[simp] theorem Dev.fieldWrite_topDown (f : Fld) : (d.fieldWrite pg near w f).topDown = d.topDown := by
  unfold Dev.fieldWrite
  split <;> simp

@[simp] theorem Dev.plainWrite_topDown : (d.plainWrite pg near off w).topDown = d.topDown := by simp [Dev.plainWrite]

@[simp] theorem lineWrite_topDown (p : Port) : (lineWrite p b inst pg off x w d).topDown = d.topDown := by
  simp only [lineWrite]
  (repeat' split) <;> simp

@[simp] theorem hubWrite1_topDown : (hubWrite1 b inst pg off x w d).topDown = d.topDown := by
  simp only [hubWrite1]
  (repeat' split) <;> simp

@[simp] theorem softBefore_topDown (x : Capture) : (softBefore i pg x d).topDown = d.topDown := by
  unfold softBefore
  split <;> simp

@[simp] theorem softAfter_topDown (old : Dev) : (softAfter i old d).topDown = d.topDown := by
  simp only [softAfter]
  (repeat' split) <;> simp

@[simp] theorem softTables_topDown : (softTables i pg d).topDown = d.topDown := by unfold softTables; split <;> simp
@[simp] theorem pierSoftReset_topDown (c : Nat) (pc : Nat → Nat) : (pierSoftReset c pc d).topDown = d.topDown := by
  simp [pierSoftReset]
@[simp] theorem tcvSoftReset_topDown : (tcvSoftReset d).topDown = d.topDown := by simp [tcvSoftReset]
@[simp] theorem softResetDo_topDown : (softResetDo pg i x d).topDown = d.topDown := by unfold softResetDo; split <;> simp
@[simp] theorem ringReadDo_topDown : (ringReadDo d).topDown = d.topDown := by simp [ringReadDo]

end Host

/-! ### DMA transfers -/

section Xfer

variable (d : Dev) (a k n c : Nat) (x : Upset)

@[simp] theorem Dev.devWord_topDown : (d.devWord a x).1.topDown = d.topDown := by unfold Dev.devWord; split <;> simp

@[simp] theorem Dev.devRead_topDown (fuel a n : Nat) (xs : List Upset) : (Dev.devRead fuel d a n xs).1.topDown = d.topDown := by
  induction fuel generalizing d a n xs with
  | zero => rfl
  | succ fuel ih =>
    unfold Dev.devRead
    split
    · rfl
    · dsimp only
      split <;> simp [ih]

@[simp] theorem Dev.dmaRead_topDown (s : DmaSet) (host : Option (List Nat)) (xs : List Upset) :
    (d.dmaRead s k n host xs).1.topDown = d.topDown := by simp [Dev.dmaRead]

@[simp] theorem Dev.devPut_topDown (mask v : Nat) : (d.devPut a mask v).topDown = d.topDown := by
  unfold Dev.devPut
  split <;> simp

@[simp] theorem Dev.devWrite_topDown (fuel a : Nat) (l : List Nat) : (Dev.devWrite fuel a l d).topDown = d.topDown := by
  induction fuel generalizing a l d with
  | zero => rfl
  | succ fuel ih => simp [Dev.devWrite, ih]

@[simp] theorem Dev.hostWriteRun_topDown (fuel a : Nat) (l : List Nat) : (Dev.hostWriteRun fuel a l d).topDown = d.topDown := by
  induction fuel generalizing a l d with
  | zero => rfl
  | succ fuel ih => simp [Dev.hostWriteRun, ih]

@[simp] theorem Dev.dmaPutRun_topDown (sp : Nat) (l : List Nat) : (d.dmaPutRun sp a l).topDown = d.topDown := by
  simp [Dev.dmaPutRun]

@[simp] theorem Dev.dmaWrite_topDown (fuel : Nat) (s : DmaSet) (k : Nat) (l : List Nat) :
    (Dev.dmaWrite fuel s k l d).topDown = d.topDown := by
  induction fuel generalizing k l d with
  | zero => rfl
  | succ fuel ih => simp [Dev.dmaWrite, ih]

@[simp] theorem dmaMoved_topDown (total : Nat) : (dmaMoved c k n total d).topDown = d.topDown := by simp [dmaMoved]

@[simp] theorem dmaReadback_topDown (hostOk : Bool) : (dmaReadback c hostOk x d).topDown = d.topDown := by
  simp only [dmaReadback]
  (repeat' split) <;> simp

end Xfer

/-! ### The ages of calibrations -/

section Tick

variable (d : Dev)

@[simp] theorem Dev.msTick_topDown : d.msTick.topDown = d.topDown := by simp [Dev.msTick]

end Tick

/-! ### Copies of the counters (R564, R565) -/

/-- The snapshot takes over the live counters, which stay. -/
@[simp] theorem Dev.perfCopy_topDown (d : Dev) : d.perfCopy.topDown = (d.topDown.1, d.topDown.1) := by
  have hput : ((List.range 32).foldl
      (fun d i => d.put pgPERFW (PERFW.SNAP.at i) (d.get pgPERFW (PERFW.CNT.at i))) d).topDown = d.topDown :=
    foldl_topDown _ _ _ fun _ _ => Dev.put_topDown ..
  simp only [Dev.perfCopy, Dev.putb_topDown, topDown_mk, ← hput]
  rfl

theorem Dev.bwEnd_topDown (d : Dev) (bits : List (Nat × Nat)) (num den : Nat) :
    (d.bwEnd bits num den).topDown = (d.topDown.1, d.topDown.1) := by
  simp [Dev.bwEnd]

theorem bwWinDo_topDown (w : Word) (bits : List (Nat × Nat)) (clocks : Nat) (d : Dev) :
    (bwWinDo w bits clocks d).topDown = (d.topDown.1, d.topDown.1) :=
  (Dev.putW_topDown ..).trans (Dev.bwEnd_topDown ..)

/-! ### Balance (R566, R567) -/

theorem tdOf_insert (m : AMap TdCount) (k j : Nat) (t : TdCount) :
    tdOf (AMap.insert m k t) j = if j = k then t else tdOf m j := by
  unfold tdOf
  rw [AMap.find?_insert]
  split <;> rfl

/-- A cycle in RUN adds one to the cycles and one to a class, so the two sums stay equal modulo 2^48. -/
theorem TdCount.cycle_balanced {t : TdCount} (h : t.balanced) (cls : Nat) : (t.cycle cls).balanced := by
  unfold TdCount.balanced at *
  simp only [TdCount.cycle, m48]
  split_ifs <;> dsimp only <;> omega

/-- The differences between two balanced counts balance. -/
theorem TdCount.sub_balanced {a b : TdCount} (ha : a.balanced) (hb : b.balanced) :
    ((b.retired : Int) - a.retired + (b.wasted - a.wasted) + (b.front - a.front) + (b.back - a.back)) % 2 ^ 48 =
      ((b.cycles : Int) - a.cycles) % 2 ^ 48 := by
  unfold TdCount.balanced at ha hb
  omega

/-- Whether the counters balance is a matter of the counters alone. -/
theorem Dev.tdBalanced_congr {a b : Dev} (h : b.topDown = a.topDown) (ha : a.tdBalanced) : b.tdBalanced := by
  obtain ⟨hlive, hsnap⟩ := Prod.mk.inj h
  unfold Dev.tdBalanced
  rwa [hlive, hsnap]

/-- A snapshot of balanced counters is balanced. -/
theorem Dev.tdBalanced_of_copied {a b : Dev} (h : b.topDown = (a.topDown.1, a.topDown.1)) (ha : a.tdBalanced) :
    b.tdBalanced := by
  obtain ⟨hlive, hsnap⟩ := Prod.mk.inj h
  unfold Dev.tdBalanced
  rw [hlive, hsnap]
  exact fun k => ⟨(ha k).1, (ha k).1⟩

/-- A change of the device after which the top-down counters still balance. -/
def KeepsBalance (f : Dev → Dev) : Prop := ∀ d, d.tdBalanced → (f d).tdBalanced

namespace KeepsBalance

theorem of_topDown {f : Dev → Dev} (h : ∀ d, (f d).topDown = d.topDown) : KeepsBalance f :=
  fun d => Dev.tdBalanced_congr (h d)

theorem of_copied {f : Dev → Dev} (h : ∀ d, (f d).topDown = (d.topDown.1, d.topDown.1)) : KeepsBalance f :=
  fun d => Dev.tdBalanced_of_copied (h d)

/-- A change that leaves every counter at zero. -/
theorem of_zero {f : Dev → Dev} (h : ∀ d, (f d).topDown = ([], [])) : KeepsBalance f :=
  fun d _ => Dev.tdBalanced_congr (a := Dev.reset) (h d) fun _ => ⟨rfl, rfl⟩

theorem comp {f g : Dev → Dev} (hg : KeepsBalance g) (hf : KeepsBalance f) : KeepsBalance fun d => g (f d) :=
  fun d hd => hg _ (hf d hd)

theorem ite {c : Dev → Prop} [∀ d, Decidable (c d)] {f g : Dev → Dev} (hf : KeepsBalance f) (hg : KeepsBalance g) :
    KeepsBalance fun d => if c d then f d else g d := by
  intro d hd
  dsimp only
  split
  · exact hf d hd
  · exact hg d hd

theorem foldl {β : Type} {f : Dev → β → Dev} (h : ∀ x, KeepsBalance (f · x)) (l : List β) :
    KeepsBalance (l.foldl f) := by
  intro d hd
  induction l generalizing d with
  | nil => exact hd
  | cons x t ih => exact ih _ (h x d hd)

theorem singleton {f : Dev → Dev} (hf : KeepsBalance f) : ∀ g ∈ [f], KeepsBalance g :=
  List.forall_mem_singleton.2 hf

end KeepsBalance

/-! ### A hub clock (R566) -/

/-- A cycle of one engine, whichever class its slot falls in. -/
theorem keepsBalance_engineCycle (k : Nat) :
    KeepsBalance fun d => { d.used with td := AMap.insert d.td k ((tdOf d.td k).cycle (d.free % 4)) } := by
  intro d hd j
  refine ⟨?_, (hd j).2⟩
  show (tdOf (AMap.insert d.td k ((tdOf d.td k).cycle (d.free % 4))) j).balanced
  rw [tdOf_insert]
  split
  · exact TdCount.cycle_balanced (hd k).1 _
  · exact (hd j).1

theorem keepsBalance_tdCycle : KeepsBalance Dev.tdCycle := by
  intro d hd
  unfold Dev.tdCycle
  exact KeepsBalance.foldl keepsBalance_engineCycle _ d hd

theorem keepsBalance_perfTick : KeepsBalance Dev.perfTick := by
  intro d hd
  have hcount : ((List.range 32).foldl
      (fun d i => d.when (d.get pgPERFW (PERFW.SEL_KIND.at i) == 0) (·.perfAdd i 1)) d).tdBalanced :=
    Dev.tdBalanced_congr (by simp) hd
  unfold Dev.perfTick Dev.when
  dsimp only
  split
  · exact keepsBalance_tdCycle _ hcount
  · exact hcount

theorem keepsBalance_tick : KeepsBalance Dev.tick := by
  intro d hd
  have hcount : d.tbTick.perfTick.tdBalanced := keepsBalance_perfTick _ (Dev.tdBalanced_congr d.tbTick_topDown hd)
  exact Dev.tdBalanced_congr (by simp [Dev.tick]) hcount

/-! ### Host writes -/

theorem keepsBalance_perfCmdWrite (w : Word) : KeepsBalance (perfCmdWrite w) :=
  .ite (.of_topDown fun _ => rfl) (.of_copied Dev.perfCopy_topDown)

/-- Of the hub registers only PERFW's move the top-down counters. -/
theorem hubWrite2_topDown {b : Block} (hb : b ≠ .perfw) (core : Bool) (inst pg off : Nat) (x : HostEnv) (w : Word) (d : Dev) :
    (hubWrite2 core b inst pg off x w d).topDown = d.topDown := by
  cases b
  case perfw => exact absurd rfl hb
  all_goals
    simp only [hubWrite2]
    (repeat' split) <;> simp

theorem keepsBalance_hubWrite2 (core : Bool) (b : Block) (inst pg off : Nat) (x : HostEnv) (w : Word) :
    KeepsBalance (hubWrite2 core b inst pg off x w) := by
  by_cases hb : b = .perfw
  · subst hb
    unfold hubWrite2
    dsimp only
    split
    · exact .of_topDown fun d => perfSelDo_topDown ..
    · exact .ite (.of_copied fun d => bwWinDo_topDown ..)
        (.ite (keepsBalance_perfCmdWrite w) (.of_topDown fun d => Dev.plainWrite_topDown ..))
  · exact .of_topDown (hubWrite2_topDown hb core inst pg off x w)

theorem keepsBalance_regWord (core : Bool) (pg : Nat) (i : PageInfo) (off : Nat) (x : HostEnv) (w : Word) :
    KeepsBalance (regWord core pg i off x w) := by
  refine .ite (.ite (.of_topDown fun d => softResetDo_topDown ..) (.of_topDown fun _ => rfl)) ?_
  refine .ite (.of_topDown fun d => commitWord_topDown ..) (.ite (.of_topDown fun d => stickyWrite_topDown ..) ?_)
  refine .ite (.of_topDown fun d => maskWrite_topDown ..) (.ite (.of_topDown fun d => forceWrite_topDown ..) ?_)
  refine .ite (.of_topDown fun d => firstWrite_topDown ..) (.ite (.of_topDown fun d => countWrite_topDown ..) ?_)
  refine .ite (.of_topDown fun _ => rfl) ?_
  split
  · exact .of_topDown fun d => lineWrite_topDown ..
  · exact keepsBalance_hubWrite2 _ _ _ _ _ _ _

theorem KeepsBalance.hostLine {f : Dev → Dev} (hf : KeepsBalance f) (p : Port) : KeepsBalance (·.hostLine p f) := by
  unfold Dev.hostLine
  exact .ite hf (.of_topDown fun d => Dev.ev_topDown ..)

theorem keepsBalance_hostWrite (core : Bool) (a : Nat) (x : HostEnv) (w : Word) : KeepsBalance (hostWrite core a x w) := by
  intro d hd
  unfold hostWrite
  dsimp only
  split
  · exact Dev.tdBalanced_congr (Dev.ev_topDown ..) hd
  · next i _ =>
    have hgo := keepsBalance_regWord core (a / 4096) i (a % 4096 / 4 * 4) x w
    split
    · next p _ => exact hgo.hostLine p d hd
    · exact hgo d hd

theorem keepsBalance_wideWrite (core : Bool) (a : Nat) (x : HostEnv) (lo hi : Word) : KeepsBalance (wideWrite core a x lo hi) :=
  .ite (.of_topDown fun _ => commitArmDo_topDown ..) (.comp (keepsBalance_hostWrite _ _ _ _) (keepsBalance_hostWrite _ _ _ _))

theorem keepsBalance_bar0Writes (core : Bool) (a : Nat) (wide : Bool) (x : HostEnv) (lo hi : Word) :
    ∀ f ∈ bar0Writes core a wide x lo hi, KeepsBalance f := by
  unfold bar0Writes
  split_ifs <;> simp [keepsBalance_hostWrite, keepsBalance_wideWrite]

/-- REG_WRITE: its host writes, then the completion of the command. -/
theorem keepsBalance_ringWrites (x : HostEnv) (d : Dev) : ∀ f ∈ ringWrites x d, KeepsBalance f := by
  unfold ringWrites
  repeat' split
  case isTrue =>
    refine List.forall_mem_append.2 ⟨List.forall_mem_map.2 fun e _ => keepsBalance_hostWrite _ _ _ _, ?_⟩
    exact .singleton (.of_topDown fun d => by simp)
  all_goals exact .singleton (.of_topDown fun _ => rfl)

/-! ### DMA -/

theorem keepsBalance_dmaRegWrite (a : Nat) (e : HostEnv) (w : Word) : KeepsBalance (dmaRegWrite a e w) :=
  .ite (.of_topDown fun d => by simp) (.ite (.of_topDown fun d => by simp) (keepsBalance_hostWrite _ _ _ _))

theorem keepsBalance_dmaRegWrites (s : DmaSet) (k : Nat) (l : List Nat) (e : HostEnv) :
    ∀ f ∈ dmaRegWrites s k l e, KeepsBalance f :=
  List.forall_mem_map.2 fun _ _ => keepsBalance_dmaRegWrite _ _ _

theorem keepsBalance_dmaCompletion (c : Nat) (host : Option (List Nat)) (xs : List Upset) (e : HostEnv) (keep : Nat) (d : Dev) :
    ∀ f ∈ dmaCompletion c host xs e keep d, KeepsBalance f := by
  unfold dmaCompletion
  dsimp only
  split
  · exact .singleton (.of_topDown fun _ => rfl)
  · split
    · exact .singleton (.of_topDown fun d => by simp)
    · split
      · exact .singleton (.of_topDown fun d => by simp)
      · split
        · refine List.forall_mem_cons.2 ⟨.of_topDown fun d => by simp, List.forall_mem_append.2 ⟨?_, ?_⟩⟩
          · exact keepsBalance_dmaRegWrites _ _ _ _
          · exact .singleton (.of_topDown fun d => by simp)
        · exact .singleton (.of_topDown fun d => by simp)

/-! ### Resets -/

theorem keepsBalance_pwronDo (straps : Nat) : KeepsBalance (pwronDo straps) :=
  .of_zero fun d => by simp [pwronDo]; rfl

theorem keepsBalance_rst : KeepsBalance Dev.rst :=
  .of_zero fun d => by simp [Dev.rst]; rfl

theorem keepsBalance_rstDo : KeepsBalance rstDo :=
  .comp (g := (·.putb pgSYS SYS.RESET_CAUSE_RST true)) (.of_topDown fun _ => Dev.putb_topDown ..) keepsBalance_rst

theorem keepsBalance_hubBrownDo (rail : Nat) : KeepsBalance (hubBrownDo rail) :=
  .comp (g := fun d => (d.railSeen rail).putb pgSYS SYS.RESET_CAUSE_HUB_BROWN true) (.of_topDown fun d => by simp)
    keepsBalance_rst

/-! ### A step -/

/-- A command is a run of a change, or of several, that keep the counters balanced, or the loss of OSC_IN. -/
inductive BalancedRun (c : Instr) : Prop
  | run (f : Dev → Dev) (hf : KeepsBalance f) (h : ∀ s, exec c s = s.run f)
  | cycles (g : Dev → List (Dev → Dev)) (hg : ∀ d, ∀ f ∈ g d, KeepsBalance f) (h : ∀ s, exec c s = s.runCycles g)
  | reset (f : Dev → Dev) (hf : KeepsBalance f) (h : ∀ s, exec c s = s.runReset f)
  | loss (h : ∀ s, exec c s = s.runLoss)

/-- Every command of the table: those that can take a snapshot, write a register or reset the block, and those that leave the
top-down counters alone. -/
theorem exec_balancedRun (c : Instr) : BalancedRun c := by
  cases c
  case registerWrite => exact .cycles _ (fun _ => keepsBalance_bar0Writes _ _ _ _ _ _) fun _ => rfl
  case regWrite => exact .cycles _ (keepsBalance_ringWrites _) fun _ => rfl
  case dmaReadCompletion => exact .cycles _ (keepsBalance_dmaCompletion _ _ _ _ _) fun _ => rfl
  case pwronN => exact .reset _ (keepsBalance_pwronDo _) fun _ => rfl
  case rstN => exact .reset _ keepsBalance_rstDo fun _ => rfl
  case oscInLoss => exact .loss fun _ => rfl
  case hubBrown => exact .run _ (keepsBalance_hubBrownDo _) fun _ => rfl
  case perfSnap => exact .run _ (keepsBalance_perfCmdWrite _) fun _ => rfl
  case bwLatch => exact .run _ (.of_copied fun d => Dev.bwEnd_topDown ..) fun _ => rfl
  case bwWinWrite => exact .run _ (.of_copied fun d => bwWinDo_topDown ..) fun _ => rfl
  case unmapped | ldOffline | rwsWrite | evtMaskWrite | force | msixVectorUnmask | softRst =>
    exact .run _ (keepsBalance_hostWrite _ _ _ _) fun _ => rfl
  case clkCtlWrite r w => exact .run _ (.of_topDown fun d => by cases r <;> simp) fun _ => rfl
  case reqGo n w pier => exact .run _ (.of_topDown fun d => by cases pier <;> simp) fun _ => rfl
  all_goals exact .run _ (.of_topDown fun d => by simp) fun _ => rfl

namespace KeepsBalance

/-- The end of a cycle leaves the top-down counters alone. -/
theorem cycle {f : Dev → Dev} (hf : KeepsBalance f) : KeepsBalance (·.cycle f) := fun d hd =>
  Dev.tdBalanced_congr (by simp [Dev.cycle]) (hf d hd)

theorem command {f : Dev → Dev} (hf : KeepsBalance f) : KeepsBalance (·.command f) := fun d hd => hf.cycle d.fresh hd

theorem cycles {g : Dev → List (Dev → Dev)} (hg : ∀ d, ∀ f ∈ g d, KeepsBalance f) : KeepsBalance (·.cycles g) := by
  have hall : ∀ (l : List (Dev → Dev)), (∀ f ∈ l, KeepsBalance f) → KeepsBalance (l.foldl Dev.cycle) := by
    intro l hl d hd
    induction l generalizing d with
    | nil => exact hd
    | cons f t ih =>
      obtain ⟨hf, ht⟩ := List.forall_mem_cons.1 hl
      exact ih ht _ (hf.cycle d hd)
  exact fun d hd => hall _ (hg d.fresh) d.fresh hd

end KeepsBalance

/-- After a command or a hub clock OSC_IN is known to run only if it was before, and then the loss has no part in the step. -/
theorem tdBalanced_of_clocked {a b : Dev} {lost : Bool} (ha : a.tdBalanced) (h : b = if lost then a.adrift else a)
    (hb : b.lost = false) : b.tdBalanced := by
  cases lost
  · rwa [h]
  · rw [h] at hb
    exact absurd hb (by simp [Dev.adrift])

theorem run_balanced {s t : State} {f : Dev → Dev} (hf : KeepsBalance f) (hs : s.dev.tdBalanced) (h : s.run f = .next t)
    (ht : t.clocked) : t.dev.tdBalanced := by
  obtain rfl := Host.Outcome.next.inj h
  exact tdBalanced_of_clocked (hf.command _ hs) rfl ht

theorem exec_balanced {c : Instr} {s t : State} (hs : s.dev.tdBalanced) (h : exec c s = .next t) (ht : t.clocked) :
    t.dev.tdBalanced := by
  cases exec_balancedRun c with
  | run f hf hrun => exact run_balanced hf hs ((hrun s).symm.trans h) ht
  | cycles g hg hrun =>
    obtain rfl := Host.Outcome.next.inj ((hrun s).symm.trans h)
    exact tdBalanced_of_clocked (KeepsBalance.cycles hg _ hs) rfl ht
  | reset f hf hrun =>
    obtain rfl := Host.Outcome.next.inj ((hrun s).symm.trans h)
    exact hf.command _ hs
  | loss hrun =>
    obtain rfl := Host.Outcome.next.inj ((hrun s).symm.trans h)
    exact absurd ht (by simp [Dev.adrift])

/-- A step of the block keeps the top-down counters balanced, while OSC_IN is known to run (R567). -/
theorem step_balanced {s t : State} (hs : s.dev.tdBalanced) (h : step s = .next t) (ht : t.clocked) : t.dev.tdBalanced := by
  unfold step at h
  split at h
  · exact run_balanced keepsBalance_tick hs h ht
  · next c rest _ => exact exec_balanced (s := { s with pending := rest }) hs h ht

/-- Settles O7: an engine cycle adds one to the cycles and to one class, a snapshot copies balanced counters, a reset zeroes
them, and every other change of the block leaves them alone. -/
theorem topDownBalance : Obligations.TopDownBalance :=
  ⟨fun _ _ => step_balanced, fun _ _ => TdCount.sub_balanced⟩

end Sys2Proof.Machine
end
